-- ==== Sys2Proof/Word.lean ====
section
/-! DEFINITION. The word types of the part (R4, R10): a byte, a 32-bit register, a 64-bit pair, and the
joining and splitting of pairs and of byte strings. -/

namespace Sys2Proof

/-- A byte of memory. -/
abbrev Byte := BitVec 8

/-- A 32-bit register or memory word. -/
abbrev Word := BitVec 32

/-- A 64-bit register pair or handle. -/
abbrev DWord := BitVec 64

/-- The 64-bit value of a pair: bits [31:0] stand in the even register (R4). -/
def joinPair (lo hi : Word) : DWord := hi ++ lo

/-- Bits [31:0] of a 64-bit value. -/
def lowWord (x : DWord) : Word := x.setWidth 32

/-- Bits [63:32] of a 64-bit value. -/
def highWord (x : DWord) : Word := (x >>> 32).setWidth 32

end Sys2Proof
end

