-- ==== Sys2Proof/Config.lean ====
section
/-! DEFINITION. What the spec leaves to other standards or to the part, and the free values. None of
the opaque constants has a body, so no proof can see a value of one. -/

namespace Sys2Proof.Config

/-- Clocks that pass beyond one in the t-th step; timing is out of the model (log 3). -/
opaque freeTicks : Nat → Nat

/-- The value of an elementary function where 320-bit enclosures did not decide the rounding; no FP32
input is known to need it (log 9). -/
opaque undecided : Nat → Nat

/-- The zero point that a 4-bit operand takes from a ZA or ZB above 15, for which R62 gives none (log 20). -/
opaque wideZero : Nat → Nat

/-- Mebibytes fitted, from 1 to the 256 GiB of R1's table; no more is known of them (log 11). -/
opaque memCode : Nat
def memFitted : Nat := 1 + memCode % 2 ^ 18

/-- The part's serial number, behind ATTEST (log 11). -/
opaque serial : List Byte

/-- The SM3 digests of the three firmware images (log 11). -/
opaque firmwareDigest : Nat → List Byte

/-- The device certificate, the private half of the identity key, and the numbers that SM2 draws for the signature of the t-th
step (log 11). -/
opaque certificate : List Byte
opaque deviceKey : Nat
opaque signDraw : Nat → Nat → Nat

/-- Which words of its source a COPYOUT encrypts as they stand when it ends, by the step at which it ends and by virtual
address / 4; the others as they stood when it began (R460; log 126). -/
opaque copyLate : Nat → Nat → Bool

/-- The function's configuration space beside its identity, by dword (R440; log 186). -/
opaque configWord : Nat → Nat

/-- Whether bring-up step k fails, at the t-th step of the machine (log 11). -/
opaque bringUpFails : Nat → Nat → Bool

/-- The upper half of the service capability's first register: version and next pointer (log 11). -/
opaque capHeader : Nat

/-- Whether the word of the t-th step shares its issue slot with other groups that R241 lets it be packed with; and what a
snapshot shows of the scheduler and the front end, whose layouts R476 does not give, by tick, record and dword (log 21). -/
opaque packs : Nat → Bool
opaque snapValue : Nat → Nat → Nat → Nat

/-- The team and cluster index that a thread of a task group or of a consumer batch reads, by the team's own
number (log 22). -/
opaque taskTeam : Nat → Nat

/-- The identifier that the scheduler assigns to the k-th object that it numbers, which %grid gives of a grid (log 29). -/
opaque gridName : Nat → Nat

/-- Whether the tensor engine's read cache keeps a sector that it reads at the t-th step (log 142). -/
opaque keepsRead : Nat → Nat → Bool

/-- Which of n partitions issues, and whether a render-target word in flight, and which, arrives, at the t-th step
(log 143, 144). -/
opaque nextPart : Nat → Nat
opaque targetArrives : Nat → Option Nat

/-- The host core that makes the host access of the t-th step (R284; log 167). -/
opaque hostCore : Nat → Nat

/-- A component of the texel that TEX.LOAD names beyond a coarser level, by tick and by lane × 4 + component (log 158). -/
opaque outsideTexel : Nat → Nat → Nat

/-- SEXP after SCALE.NEXT over a history without a positive entry, by the greatest entry and OTYPE (log 145). -/
opaque scaleOf : Nat → Nat → Int

/-- Temperature in degrees, as the t-th step reads it (log 11). -/
opaque temperature : Nat → Nat

end Sys2Proof.Config
end

