-- ==== Sys2Proof/Machine/Numbers.lean ====
section
/-! DEFINITION. Numbers to the last bit (02, R51 to R73): the float formats, their exact values, the
rounding of an exact value into a format with its status bits, and the exact operations on values. -/

namespace Sys2Proof.Machine

/-- An exact value (R52): NaN, an infinity, or (-1)^neg × m × 2^e. -/
inductive Num where
  | nan
  | inf (neg : Bool)
  | fin (neg : Bool) (m : Nat) (e : Int)
  deriving DecidableEq, Repr

/-- The floating-point formats of R51 (E8M0 is a scale, decoded by `scaleE8`). -/
inductive Fmt where
  | fp32
  | fp16
  | bf16
  | fa40
  | e5m2
  | e4m3
  | e2m1
  deriving DecidableEq, Repr

/-- Exponent bits (R51). -/
def Fmt.ebits : Fmt → Nat
  | .fp32 => 8
  | .fp16 => 5
  | .bf16 => 8
  | .fa40 => 8
  | .e5m2 => 5
  | .e4m3 => 4
  | .e2m1 => 2

/-- Fraction bits (R51). -/
def Fmt.fbits : Fmt → Nat
  | .fp32 => 23
  | .fp16 => 10
  | .bf16 => 7
  | .fa40 => 31
  | .e5m2 => 2
  | .e4m3 => 3
  | .e2m1 => 1

/-- Exponent bias (R51). -/
def Fmt.bias : Fmt → Nat
  | .fp32 => 127
  | .fp16 => 15
  | .bf16 => 127
  | .fa40 => 127
  | .e5m2 => 15
  | .e4m3 => 7
  | .e2m1 => 1

/-- Bits of a code. -/
def Fmt.width (f : Fmt) : Nat := 1 + f.ebits + f.fbits

/-- Whether exponent field e and fraction field m hold a NaN (R51). -/
def Fmt.isNan (f : Fmt) (e m : Nat) : Bool :=
  match f with
  | .e4m3 => e == 15 && m == 7
  | .e2m1 => false
  | _ => e == 2 ^ f.ebits - 1 && m != 0

/-- Whether exponent field e and fraction field m hold an infinity (R51). -/
def Fmt.isInf (f : Fmt) (e m : Nat) : Bool :=
  match f with
  | .e4m3 => false
  | .e2m1 => false
  | _ => e == 2 ^ f.ebits - 1 && m == 0

/-- The exponent of the smallest subnormal: its value is 2^minExp (R51, R53). -/
def Fmt.minExp (f : Fmt) : Int := 1 - (f.bias : Int) - f.fbits

/-- The exact value of a code (R52). -/
def Fmt.decode (f : Fmt) (c : Nat) : Num :=
  let s := c / 2 ^ (f.ebits + f.fbits) % 2 == 1
  let e := c / 2 ^ f.fbits % 2 ^ f.ebits
  let m := c % 2 ^ f.fbits
  if f.isNan e m then .nan
  else if f.isInf e m then .inf s
  else if e = 0 then .fin s m f.minExp
  else .fin s (2 ^ f.fbits + m) ((e : Int) - f.bias - f.fbits)

/-- The largest finite code without its sign (R51). -/
def Fmt.maxCode (f : Fmt) : Nat :=
  match f with
  | .e4m3 => 0x7E
  | .e2m1 => 7
  | _ => (2 ^ f.ebits - 1) * 2 ^ f.fbits - 1

/-- The canonical NaN (R54); E2M1 has none and takes 0 (R65). -/
def Fmt.nanCode (f : Fmt) : Nat :=
  match f with
  | .fp32 => 0x7FC00000
  | .fp16 => 0x7E00
  | .bf16 => 0x7FC0
  | .fa40 => 0x7FC0000000
  | .e5m2 => 0x7E
  | .e4m3 => 0x7F
  | .e2m1 => 0

/-- The code of an infinity without its sign. -/
def Fmt.infCode (f : Fmt) : Nat := (2 ^ f.ebits - 1) * 2 ^ f.fbits

/-- The sign bit of a code. -/
def Fmt.signBit (f : Fmt) (neg : Bool) : Nat := if neg then 2 ^ (f.ebits + f.fbits) else 0

/-- Status bits in the places of %fstat (R67). -/
abbrev Stat := BitVec 32

def Stat.none : Stat := 0
def Stat.nx : Stat := 1
def Stat.uf : Stat := 2
def Stat.of : Stat := 4
def Stat.dz : Stat := 8
def Stat.nv : Stat := 16
def Stat.sf : Stat := 32

/-- A status bit where a condition holds. -/
def Stat.when (b : Bool) (s : Stat) : Stat := if b then s else 0

/-- m × 2^e, and a little more where `sticky`, counted in units of 2^q: the whole units, and the rest
as 0 nothing, 1 below a half, 2 a half, 3 above a half. -/
def splitAt (m : Nat) (e : Int) (sticky : Bool) (q : Int) : Nat × Nat :=
  if q ≤ e then (m * 2 ^ (e - q).toNat, if sticky then 1 else 0)
  else
    let d := (q - e).toNat
    let r := m % 2 ^ d
    let h := 2 ^ (d - 1)
    (m / 2 ^ d, if r = 0 ∧ sticky = false then 0 else if r < h then 1 else if r = h ∧ sticky = false then 2 else 3)

/-- Whether the rest rounds away from zero in a mode of R63. -/
def roundsUp (mode : Nat) (neg : Bool) (u rest : Nat) : Bool :=
  match mode with
  | 0 => rest == 3 || (rest == 2 && u % 2 == 1)
  | 1 => false
  | 2 => rest != 0 && !neg
  | _ => rest != 0 && neg

/-- A magnitude rounded to the format's precision with the exponent unbounded above (R63):
the units u of 2^q, and whether it is inexact. -/
def Fmt.roundMag (f : Fmt) (mode : Nat) (neg : Bool) (m : Nat) (e : Int) (sticky : Bool) : Nat × Int × Bool :=
  let q := if m = 0 then f.minExp else max (e + (Nat.log2 m : Int) - f.fbits) f.minExp
  let (u, rest) := splitAt m e sticky q
  (if roundsUp mode neg u rest then u + 1 else u, q, rest != 0)

/-- Whether u × 2^q exceeds the largest finite value. -/
def Fmt.exceeds (f : Fmt) (u : Nat) (q : Int) : Bool :=
  match f.decode f.maxCode with
  | .fin _ m e => if e ≤ q then m < u * 2 ^ (q - e).toNat else m * 2 ^ (e - q).toNat < u
  | _ => false

/-- The code, without sign, of u × 2^q with u ≤ 2^(fbits + 1) and q ≥ minExp. -/
def Fmt.encodeMag (f : Fmt) (u : Nat) (q : Int) : Nat :=
  let (u, q) := if u = 2 ^ (f.fbits + 1) then (2 ^ f.fbits, q + 1) else (u, q)
  if u < 2 ^ f.fbits then u
  else (q + f.fbits + f.bias).toNat * 2 ^ f.fbits + (u - 2 ^ f.fbits)

/-- The code an overflow delivers, and whether it is ±largest finite through a saturation (R64). -/
def Fmt.overflowCode (f : Fmt) (mode : Nat) (sat neg : Bool) : Nat × Bool :=
  match f with
  | .e4m3 => (f.maxCode, true)
  | .e2m1 => (f.maxCode, true)
  | .fa40 => (f.infCode, false)
  | _ =>
    if sat then (f.maxCode, true)
    else if mode = 0 ∨ (mode = 2 ∧ neg = false) ∨ (mode = 3 ∧ neg = true) then (f.infCode, false)
    else (f.maxCode, false)

/-- A finite value (with a sticky rest) rounded into a format, with its status (R63, R64, R66, R67). -/
def Fmt.roundFin (f : Fmt) (mode : Nat) (sat neg : Bool) (m : Nat) (e : Int) (sticky : Bool) : Nat × Stat :=
  let (u, q, inexact) := f.roundMag mode neg m e sticky
  if f.exceeds u q then
    let (c, sf) := f.overflowCode mode sat neg
    (f.signBit neg + c, Stat.of ||| Stat.nx ||| Stat.when sf Stat.sf)
  else
    let c := f.encodeMag u q
    (f.signBit neg + c, Stat.when inexact Stat.nx ||| Stat.when (inexact && c < 2 ^ f.fbits) Stat.uf)

/-- An exact value delivered into a format (R64, R65): its code and status. A NaN gives the canonical
NaN; into E2M1 it gives 0 with NV. -/
def Fmt.deliver (f : Fmt) (mode : Nat) (sat : Bool) : Num → Nat × Stat
  | .nan => (f.nanCode, if f = .e2m1 then Stat.nv else 0)
  | .inf s =>
    match f with
    | .e4m3 => (f.signBit s + f.maxCode, Stat.sf)
    | .e2m1 => (f.signBit s + f.maxCode, Stat.sf)
    | _ => if sat ∧ f ≠ .fa40 then (f.signBit s + f.maxCode, Stat.sf) else (f.signBit s + f.infCode, 0)
  | .fin s m e => f.roundFin mode sat s m e false

/-- RoundNE(x, fmt) as a code (R8, R63). -/
def Fmt.roundNE (f : Fmt) (x : Num) : Nat := (f.deliver 0 false x).1

/-- A signed mantissa in units of 2^q, for q at or below the value's exponent. -/
def scaledInt (neg : Bool) (m : Nat) (e q : Int) : Int :=
  let v : Int := m * 2 ^ (e - q).toNat
  if neg then -v else v

/-- The value i × 2^q, with the sign `z` where it is zero. -/
def Num.ofScaled (i q : Int) (z : Bool) : Num :=
  if i = 0 then .fin z 0 0 else .fin (i < 0) i.natAbs q

/-- An exact integer. -/
def Num.ofInt (i : Int) : Num := Num.ofScaled i 0 false

/-- Negation. -/
def Num.neg : Num → Num
  | .nan => .nan
  | .inf s => .inf (!s)
  | .fin s m e => .fin (!s) m e

/-- The exact product, and NV for 0 × ∞ (R115). -/
def Num.mul : Num → Num → Num × Stat
  | .nan, _ => (.nan, 0)
  | _, .nan => (.nan, 0)
  | .inf s, .inf t => (.inf (s != t), 0)
  | .inf s, .fin t m _ => if m = 0 then (.nan, Stat.nv) else (.inf (s != t), 0)
  | .fin s m _, .inf t => if m = 0 then (.nan, Stat.nv) else (.inf (s != t), 0)
  | .fin s m e, .fin t n d => (.fin (s != t) (m * n) (e + d), 0)

/-- The exact sum of two finite values; an exact zero of opposite signs is +0 (R66, to nearest). -/
def finAdd (s : Bool) (m : Nat) (e : Int) (t : Bool) (n : Nat) (d : Int) : Num :=
  Num.ofScaled (scaledInt s m e (min e d) + scaledInt t n d (min e d)) (min e d) (s && t)

/-- The exact sum, and NV for ∞ − ∞ (R115). -/
def Num.add : Num → Num → Num × Stat
  | .nan, _ => (.nan, 0)
  | _, .nan => (.nan, 0)
  | .inf s, .inf t => if s = t then (.inf s, 0) else (.nan, Stat.nv)
  | .inf s, _ => (.inf s, 0)
  | _, .inf t => (.inf t, 0)
  | .fin s m e, .fin t n d => (finAdd s m e t n d, 0)

/-- Whether a value is less than another; false where either is NaN. −0 equals +0 (R112). -/
def Num.lt : Num → Num → Bool
  | .nan, _ => false
  | _, .nan => false
  | .inf s, .inf t => s && !t
  | .inf s, .fin _ _ _ => s
  | .fin _ _ _, .inf t => !t
  | .fin s m e, .fin t n d => decide (scaledInt s m e (min e d) < scaledInt t n d (min e d))

/-- Whether two values are equal; false where either is NaN (R112). -/
def Num.eq (x y : Num) : Bool := x != .nan && y != .nan && !x.lt y && !y.lt x

/-- The absolute value. -/
def Num.abs : Num → Num
  | .nan => .nan
  | .inf _ => .inf false
  | .fin _ m e => .fin false m e

/-- x × 2^k, exact. -/
def Num.scale (k : Int) : Num → Num
  | .nan => .nan
  | .inf s => .inf s
  | .fin s m e => .fin s m (e + k)

/-- An exact sum of many terms (R71): NaN for a NaN term or both infinities, else an infinite term. -/
def exactSum (xs : List Num) : Num := xs.foldl (fun a x => (a.add x).1) (.fin true 0 0)

/-- The whole part toward −∞ of a finite value. -/
def floorInt (neg : Bool) (m : Nat) (e : Int) : Int :=
  if 0 ≤ e then (if neg then -((m * 2 ^ e.toNat : Nat) : Int) else (m * 2 ^ e.toNat : Nat))
  else if neg then -(((m + 2 ^ (-e).toNat - 1) / 2 ^ (-e).toNat : Nat) : Int) else (m / 2 ^ (-e).toNat : Nat)

/-- A finite value rounded to an integer in a mode, and whether it is inexact (R63). -/
def roundInt (mode : Nat) (neg : Bool) (m : Nat) (e : Int) : Int × Bool :=
  let (u, rest) := splitAt m e false 0
  let v : Int := if roundsUp mode neg u rest then u + 1 else u
  (if neg then -v else v, rest != 0)

/-- An exact integer clamped to a range, and whether the clamp changed it (R64). -/
def clampInt (lo hi v : Int) : Int × Bool :=
  if v < lo then (lo, true) else if hi < v then (hi, true) else (v, false)

/-- A value delivered to an integer format of range lo to hi, from a float (R65) or an integer. -/
def deliverInt (mode : Nat) (fromFloat : Bool) (lo hi : Int) : Num → Int × Stat
  | .nan => (0, Stat.nv)
  | .inf s => (if s then lo else hi, Stat.nv ||| Stat.sf)
  | .fin s m e =>
    let (v, inexact) := roundInt mode s m e
    let (w, changed) := clampInt lo hi v
    (w, if changed then (if fromFloat then Stat.nv ||| Stat.sf else Stat.sf) else Stat.when inexact Stat.nx)

/-- The floor of the square root, bit by bit from bit k − 1 of the root. -/
def sqrtFrom (n : Nat) : Nat → Nat → Nat
  | 0, r => r
  | k + 1, r => let t := r + 2 ^ k; sqrtFrom n k (if t * t ≤ n then t else r)

/-- The floor of the square root. -/
def natSqrt (n : Nat) : Nat := sqrtFrom n (Nat.log2 n / 2 + 1) 0

/-- The value of an E8M0 scale code (R52, R58): NaN for 0xFF. -/
def scaleE8 (x : Nat) : Num := if x = 255 then .nan else .fin false 1 ((x : Int) - 127)

/-- The order key of a code in which −0 is below +0 (R72, R116): for codes that are no NaN. -/
def Fmt.key (f : Fmt) (c : Nat) : Int :=
  let h := 2 ^ (f.ebits + f.fbits)
  if c / h % 2 = 1 then -((c % h : Nat) : Int) - 1 else (c % h : Nat)

/-- The lesser (or greater) of two codes as R116 gives it: a NaN yields the other operand. -/
def Fmt.pick (f : Fmt) (greater : Bool) (a b : Nat) : Nat :=
  match f.decode a, f.decode b with
  | .nan, .nan => f.nanCode
  | .nan, _ => b
  | _, .nan => a
  | _, _ => if greater then (if f.key a < f.key b then b else a) else (if f.key b < f.key a then b else a)

/-- x + y, x − y by negation, x × y and x × y + z, rounded once into f (R70, R115). -/
def Fmt.sum (f : Fmt) (sat : Bool) (x y : Num) : Nat × Stat :=
  let (v, s) := x.add y
  let (c, t) := f.deliver 0 sat v
  (c, s ||| t)

def Fmt.product (f : Fmt) (sat : Bool) (x y : Num) : Nat × Stat :=
  let (v, s) := x.mul y
  let (c, t) := f.deliver 0 sat v
  (c, s ||| t)

def Fmt.fused (f : Fmt) (sat : Bool) (x y z : Num) : Nat × Stat :=
  let (p, s) := x.mul y
  let (v, s') := p.add z
  let (c, t) := f.deliver 0 sat v
  (c, s ||| s' ||| t)

/-- FAdd of R138: RoundNE(x + y, FP32), without status. -/
def fp32Add (x y : Nat) : Nat := (Fmt.fp32.sum false (Fmt.fp32.decode x) (Fmt.fp32.decode y)).1

/-- SatI40 (R57): the saturated value, and whether IOV is set. -/
def satI40 (x : Int) : Int × Bool := clampInt (-(2 ^ 39 - 1)) (2 ^ 39 - 1) x

/-- A two's-complement code of w bits as an integer. -/
def signedOf (w c : Nat) : Int := if c % 2 ^ w < 2 ^ (w - 1) then (c % 2 ^ w : Nat) else ((c % 2 ^ w : Nat) : Int) - 2 ^ w

/-- The two's-complement code of w bits of an integer. -/
def codeOf (w : Nat) (i : Int) : Nat := (i % 2 ^ w).toNat

/-- The two elements of an OV4 byte, before the block scale (R60). -/
def ov4Nibble (n : Nat) : Int := signedOf 4 n
def ov4Payload (n : Nat) : Int := let v : Int := 2 ^ (n % 8 + 3); if n / 8 % 2 = 1 then -v else v
def ov4Pair (b : Nat) : Int × Int :=
  let lo := b % 16
  let hi := b / 16 % 16
  if lo = 8 then (if hi = 8 then (0, 0) else (0, ov4Payload hi))
  else if hi = 8 then (ov4Payload lo, 0)
  else (ov4Nibble lo, ov4Nibble hi)

end Sys2Proof.Machine
end

