-- ==== Sys2Proof/Machine/Elementary.lean ====
section
/-! DEFINITION. The elementary functions of R117, each RoundNE(f(a), FP32) of the exact real function.
Division and roots are exact integer computations with a sticky rest. 2^a, log2 a, sin a and cos a are
enclosed in fixed point between two values less than 2^21 units of 2^-320 apart, and the result is the
code that both ends round to; where the ends differ it is the free value of Config (log 9). -/

namespace Sys2Proof.Machine

/-- ⌊π × 2^640⌋. -/
def piScaled : Nat :=
  0x3243f6a8885a308d313198a2e03707344a4093822299f31d0082efa98ec4e6c89452821e638d01377be5466cf34e90c6cc0ac29b7c97c50dd3f84d5b5b54709179216d5d98979fb1bd1310ba698dfb5ac

/-- ⌊ln 2 × 2^320⌋. -/
def ln2Scaled : Nat :=
  0xb17217f7d1cf79abc9e3b39803f2f6af40f343267298b62d8a0d175b8baafa2be7b876206debac98

/-- 2^320, the unit of the fixed point. -/
def unit320 : Int := 2 ^ 320

/-- Σ of the terms t, t·x/(k+1), … : the exponential series, `fuel` terms, in units of 2^-320. -/
def expSeries (x : Int) : Nat → Nat → Int → Int → Int
  | 0, _, _, acc => acc
  | n + 1, k, t, acc => expSeries x n (k + 1) (t * x / unit320 / (k + 1)) (acc + t)

/-- The series of sine (from t = r, k = 1) or cosine (from t = 1, k = 0), with y = r². -/
def trigSeries (y : Int) : Nat → Nat → Int → Int → Int
  | 0, _, _, acc => acc
  | n + 1, k, t, acc => trigSeries y n (k + 2) (-(t * y / unit320 / ((k + 1) * (k + 2)))) (acc + t)

/-- Σ t/k + t·y/(k+2) + …, the series of the inverse hyperbolic tangent. -/
def atanhSeries (y : Int) : Nat → Nat → Int → Int → Int
  | 0, _, _, acc => acc
  | n + 1, k, t, acc => atanhSeries y n (k + 2) (t * y / unit320) (acc + t / k)

/-- A fixed-point value and its error bound as the code both ends round to, with NX (R117). -/
def enclose (v : Int) (e : Int) (tag : Nat) : Nat × Stat :=
  let lo := Fmt.fp32.deliver 0 false (Num.ofScaled (v - 2 ^ 20) e false)
  let hi := Fmt.fp32.deliver 0 false (Num.ofScaled (v + 2 ^ 20) e false)
  if lo.1 = hi.1 then (lo.1, lo.2 ||| Stat.nx) else (Config.undecided tag % 2 ^ 32, Stat.nx)

/-- 1 / a. -/
def frcp (c : Nat) : Nat × Stat :=
  match Fmt.fp32.decode c with
  | .nan => (Fmt.fp32.nanCode, 0)
  | .inf s => (Fmt.fp32.signBit s, 0)
  | .fin s m e =>
    if m = 0 then (Fmt.fp32.signBit s + Fmt.fp32.infCode, Stat.dz)
    else Fmt.fp32.roundFin 0 false s (2 ^ 64 / m) (-e - 64) (2 ^ 64 % m != 0)

/-- √a. -/
def fsqrt (c : Nat) : Nat × Stat :=
  match Fmt.fp32.decode c with
  | .nan => (Fmt.fp32.nanCode, 0)
  | .inf s => if s then (Fmt.fp32.nanCode, Stat.nv) else (Fmt.fp32.infCode, 0)
  | .fin s m e =>
    if m = 0 then (c, 0)
    else if s then (Fmt.fp32.nanCode, Stat.nv)
    else
      let n := (if e % 2 = 0 then m else 2 * m) * 2 ^ 80
      let r := natSqrt n
      Fmt.fp32.roundFin 0 false false r (e / 2 - 40) (r * r != n)

/-- 1 / √a. -/
def frsq (c : Nat) : Nat × Stat :=
  match Fmt.fp32.decode c with
  | .nan => (Fmt.fp32.nanCode, 0)
  | .inf s => if s then (Fmt.fp32.nanCode, Stat.nv) else (0, 0)
  | .fin s m e =>
    if m = 0 then (Fmt.fp32.signBit s + Fmt.fp32.infCode, Stat.dz)
    else if s then (Fmt.fp32.nanCode, Stat.nv)
    else
      let n := if e % 2 = 0 then m else 2 * m
      let r := natSqrt (2 ^ 160 / n)
      Fmt.fp32.roundFin 0 false false r (-(e / 2) - 80) (r * r * n != 2 ^ 160)

/-- 2^x for a finite x ≠ 0: exact for an integer x, else through exp(f ln 2) of the fraction f. Beyond
±512 the result lies past the range of every input's rounding, so x is held at ±512 there. -/
def fexp2Fin (neg : Bool) (m : Nat) (e : Int) (tag : Nat) : Nat × Stat :=
  if 9 < e + (Nat.log2 m : Int) then
    Fmt.fp32.roundFin 0 false false 1 (if neg then -512 else 512) true
  else
    let k := floorInt neg m e
    let f := scaledInt neg m e (min e (-320)) / 2 ^ (-320 - min e (-320)).toNat - k * unit320
    if f = 0 then Fmt.fp32.roundFin 0 false false 1 k false
    else enclose (expSeries (f * ln2Scaled / unit320) 90 0 unit320 0) (k - 320) tag

def fexp2 (c : Nat) : Nat × Stat :=
  match Fmt.fp32.decode c with
  | .nan => (Fmt.fp32.nanCode, 0)
  | .inf s => (if s then 0 else Fmt.fp32.infCode, 0)
  | .fin s m e => if m = 0 then (0x3F800000, 0) else fexp2Fin s m e c

/-- log2 of m × 2^e: the exponent of m's leading bit and log2 of the normalised rest. -/
def flog2Fin (m : Nat) (e : Int) (tag : Nat) : Nat × Stat :=
  let k := Nat.log2 m
  if m = 2 ^ k then Fmt.fp32.deliver 0 false (Num.ofInt (e + k))
  else
    let z : Int := ((m - 2 ^ k : Nat) : Int) * unit320 / (m + 2 ^ k : Nat)
    let l := 2 * atanhSeries (z * z / unit320) 110 1 z 0
    enclose (l * unit320 / ln2Scaled + (e + k) * unit320) (-320) tag

def flog2 (c : Nat) : Nat × Stat :=
  match Fmt.fp32.decode c with
  | .nan => (Fmt.fp32.nanCode, 0)
  | .inf s => if s then (Fmt.fp32.nanCode, Stat.nv) else (Fmt.fp32.infCode, 0)
  | .fin s m e =>
    if m = 0 then (Fmt.fp32.signBit true + Fmt.fp32.infCode, Stat.dz)
    else if s then (Fmt.fp32.nanCode, Stat.nv)
    else flog2Fin m e c

/-- |x| = k × π/2 + r with r within ±π/4: k, and r in units of 2^-320. -/
def reduceTrig (m : Nat) (e : Int) : Int × Int :=
  let x : Int := m * 2 ^ (e + 640).toNat
  let k := (4 * x + piScaled) / (2 * piScaled)
  (k, (2 * x - k * piScaled) / 2 / 2 ^ 320)

/-- sin of |x| + q quarter turns, with the sign `neg` put on the result. -/
def trigQuarter (neg : Bool) (m : Nat) (e : Int) (q : Int) (tag : Nat) : Nat × Stat :=
  let (k, r) := reduceTrig m e
  let y := r * r / unit320
  let j := (k + q) % 4
  let v := if j % 2 = 0 then trigSeries y 50 1 r 0 else trigSeries y 50 0 unit320 0
  let w := if 2 ≤ j then -v else v
  enclose (if neg then -w else w) (-320) tag

def fsin (c : Nat) : Nat × Stat :=
  match Fmt.fp32.decode c with
  | .nan => (Fmt.fp32.nanCode, 0)
  | .inf _ => (Fmt.fp32.nanCode, Stat.nv)
  | .fin s m e => if m = 0 then (c, 0) else trigQuarter s m e 0 c

def fcos (c : Nat) : Nat × Stat :=
  match Fmt.fp32.decode c with
  | .nan => (Fmt.fp32.nanCode, 0)
  | .inf _ => (Fmt.fp32.nanCode, Stat.nv)
  | .fin _ m e => if m = 0 then (0x3F800000, 0) else trigQuarter false m e 1 c

/-- a − floor(a) (R118). -/
def ffrc (c : Nat) : Nat × Stat :=
  match Fmt.fp32.decode c with
  | .nan => (Fmt.fp32.nanCode, 0)
  | .inf _ => (Fmt.fp32.nanCode, Stat.nv)
  | .fin s m e =>
    let q := min e 0
    Fmt.fp32.deliver 0 false (Num.ofScaled (scaledInt s m e q - floorInt s m e * 2 ^ (-q).toNat) q false)

/-- a rounded to an integral value in a mode, the sign kept and no NX (R119). -/
def frnd (mode : Nat) (c : Nat) : Nat × Stat :=
  match Fmt.fp32.decode c with
  | .nan => (Fmt.fp32.nanCode, 0)
  | .inf _ => (c, 0)
  | .fin s m e =>
    if 0 ≤ e then (c, 0)
    else (Fmt.fp32.signBit s + Fmt.fp32.roundNE (.fin false (roundInt mode s m e).1.natAbs 0), 0)

end Sys2Proof.Machine
end

