-- ==== Sys2Proof/Syntax.lean ====
section
/-! DEFINITION. The syntax of the Kilug instruction set and of the part's events: `Src`, an 8-bit source
operand (R24), and `Instr`, one constructor per row of spec/opcode_table.json. A word's fields keep the
names of the table; the chain bit C (R19) belongs to the packet and is kept beside the instruction
(Decode.lean). Events (rows without an encoding) carry what the outside world or the timing decides. -/

namespace Sys2Proof

/-- An 8-bit source field (R24): kind 00 vector register, 01 scalar register, 10 constant dword, 11 inline literal. -/
inductive Src where
  | v (n : Nat)
  | s (n : Nat)
  | c (n : Nat)
  | lit (n : Nat)
  deriving DecidableEq, Repr

/-- The instructions and events of the part, one constructor per row of the opcode table. -/
inductive Instr where
  /-- NOP: Does nothing, uses no pipe and ends no block; the chain bit has no effect (R77) -/
  | nop
  /-- BRA: Each thread of the issue set branches where its predicate, inverted by NEG, is true, and otherwise goes on to the next packet (R78) -/
  | bra (p : Nat) (n : Bool) (e : Nat)
  /-- BRC: The whole issue set branches only when the condition is true in every thread of the issue set (R78) -/
  | brc (p : Nat) (n : Bool) (e : Nat)
  /-- CALL: Threads that take the branch write the return offset to v0 and branch (R78) -/
  | call (p : Nat) (n : Bool) (e : Nat)
  /-- RET: Each thread jumps to the code offset held in SA, after the misalignment check (R79) -/
  | ret (a : Src)
  /-- JMPX: Each thread jumps to the code offset SA + SB, after the misalignment check (R79) -/
  | jmpx (a : Src) (b : Src)
  /-- EXIT: The issue set ceases to be live, releasing claims and uncommitted records and ending the group when no live thread remains (R80) -/
  | exit
  /-- CONVERGE: Threads park until every live thread stands at this same CONVERGE word, then continue as one BBT entry (R81) -/
  | converge
  /-- YIELD: Threads go on to the next packet, and their entry is held back for 8 clocks (R84) -/
  | yield
  /-- SAFEPT: Reloads the safe-point budget, and stops the group for a pending pre-emption (R85) -/
  | safept
  /-- TRIGGER: Marks each thread as triggered, with a release of scope dev, toward the launch of dependant grids (R86) -/
  | trigger
  /-- TRAP: Raises cause 0x0F for the issue set, with the tag in the faulting-address field (R87) -/
  | trap (t : Nat)
  /-- VOTE_ANY: Collective: pD is set true when pS is true in some live thread (R88) -/
  | voteAny (d : Nat) (s : Nat)
  /-- VOTE_ALL: Collective: pD is set true when pS is true in every live thread (R88) -/
  | voteAll (d : Nat) (s : Nat)
  /-- VOTE_BALLOT: Collective: writes the bitmap of pS over the live lanes to a scalar pair (R88) -/
  | voteBallot (d : Nat) (s : Nat)
  /-- VOTE_EQ: Collective: pD is set true when pS is equal in every live thread (R88) -/
  | voteEq (d : Nat) (s : Nat)
  /-- SHFL_IDX: Collective: each lane reads vS from the lane that vZ indexes (R89) -/
  | shflIdx (d : Nat) (s : Nat) (z : Nat)
  /-- SHFL_UP: Collective: each lane reads vS from lane i − n (R89) -/
  | shflUp (d : Nat) (s : Nat) (n : Nat)
  /-- SHFL_DOWN: Collective: each lane reads vS from lane i + n (R89) -/
  | shflDown (d : Nat) (s : Nat) (n : Nat)
  /-- SHFL_XOR: Collective: each lane reads vS from lane i xor n (R89) -/
  | shflXor (d : Nat) (s : Nat) (n : Nat)
  /-- REDG: Collective: the fixed-tree reduction over the live lanes is written to a vector register (R90) -/
  | redg (d : Nat) (s : Nat) (o : Nat)
  /-- REDG_SCALAR: Collective: the fixed-tree reduction over the live lanes is written to a scalar register (R90) -/
  | redgScalar (d : Nat) (s : Nat) (o : Nat)
  /-- SCANG_INCL: Collective: each lane receives the inclusive prefix built from tree nodes (R90) -/
  | scangIncl (d : Nat) (s : Nat) (o : Nat)
  /-- SCANG_EXCL: Collective: each lane receives the exclusive prefix, or the identity (R90) -/
  | scangExcl (d : Nat) (s : Nat) (o : Nat)
  /-- BAR_G: Threads arrive and park until the group's arrivals equal its live threads (R82) -/
  | barG
  /-- BAR_T: Threads arrive and park until every live thread of the team has arrived (R82) -/
  | barT
  /-- CWIN: Selects the constant bank and the window index given as immediates (R92) -/
  | cwin (b : Nat) (h : Nat) (l : Nat)
  /-- CWIN_REG: Selects the constant bank and takes the window index from a scalar register (R92) -/
  | cwinReg (b : Nat) (s : Nat)
  /-- TASKEND: Commits the task's tentative stores as one release of scope dev, and ends the thread (R96) -/
  | taskend
  /-- SPAWN: Collective: queues one task per offering thread once the task queue has room (R94) -/
  | spawn (t : Nat) (y : Nat) (g : Nat)
  /-- RSV: Collective: reserves work-graph records in a node's Mire partition and gives each thread its address as a prefix sum (R98) -/
  | rsv (x : Nat) (y : Nat) (z : Nat)
  /-- RCOMMIT: Commits reserved records to their node as a release of scope dev (R99) -/
  | rcommit (x : Nat) (y : Nat)
  /-- RGET: Writes each lane's record address within its consumer batch (R100) -/
  | rget (x : Nat)
  /-- RGET_COUNT: Writes each lane's record address, and the batch count to vY (R100) -/
  | rgetCount (x : Nat) (y : Nat)
  /-- IADD: Integer add, wrapping, or with signed saturation under .sat (R106) -/
  | iadd (d : Nat) (a : Src) (b : Src) (m : Bool)
  /-- ISUB: Integer subtract, wrapping, or with signed saturation under .sat (R106) -/
  | isub (d : Nat) (a : Src) (b : Src) (m : Bool)
  /-- IMUL: Low 32 bits of the product (R106) -/
  | imul (d : Nat) (a : Src) (b : Src)
  /-- IMULH: High 32 bits of the 64-bit product, signed or unsigned (R106) -/
  | imulh (d : Nat) (a : Src) (b : Src) (m : Bool)
  /-- IMAD: Low 32 bits of a × b + d (R106) -/
  | imad (d : Nat) (a : Src) (b : Src)
  /-- IADD64: 64-bit add into an even register pair (R110) -/
  | iadd64 (d : Nat) (a : Src) (b : Src)
  /-- IMIN: The lesser of a and b, signed or unsigned (R106) -/
  | imin (d : Nat) (a : Src) (b : Src) (m : Bool)
  /-- IMAX: The greater of a and b, signed or unsigned (R106) -/
  | imax (d : Nat) (a : Src) (b : Src) (m : Bool)
  /-- IABS: Absolute value as signed (R106) -/
  | iabs (d : Nat) (a : Src)
  /-- SHL: Shift left, zero-filled (R108) -/
  | shl (d : Nat) (a : Src) (b : Src)
  /-- SHR: Logical shift right (R108) -/
  | shr (d : Nat) (a : Src) (b : Src)
  /-- SAR: Arithmetic shift right (R108) -/
  | sar (d : Nat) (a : Src) (b : Src)
  /-- ROT: Rotate left, or right with M = 1 (R108) -/
  | rot (d : Nat) (a : Src) (b : Src) (m : Bool)
  /-- AND: Bitwise and (R106) -/
  | iand (d : Nat) (a : Src) (b : Src)
  /-- OR: Bitwise or (R106) -/
  | ior (d : Nat) (a : Src) (b : Src)
  /-- XOR: Bitwise exclusive or (R106) -/
  | ixor (d : Nat) (a : Src) (b : Src)
  /-- NOT: Bitwise complement (R106) -/
  | inot (d : Nat) (a : Src)
  /-- BFE: Extracts a bit field, zero- or sign-extended (R109) -/
  | bfe (d : Nat) (a : Src) (b : Src) (m : Bool)
  /-- BFI: Inserts a bit field into d (R109) -/
  | bfi (d : Nat) (a : Src) (b : Src)
  /-- POPC: Counts the one bits (R106) -/
  | popc (d : Nat) (a : Src)
  /-- CLZ: Counts the leading zero bits (R106) -/
  | clz (d : Nat) (a : Src)
  /-- BREV: Reverses the bit order (R106) -/
  | brev (d : Nat) (a : Src)
  /-- LEA: 64-bit base plus the zero-extended 32-bit offset (R110) -/
  | lea (d : Nat) (a : Src) (b : Src)
  /-- ICMP: Integer compare into a predicate (R112) -/
  | icmp (p : Nat) (c : Nat) (a : Src) (b : Src) (m : Bool)
  /-- ISEL: Selects SA or vSB by a predicate; a literal is read as an integer (R113) -/
  | isel (d : Nat) (p : Nat) (a : Src) (b : Nat) (n : Bool)
  /-- IDOT4: Four-byte dot product accumulated into d (R111) -/
  | idot4 (d : Nat) (a : Src) (b : Src) (m : Bool)
  /-- PAND: Predicate and, with optional inversion of each source (R114) -/
  | pand (d : Nat) (a : Nat) (b : Nat) (i : Nat)
  /-- POR: Predicate or, with optional inversion of each source (R114) -/
  | por (d : Nat) (a : Nat) (b : Nat) (i : Nat)
  /-- PNOT: Predicate not (R114) -/
  | pnot (d : Nat) (a : Nat)
  /-- FADD: FP32 add, rounded once, optionally saturated (R115) -/
  | fadd (d : Nat) (a : Src) (b : Src) (m : Bool)
  /-- FSUB: FP32 subtract, rounded once, optionally saturated (R115) -/
  | fsub (d : Nat) (a : Src) (b : Src) (m : Bool)
  /-- FMUL: FP32 multiply, rounded once, optionally saturated (R115) -/
  | fmul (d : Nat) (a : Src) (b : Src) (m : Bool)
  /-- FMA: FP32 fused multiply-add, rounded once (R115) -/
  | fma (d : Nat) (a : Src) (b : Src) (m : Bool)
  /-- FMIN: The lesser FP32 operand; a NaN yields the other operand (R116) -/
  | fmin (d : Nat) (a : Src) (b : Src)
  /-- FMAX: The greater FP32 operand; a NaN yields the other operand (R116) -/
  | fmax (d : Nat) (a : Src) (b : Src)
  /-- FCMP: FP32 compare into a predicate (R112) -/
  | fcmp (p : Nat) (c : Nat) (a : Src) (b : Src)
  /-- FSEL: Selects SA or vSB by a predicate; a literal is read as a float (R113) -/
  | fsel (d : Nat) (p : Nat) (a : Src) (b : Nat) (n : Bool)
  /-- FRCP: Correctly rounded reciprocal, on the X pipe (R117) -/
  | frcp (d : Nat) (a : Src)
  /-- FRSQ: Correctly rounded reciprocal square root (R117) -/
  | frsq (d : Nat) (a : Src)
  /-- FSQRT: Correctly rounded square root (R117) -/
  | fsqrt (d : Nat) (a : Src)
  /-- FEXP2: Correctly rounded 2^a (R117) -/
  | fexp2 (d : Nat) (a : Src)
  /-- FLOG2: Correctly rounded log2 a (R117) -/
  | flog2 (d : Nat) (a : Src)
  /-- FSIN: Correctly rounded sine (R117) -/
  | fsin (d : Nat) (a : Src)
  /-- FCOS: Correctly rounded cosine (R117) -/
  | fcos (d : Nat) (a : Src)
  /-- FFRC: Fractional part a − floor(a) (R118) -/
  | ffrc (d : Nat) (a : Src)
  /-- FRND: Rounds to an integral FP32 value in the mode that SB holds (R119) -/
  | frnd (d : Nat) (a : Src) (r : Nat)
  /-- HADD2: Packed 16-bit float add (R120) -/
  | hadd2 (d : Nat) (a : Src) (b : Src) (m : Bool)
  /-- HMUL2: Packed 16-bit float multiply (R120) -/
  | hmul2 (d : Nat) (a : Src) (b : Src) (m : Bool)
  /-- HFMA2: Packed 16-bit float fused multiply-add (R120) -/
  | hfma2 (d : Nat) (a : Src) (b : Src) (m : Bool)
  /-- HMIN2: Packed 16-bit float minimum (R120) -/
  | hmin2 (d : Nat) (a : Src) (b : Src) (m : Bool)
  /-- HMAX2: Packed 16-bit float maximum (R120) -/
  | hmax2 (d : Nat) (a : Src) (b : Src) (m : Bool)
  /-- SADD: Scalar add, once per issue (R122) -/
  | sadd (d : Nat) (a : Src) (b : Src)
  /-- SSUB: Scalar subtract (R122) -/
  | ssub (d : Nat) (a : Src) (b : Src)
  /-- SMUL: Scalar multiply, low 32 bits (R122) -/
  | smul (d : Nat) (a : Src) (b : Src)
  /-- SAND: Scalar bitwise and (R122) -/
  | sand (d : Nat) (a : Src) (b : Src)
  /-- SOR: Scalar bitwise or (R122) -/
  | sor (d : Nat) (a : Src) (b : Src)
  /-- SXOR: Scalar bitwise exclusive or (R122) -/
  | sxor (d : Nat) (a : Src) (b : Src)
  /-- SSHL: Scalar shift left (R122) -/
  | sshl (d : Nat) (a : Src) (b : Src)
  /-- SSHR: Scalar shift right, logical or arithmetic (R122) -/
  | sshr (d : Nat) (a : Src) (b : Src) (m : Bool)
  /-- SCMP: Scalar compare, writing one result to pD in every thread of the issue set (R123) -/
  | scmp (p : Nat) (c : Nat) (a : Src) (b : Src) (m : Bool)
  /-- SMOV: Scalar move (R122) -/
  | smov (d : Nat) (a : Src)
  /-- SLI: Loads a sign-extended 17-bit immediate into any scalar register (R124) -/
  | sli (s : Nat) (i : Nat)
  /-- SBRA: The whole issue set branches when the scalar register is non-zero (R125) -/
  | sbra (s : Nat) (i : Nat)
  /-- CVT: Converts between float and integer types in the chosen rounding mode, optionally saturated (R129) -/
  | cvt (d : Nat) (s : Nat) (r : Nat) (t : Bool) (u : Nat) (v : Nat)
  /-- MOV: Moves SA to vD bit for bit (R126) -/
  | mov (d : Nat) (a : Src)
  /-- V2S: Copies vS of lane n to a scalar register (R127) -/
  | v2s (d : Nat) (s : Nat) (n : Nat)
  /-- S2V: Broadcasts a scalar register to vD (R127) -/
  | s2v (d : Nat) (s : Nat)
  /-- MOVS: Reads a special register into vD (R127) -/
  | movs (d : Nat) (n : Nat)
  /-- QPACK: Converts and packs n registers into one register of narrow codes (R131) -/
  | qpack (d : Nat) (s : Nat) (r : Nat) (t : Bool) (y : Nat)
  /-- QUNPK: Unpacks narrow codes into n registers, widening exactly (R131) -/
  | qunpk (d : Nat) (s : Nat) (y : Nat)
  /-- LD: Relaxed 32-bit load from a generic address (R136) -/
  | ld (t : Nat) (a : Nat) (s : Bool) (g : Nat) (o : Nat)
  /-- LD_B64: Relaxed 64-bit load (R136) -/
  | ldB64 (t : Nat) (a : Nat) (s : Bool) (g : Nat) (o : Nat)
  /-- LD_B128: Relaxed 128-bit load (R136) -/
  | ldB128 (t : Nat) (a : Nat) (s : Bool) (g : Nat) (o : Nat)
  /-- ST: Relaxed 32-bit store (R136) -/
  | st (t : Nat) (a : Nat) (s : Bool) (g : Nat) (o : Nat)
  /-- ST_B64: Relaxed 64-bit store (R136) -/
  | stB64 (t : Nat) (a : Nat) (s : Bool) (g : Nat) (o : Nat)
  /-- ST_B128: Relaxed 128-bit store (R136) -/
  | stB128 (t : Nat) (a : Nat) (s : Bool) (g : Nat) (o : Nat)
  /-- LD_ORDERED: 32-bit load, relaxed or acquire, at a scope (R137) -/
  | ldOrdered (t : Nat) (a : Nat) (s : Bool) (g : Nat) (r : Nat) (e : Nat)
  /-- ST_ORDERED: 32-bit store, relaxed or release at a scope; a release store is a notifying write (R137) -/
  | stOrdered (t : Nat) (a : Nat) (s : Bool) (g : Nat) (r : Nat) (e : Nat)
  /-- ATOM: Indivisible read-modify-write returning the old value (R138) -/
  | atom (t : Nat) (a : Nat) (s : Bool) (g : Nat) (r : Nat) (e : Nat) (o : Nat)
  /-- ATOM_FADD: Atomic FP32 add returning the old value (R138) -/
  | atomFadd (t : Nat) (a : Nat) (s : Bool) (g : Nat) (r : Nat) (e : Nat)
  /-- RED: Atomic reduction with no result (R138) -/
  | red (t : Nat) (a : Nat) (s : Bool) (g : Nat) (r : Nat) (e : Nat) (o : Nat)
  /-- LDS: Loads from the team's own team-local storage (R141) -/
  | lds (x : Nat) (y : Nat) (z : Nat) (s : Nat)
  /-- STS: Stores to the team's own team-local storage (R141) -/
  | sts (x : Nat) (y : Nat) (z : Nat) (s : Nat)
  /-- LDX: Loads through a stash address word, possibly another rank's storage (R141) -/
  | ldx (x : Nat) (y : Nat) (z : Nat) (s : Nat)
  /-- STX: Stores through a stash address word, possibly to another rank's storage (R141) -/
  | stx (x : Nat) (y : Nat) (z : Nat) (s : Nat)
  /-- STASH_MAP: Maps a linear or tensor stash window in a slot, unmapping the slot's previous window first (R142) -/
  | stashMap (x : Nat) (t : Bool) (n : Nat)
  /-- STASH_MAP_UNMAP: Unmaps a window slot, writing back its dirty sectors (R144) -/
  | stashMapUnmap (n : Nat)
  /-- STASH_FLUSH: Writes back every dirty sector of a window and keeps its lines present (R144) -/
  | stashFlush (n : Nat)
  /-- STASH_INV: Discards every line of a window (R144) -/
  | stashInv (n : Nat)
  /-- PREF: Prefetches a line to the named level, with no fault and no ordering (R145) -/
  | pref (x : Nat) (l : Nat)
  /-- LCOPY: Per-thread copy between memory and team-local storage on path C, completing on a counter or phase barrier (R148) -/
  | lcopy (x : Nat) (y : Nat) (z : Nat) (i : Bool) (b : Bool)
  /-- TCOPY: Copies a tensor box between memory and the stash or a tile, on path T (R149) -/
  | tcopy (x : Nat) (y : Nat) (h : Nat) (t : Bool) (i : Bool) (b : Bool)
  /-- CTR_ADD: Releases path L, then adds an amount to a 64-bit counter atomically as a notifying write (R153) -/
  | ctrAdd (x : Nat) (y : Nat) (e : Nat)
  /-- CTR_WAIT: Parks until the counter reaches the target, then acquires (R154) -/
  | ctrWait (x : Nat) (y : Nat) (e : Nat)
  /-- PB_INIT: Initialises a phase barrier (R156) -/
  | pbInit (x : Nat) (y : Nat)
  /-- PB_ARRIVE: Arrives once for each thread of the issue set and returns the phase token (R156) -/
  | pbArrive (x : Nat) (y : Nat)
  /-- PB_ARRIVE_N: Arrives n times and returns the phase token (R156) -/
  | pbArriveN (x : Nat) (y : Nat) (n : Nat)
  /-- PB_EXPECT: Raises the barrier's pending byte expectation (R156) -/
  | pbExpect (x : Nat) (y : Nat)
  /-- PB_WAIT: Parks while the barrier's phase equals the token (R156) -/
  | pbWait (x : Nat) (y : Nat) (d : Nat)
  /-- PB_INVAL: Invalidates a barrier and releases its waiters with false (R156) -/
  | pbInval (y : Nat)
  /-- WAITCMP: Reads a word and, if the condition fails, parks in the wake table until a notifying write satisfies it (R159) -/
  | waitcmp (x : Nat) (y : Nat) (e : Nat) (c : Nat)
  /-- WAKE: Releases path L, writes back the line and evaluates every waiter on it (R161) -/
  | wake (x : Nat) (e : Nat)
  /-- FENCE: Acquire, release or acq_rel fence on path L at a scope (R163) -/
  | fence (e : Nat) (r : Nat)
  /-- XFENCE: Acq_rel fence across the named access paths (R163) -/
  | xfence (e : Nat) (m : Nat)
  /-- TFENCE: Orders earlier path-L stores before later page walks (R163) -/
  | tfence (e : Nat)
  /-- TALLOC: Parks until the partition grants space, then writes a handle to a new filling tile (R167) -/
  | talloc (h : Nat) (y : Nat) (z : Nat)
  /-- TSEAL: Waits for pending fills, releases at scope clu and seals the tile (R168) -/
  | tseal (h : Nat)
  /-- TCLAIM: Takes one claim on a tile (R169) -/
  | tclaim (h : Nat)
  /-- TCLAIM_EACH: Takes one claim for each thread of the issue set (R169) -/
  | tclaimEach (h : Nat)
  /-- TREAD: Reads a sealed tile into registers and consumes the claims (R171) -/
  | tread (x : Nat) (f : Nat) (h : Nat) (z : Nat)
  /-- TREAD_STASH: Copies part of a tile to team-local storage and consumes the claims (R172) -/
  | treadStash (x : Nat) (h : Nat) (b : Bool)
  /-- TPEEK: Reads a sealed tile into registers without consuming claims (R171) -/
  | tpeek (x : Nat) (f : Nat) (h : Nat) (z : Nat)
  /-- TPEEK_STASH: Copies part of a tile to team-local storage without consuming claims (R172) -/
  | tpeekStash (x : Nat) (h : Nat) (b : Bool)
  /-- TDROP: Releases claims with a count-down each, without reading (R173) -/
  | tdrop (h : Nat)
  /-- TSTAT_INFO: Writes a tile's REMAIN, OUTST, state, partition and size (R175) -/
  | tstatInfo (x : Nat) (h : Nat)
  /-- TSTAT_ADDR: Writes a tile's generic base address (R174) -/
  | tstatAddr (x : Nat) (h : Nat)
  /-- TSTAT_GET: Copies a handle to a scalar pair (R174) -/
  | tstatGet (x : Nat) (h : Nat)
  /-- TSTAT_PUT: Releases a handle register's claims, then loads it from a scalar pair (R174) -/
  | tstatPut (h : Nat) (y : Nat)
  /-- TSTAT_PART: Reports grantable units, waiting groups and units in use of a partition (R322) -/
  | tstatPart (x : Nat) (p : Nat)
  /-- LINK: Parks until the pair grants the link reserve, then makes the group a linked tile (R179) -/
  | link (n : Nat) (i : Bool)
  /-- UNLINK: After queued steps complete, discards the accumulators, returns the grant and ends pairing (R182) -/
  | unlink
  /-- PAIR: Parks until the facing pair's tile issues the matching PAIR (R183) -/
  | pair (w : Bool)
  /-- TMMA: Queues one linked-grid step into an accumulator block (R189) -/
  | tmma (x : Nat) (y : Nat) (b : Bool) (a : Bool) (f : Nat)
  /-- TMMA_Q: Queues one step with block-scaled or zero-point operands (R189) -/
  | tmmaQ (x : Nat) (y : Nat) (b : Bool) (a : Bool) (f : Nat)
  /-- ACC_LD: Loads an accumulator block from a fragment (R198) -/
  | accLd (x : Nat) (y : Nat) (w : Bool)
  /-- ACC_MOV: Converts a block under the format record into a register fragment (R199) -/
  | accMov (x : Nat) (y : Nat) (f : Nat)
  /-- ACC_MOV_RAW: Moves a block as 40-bit pairs, with no conversion (R199) -/
  | accMovRaw (x : Nat) (y : Nat) (f : Nat)
  /-- ACC_MOV_TILE: Converts a block into a filling Kennel tile through path T (R199) -/
  | accMovTile (x : Nat) (y : Nat) (f : Nat)
  /-- ACC_ZERO: Zeroes a range of accumulator blocks (R197) -/
  | accZero (x : Nat) (y : Nat)
  /-- FMTSET: Sets one field of a format record from a scalar register (R187) -/
  | fmtset (x : Nat) (y : Nat) (f : Nat)
  /-- FMTSET_GET: Reads one field of a format record into a scalar register (R187) -/
  | fmtsetGet (x : Nat) (y : Nat) (f : Nat)
  /-- FMTSET_LD: Loads a 128-byte record image from memory (R187) -/
  | fmtsetLd (x : Nat) (f : Nat)
  /-- FMTSET_ST: Stores a record image to memory (R187) -/
  | fmtsetSt (x : Nat) (f : Nat)
  /-- SCALE_OBS: Records the blocks' amax in the record's history (R200) -/
  | scaleObs (x : Nat) (y : Nat) (f : Nat)
  /-- SCALE_NEXT: Sets SEXP from the amax history (R201) -/
  | scaleNext (f : Nat)
  /-- LEASH_TAKE: Parks until the group owns its pair's leash (R202) -/
  | leashTake
  /-- LEASH_PASS: Hands the leash to the oldest waiter, or frees it (R202) -/
  | leashPass
  /-- BURST: Begins ramp-up and sets the BURST count (R204) -/
  | burst (n : Nat)
  /-- RBOX: Queues a ray–box pass on the grid (R205) -/
  | rbox (x : Nat) (y : Nat) (z : Nat)
  /-- TEX_SMP: Samples a filtered texel, falling back to a resident level (R209) -/
  | texSmp (x : Nat) (y : Nat) (z : Nat)
  /-- TEX_LOAD: Loads one texel, unfiltered (R209) -/
  | texLoad (x : Nat) (y : Nat) (z : Nat)
  /-- TEX_GATHER: Gathers one component of the four footprint texels (R209) -/
  | texGather (x : Nat) (y : Nat) (z : Nat)
  /-- COVER: Rasterises a triangle into a 64-bit pixel mask with the tie rule (R213) -/
  | cover (x : Nat) (y : Nat) (w : Nat)
  /-- RTST: Stores pixels into a tile and re-encodes it under the smallest mode (R215) -/
  | rtst (x : Nat) (y : Nat) (z : Nat)
  /-- RTCLR: Sets the mode byte of a range of tiles to clear (R216) -/
  | rtclr (z : Nat)
  /-- RTDC: Decompresses a range of tiles into plain pixels (R430) -/
  | rtdc (z : Nat)
  /-- CSRR: Reads a CSR into a scalar register (R219) -/
  | csrr (n : Nat) (s : Nat)
  /-- CSRW: Writes a scalar register to a CSR (R219) -/
  | csrw (n : Nat) (s : Nat)
  /-- ERET: Returns from the active trap level, restoring registers and the BBT and re-queuing recorded steps (R374) -/
  | eret
  /-- TLBI: Invalidates device-wide translations of the given kind and waits for completion (R222) -/
  | tlbi (x : Nat) (t : Nat)
  /-- SNAP: Fires the common snapshot trigger with a tag, when permitted (R223) -/
  | snap (t : Nat)
  /-- SLEEP: Parks the issue set until a timeout, a launch or wake, or a change of power state (R224) -/
  | sleep (s : Nat)
  /-- LIT: Literal word that supplies a payload to the next slot and does not issue (R225) -/
  | lit (p : Nat)
  /-- ILLEGAL_ENCODING: A word whose OP, sub-code or fixed fields match no assigned encoding fails the packet check with cause 0x01 (R37) -/
  | illegalEncoding (i : Nat)
  /-- YIELD_HOLD_EXPIRY: The 8-clock hold on a yielded entry ends (R84) -/
  | yieldHoldExpiry (g : Nat)
  /-- TILE_AUTO_SEAL: Seals a team's filling tiles once its last group has ended and its copies are complete (R324) -/
  | tileAutoSeal (t : Nat)
  /-- TEAM_END_RELEASE: Frees the context and team-local storage of an ended group or team once its copies complete (R80) -/
  | teamEndRelease (t : Nat)
  /-- TASK_REQUEUE: Requeues an aborted task once the page is resident (R95) -/
  | taskRequeue (k : Nat)
  /-- LAUNCH: Reads and checks an LPB and its tables, and queues the grid in its class, or refuses it (R253) -/
  | launch
  /-- TEAM_PLACEMENT: Places the next team of the head grid on an admitting core (R255) -/
  | teamPlacement (cls : Nat)
  /-- TASK_GROUP_FORM: The task gatherer forms a task group when a core can admit it (R258) -/
  | taskGroupForm (r : Nat)
  /-- BATCH_TIMEOUT: A node's oldest committed record reaches its timeout, and its batch becomes ready (R259) -/
  | batchTimeout (r : Nat) (n : Nat)
  /-- BATCH_LAUNCH: Launches a ready batch as a consumer team (R259) -/
  | batchLaunch (r : Nat) (n : Nat)
  /-- DEPENDANT_LAUNCH: Launches a dependant whose trigger count reaches its DEPWAIT (R254) -/
  | dependantLaunch
  /-- GRID_RETIRE: Makes every write of the grid visible at scope sys and adds 1 to DONE (R254) -/
  | gridRetire (r : Nat)
  /-- EVICTION: Saves a team whose live threads have all waited for the eviction threshold (R264) -/
  | eviction (t : Nat)
  /-- RELAUNCH: Queues an evicted team for relaunch at the first event that can end one of its waits (R265) -/
  | relaunch (t : Nat)
  /-- PREEMPT_REQUEST: The scheduler requests pre-emption of teams to make room for a class D team (R266) -/
  | preemptRequest
  /-- FORCED_SAFE_POINT: Stops a running group when SAFECNT reaches 0 or 10 µs pass after the request (R266) -/
  | forcedSafePoint (g : Nat)
  /-- COPY_CANCEL: Cancels copies still pending after the 20 µs wait at a forced safe point (R266) -/
  | copyCancel (g : Nat)
  /-- TEAM_SAVE: Saves a stopped team's contexts and storage (R267) -/
  | teamSave (t : Nat)
  /-- TEAM_RESTORE: Places a saved team and restores its storage, registers, GCBs and tiles (R379) -/
  | teamRestore (t : Nat)
  /-- KENNEL_DETECTOR_FIRE: After 4096 clocks of deadlock, the youngest waiter receives cause 0x0A (R332) -/
  | kennelDetectorFire (mire : Bool) (c : Nat) (p : Nat) (r : Nat)
  /-- TALLOC_GRANT: Grants the head of a Kennel grant queue (R321) -/
  | tallocGrant (g : Nat)
  /-- RSV_GRANT: Grants a waiting reservation its records all at once (R98) -/
  | rsvGrant (g : Nat)
  /-- SPAWN_GRANT: A parked SPAWN queues its tasks once the queue has room (R94) -/
  | spawnGrant (g : Nat)
  /-- LINK_GRANT: Grants the pair's reserve to the head LINK waiter in FIFO order (R180) -/
  | linkGrant (c : Nat) (p : Nat)
  /-- PAIR_MATCH: The leader matches pairing requests and fixes the start clock (R346) -/
  | pairMatch (c : Nat) (p : Nat)
  /-- STEP_START: A queued step takes its port clock once its operands have arrived (R341) -/
  | stepStart (c : Nat) (p : Nat)
  /-- STEP_COMMIT: A step's working copy commits to its block in its last clock (R191) -/
  | stepCommit (c : Nat) (p : Nat)
  /-- STEP_FAULT: A held fetch fault is raised when its step heads the queue (R194) -/
  | stepFault (g : Nat)
  /-- RBOX_PASS_COMPLETE: The PEs write tnear and tfar at Q + 7 (R353) -/
  | rboxPassComplete (c : Nat) (p : Nat)
  /-- RAMP_UP_END: 32 ramp-up clocks end and the grid becomes WARM (R352) -/
  | rampUpEnd (c : Nat) (p : Nat)
  /-- RAMP_DOWN_START: 64 idle clocks with a BURST count of 0 start ramp-down (R352) -/
  | rampDownStart (c : Nat) (p : Nat)
  /-- BURST_EXPIRY: 512 idle clocks clear the BURST count and start ramp-down (R352) -/
  | burstExpiry (c : Nat) (p : Nat)
  /-- RAMP_DOWN_END: 16 ramp-down clocks end, and the grid becomes COLD or UP (R352) -/
  | rampDownEnd (c : Nat) (p : Nat)
  /-- SLEEP_TIMEOUT: A SLEEP's time elapses and the group resumes (R224) -/
  | sleepTimeout (g : Nat) (k : Nat)
  /-- USER_INTERRUPT_DELIVERY: Delivers a pending user interrupt at a word or step boundary (R378) -/
  | userInterruptDelivery (g : Nat)
  /-- COPY_ERROR_DELIVERY: Raises cause 0x13 at the group's next instruction boundary after a copy fails (R152) -/
  | copyErrorDelivery (g : Nat)
  /-- COPY_CHUNK_COUNTED: A copy chunk is written and updates its completion object (R150) -/
  | copyChunkCounted (c : Nat) (k : Nat)
  /-- STASH_LINE_FILL: A window line's fill arrives, and parked touchers proceed (R277) -/
  | stashLineFill (t : Nat) (n : Nat) (l : Nat)
  /-- OWNERSHIP_REGISTRATION: A registration reaches the home L2 slice and becomes the word's owner (R281) -/
  | ownershipRegistration (c : Nat) (w : Nat)
  /-- RECALL: The displaced owner clears the word and acknowledges (R281) -/
  | recall (c : Nat) (w : Nat)
  /-- FORWARDED_READ: A read miss forwarded to the owner core is answered (R281) -/
  | forwardedRead (c : Nat) (w : Nat)
  /-- READ_MISS: The slice answers or forwards a sector read miss (R281) -/
  | readMiss (c : Nat) (x : Nat)
  /-- SECTOR_WRITE_BACK: A write-back updates the slice's copy if the writer owns the word (R281) -/
  | sectorWriteBack (c : Nat) (x : Nat)
  /-- L1_EVICTION: The L1 writes back a line and releases its owned words (R281) -/
  | l1Eviction (c : Nat) (l : Nat)
  /-- HOST_READ: A host or path-H read is answered at the SLC (R284) -/
  | hostRead (a : Nat) (n : Nat)
  /-- HOST_WRITE: A host or path-H write recalls, invalidates and applies at the SLC (R284) -/
  | hostWrite (a : Nat) (d : List (BitVec 8))
  /-- NOTIFY_EVALUATE: A notifying write, once visible, re-evaluates the waiters on its line (R160) -/
  | notifyEvaluate (l : Nat)
  /-- WAITCMP_POLL: A waiter with no wake-table entry rereads its word every 2 µs (R162) -/
  | waitcmpPoll (g : Nat) (k : Nat)
  /-- PRQ_HEAD_POLL: Rereads HEAD every 2 µs while the page-request ring is full (R393) -/
  | prqHeadPoll (k : Nat)
  /-- PAGE_REQUEST_RESOLVED: A STATUS write wakes the waiter, which walks again (R394) -/
  | pageRequestResolved (k : Nat)
  /-- PEAT_FILL_START: The streaming engine starts a queued page fill (R397) -/
  | peatFillStart
  /-- PEAT_FILL_COMPLETE: Stored blocks arrive and are decoded, written and marked resident, or the page fails (R397) -/
  | peatFillComplete (k : Nat) (ok : Bool) (d : List (BitVec 8))
  /-- DOORBELL_WRITE: A write to a notify page sets the interface's TAIL, or is discarded (R431) -/
  | doorbellWrite (o : Nat) (n : Nat) (v : Nat)
  /-- PACKET_READ: The front end reads and checks a request packet, then launches or refuses it (R434) -/
  | packetRead
  /-- DRES_WRITE: Sets the deadline reservation, or refuses the write (R260) -/
  | dresWrite (v : Nat)
  /-- REGISTER_WRITE: A write to a device register with no behaviour of its own (R442) -/
  | registerWrite (o : Nat) (n : Nat) (v : Nat)
  /-- WARM_RESTART: A RESTART write stops non-persistent work and tears down non-persistent contexts (R453) -/
  | warmRestart
  /-- HOT_RESET: A hot reset of the function over the link begins a warm restart (R453) -/
  | hotReset
  /-- KCFG: Writes a context's Kennel configuration (R318) -/
  | kcfg
  /-- MCFG: Writes a context's Mire configuration (R334) -/
  | mcfg
  /-- QOPEN: Opens a queue interface, binding its context and descriptor (R446) -/
  | qopen
  /-- QCLOSE: Stops packet reads on an interface (R446) -/
  | qclose
  /-- REVOKE: Revokes a PASID and ends its work and waits (R451) -/
  | revoke
  /-- INVAL: Acts as TLBI of the given kind (R446) -/
  | inval
  /-- UIPOST: Posts a user interrupt to a group, team or grid (R378) -/
  | uipost
  /-- PREEMPT: Requests pre-emption of every class I or B team of a context (R266) -/
  | preempt
  /-- TEARDOWN: Ends a context's grids, frees its tiles with leak records and unbinds it (R446) -/
  | teardown
  /-- IOGRANT: Gives the streaming engine its NVM Express I/O queue pair (R446) -/
  | iogrant
  /-- UNKNOWN_COMMAND: A CMD write with an unknown opcode is refused with code 0x01 (R446) -/
  | unknownCommand (o : Nat)
  /-- CMDST_READ: Returns the command status and clears LOST (R445) -/
  | cmdstRead
  /-- HOST_WAIT_POST: A wait-port write reads a wait record and wakes, installs or refuses the host wait (R449) -/
  | hostWaitPost (v : Nat)
  /-- CARVE: Enables a protected carve-out after recalling and invalidating its lines (R457) -/
  | carve
  /-- UNCARVE: Zeroes and disables a carve-out (R458) -/
  | uncarve
  /-- CONFKEY: Unwraps and installs a confidential context's key (R459) -/
  | confkey
  /-- COPYIN: Decrypts a bounce buffer into the context's carve-outs (R460) -/
  | copyin
  /-- COPYOUT: Encrypts from the carve-outs into a bounce buffer (R460) -/
  | copyout
  /-- ATTEST: Writes a signed quote and the identity certificate (R462) -/
  | attest
  /-- UNKNOWN_SERVICE_REQUEST: A request with an unknown opcode is refused with code 0x01 (R455) -/
  | unknownServiceRequest
  /-- FATAL_FAULT: The Collie freezes, walks and rebuilds the device's control state from the CCBs (R467) -/
  | fatalFault
  /-- LOCKSTEP_MISMATCH: A Collie lockstep miscompare stops the part with RSTAT failed (R464) -/
  | lockstepMismatch
  /-- PWR_TARGET_RUN: A PWRCTL write of Run begins the transition to Run (R471) -/
  | pwrTargetRun (v : Nat)
  /-- PWR_TARGET_LISTEN: A PWRCTL write of Listen saves teams and powers down to the listen core (R471) -/
  | pwrTargetListen (v : Nat)
  /-- PWR_TARGET_RETAIN: A PWRCTL write of Retain powers down to self-refresh (R471) -/
  | pwrTargetRetain (v : Nat)
  /-- PWR_ENVELOPE: A PWRCTL write that changes only ENVW sets the power envelope (R469) -/
  | pwrEnvelope (v : Nat)
  /-- POWER_TRANSITION_DONE: A power-state transition ends and BUSY clears (R471) -/
  | powerTransitionDone
  /-- LISTEN_WAKE: A notifying write that leaves the PWAKE word non-zero returns the part to Run (R471) -/
  | listenWake
  /-- CHANNEL_SELF_REFRESH: In Listen, a channel returns to self-refresh after 100 µs without access (R470) -/
  | channelSelfRefresh (c : Nat)
  /-- THERMAL_THROTTLE: A junction at 105 °C lowers the clocks (R470) -/
  | thermalThrottle
  /-- THERMAL_SHUTDOWN: A junction at 115 °C puts the part in Off (R470) -/
  | thermalShutdown
  /-- CORE_CLOCK_STOP: An idle core stops its clocks after 64 idle clocks (R472) -/
  | coreClockStop (c : Nat)
  /-- CORE_CLOCK_RESTART: A stopped core restarts on an event that can release a group (R472) -/
  | coreClockRestart (c : Nat)
  /-- COLD_RESET: Runs the bring-up steps and sets READY (R473) -/
  | coldReset
  /-- SNAPTRIG_WRITE: A SNAPTRIG write fires the common snapshot trigger (R474) -/
  | snaptrigWrite (v : Nat)
  /-- SNAPIN_PIN: SNAPIN going low fires the trigger when PINEN is 1 (R474) -/
  | snapinPin
  /-- SNAPST_WRITE: A SNAPST write with bit 0 set clears HELD (R475) -/
  | snapstWrite (v : Nat)
  /-- SDOOR_WRITE_DISCARD: A SDOOR write while busy is discarded (R454) -/
  | sdoorWriteDiscard
  /-- KENNEL_REMOTE_OPERATION: A Kennel operation from another core arrives at the tile's controller and is applied there in its arrival clock under R176 (R327) -/
  | kennelRemoteOperation (k : Nat)
  /-- REMOTE_STASH_ACCESS: An LDX or STX naming another rank arrives over the mesh and is performed at the target team's storage (R287) -/
  | remoteStashAccess (k : Nat)
  /-- COMMAND_COMPLETION: A running command finishes its effect everywhere and CMDST goes from busy to done (R445) -/
  | commandCompletion
  /-- SERVICE_REQUEST_COMPLETION: A security-engine request finishes and SSTAT goes from busy to done or refused (R454) -/
  | serviceRequestCompletion
  /-- WARM_RESTART_END: The warm restart's last step completes and STATUS.RESTART clears, within 20 µs of the start (R453) -/
  | warmRestartEnd
  /-- RECOVERY_END: The Collie finishes rebuilding and RSTAT returns to 00, and waiting service requests proceed (R467) -/
  | recoveryEnd
  /-- CLASS_D_BUDGET_EXHAUSTED: A class D grid has used its BUDGET of core time and drops behind every other class D grid (R261) -/
  | classDBudgetExhausted (r : Nat)
  deriving DecidableEq, Repr

/-- Whether the row has an encoding, so that it can stand in a packet (an event has none). -/
def Instr.isWord : Instr → Bool
  | .nop => true
  | .bra .. => true
  | .brc .. => true
  | .call .. => true
  | .ret .. => true
  | .jmpx .. => true
  | .exit => true
  | .converge => true
  | .yield => true
  | .safept => true
  | .trigger => true
  | .trap .. => true
  | .voteAny .. => true
  | .voteAll .. => true
  | .voteBallot .. => true
  | .voteEq .. => true
  | .shflIdx .. => true
  | .shflUp .. => true
  | .shflDown .. => true
  | .shflXor .. => true
  | .redg .. => true
  | .redgScalar .. => true
  | .scangIncl .. => true
  | .scangExcl .. => true
  | .barG => true
  | .barT => true
  | .cwin .. => true
  | .cwinReg .. => true
  | .taskend => true
  | .spawn .. => true
  | .rsv .. => true
  | .rcommit .. => true
  | .rget .. => true
  | .rgetCount .. => true
  | .iadd .. => true
  | .isub .. => true
  | .imul .. => true
  | .imulh .. => true
  | .imad .. => true
  | .iadd64 .. => true
  | .imin .. => true
  | .imax .. => true
  | .iabs .. => true
  | .shl .. => true
  | .shr .. => true
  | .sar .. => true
  | .rot .. => true
  | .iand .. => true
  | .ior .. => true
  | .ixor .. => true
  | .inot .. => true
  | .bfe .. => true
  | .bfi .. => true
  | .popc .. => true
  | .clz .. => true
  | .brev .. => true
  | .lea .. => true
  | .icmp .. => true
  | .isel .. => true
  | .idot4 .. => true
  | .pand .. => true
  | .por .. => true
  | .pnot .. => true
  | .fadd .. => true
  | .fsub .. => true
  | .fmul .. => true
  | .fma .. => true
  | .fmin .. => true
  | .fmax .. => true
  | .fcmp .. => true
  | .fsel .. => true
  | .frcp .. => true
  | .frsq .. => true
  | .fsqrt .. => true
  | .fexp2 .. => true
  | .flog2 .. => true
  | .fsin .. => true
  | .fcos .. => true
  | .ffrc .. => true
  | .frnd .. => true
  | .hadd2 .. => true
  | .hmul2 .. => true
  | .hfma2 .. => true
  | .hmin2 .. => true
  | .hmax2 .. => true
  | .sadd .. => true
  | .ssub .. => true
  | .smul .. => true
  | .sand .. => true
  | .sor .. => true
  | .sxor .. => true
  | .sshl .. => true
  | .sshr .. => true
  | .scmp .. => true
  | .smov .. => true
  | .sli .. => true
  | .sbra .. => true
  | .cvt .. => true
  | .mov .. => true
  | .v2s .. => true
  | .s2v .. => true
  | .movs .. => true
  | .qpack .. => true
  | .qunpk .. => true
  | .ld .. => true
  | .ldB64 .. => true
  | .ldB128 .. => true
  | .st .. => true
  | .stB64 .. => true
  | .stB128 .. => true
  | .ldOrdered .. => true
  | .stOrdered .. => true
  | .atom .. => true
  | .atomFadd .. => true
  | .red .. => true
  | .lds .. => true
  | .sts .. => true
  | .ldx .. => true
  | .stx .. => true
  | .stashMap .. => true
  | .stashMapUnmap .. => true
  | .stashFlush .. => true
  | .stashInv .. => true
  | .pref .. => true
  | .lcopy .. => true
  | .tcopy .. => true
  | .ctrAdd .. => true
  | .ctrWait .. => true
  | .pbInit .. => true
  | .pbArrive .. => true
  | .pbArriveN .. => true
  | .pbExpect .. => true
  | .pbWait .. => true
  | .pbInval .. => true
  | .waitcmp .. => true
  | .wake .. => true
  | .fence .. => true
  | .xfence .. => true
  | .tfence .. => true
  | .talloc .. => true
  | .tseal .. => true
  | .tclaim .. => true
  | .tclaimEach .. => true
  | .tread .. => true
  | .treadStash .. => true
  | .tpeek .. => true
  | .tpeekStash .. => true
  | .tdrop .. => true
  | .tstatInfo .. => true
  | .tstatAddr .. => true
  | .tstatGet .. => true
  | .tstatPut .. => true
  | .tstatPart .. => true
  | .link .. => true
  | .unlink => true
  | .pair .. => true
  | .tmma .. => true
  | .tmmaQ .. => true
  | .accLd .. => true
  | .accMov .. => true
  | .accMovRaw .. => true
  | .accMovTile .. => true
  | .accZero .. => true
  | .fmtset .. => true
  | .fmtsetGet .. => true
  | .fmtsetLd .. => true
  | .fmtsetSt .. => true
  | .scaleObs .. => true
  | .scaleNext .. => true
  | .leashTake => true
  | .leashPass => true
  | .burst .. => true
  | .rbox .. => true
  | .texSmp .. => true
  | .texLoad .. => true
  | .texGather .. => true
  | .cover .. => true
  | .rtst .. => true
  | .rtclr .. => true
  | .rtdc .. => true
  | .csrr .. => true
  | .csrw .. => true
  | .eret => true
  | .tlbi .. => true
  | .snap .. => true
  | .sleep .. => true
  | .lit .. => true
  | .illegalEncoding .. => false
  | .yieldHoldExpiry .. => false
  | .tileAutoSeal .. => false
  | .teamEndRelease .. => false
  | .taskRequeue .. => false
  | .launch => false
  | .teamPlacement .. => false
  | .taskGroupForm .. => false
  | .batchTimeout .. => false
  | .batchLaunch .. => false
  | .dependantLaunch => false
  | .gridRetire .. => false
  | .eviction .. => false
  | .relaunch .. => false
  | .preemptRequest => false
  | .forcedSafePoint .. => false
  | .copyCancel .. => false
  | .teamSave .. => false
  | .teamRestore .. => false
  | .kennelDetectorFire .. => false
  | .tallocGrant .. => false
  | .rsvGrant .. => false
  | .spawnGrant .. => false
  | .linkGrant .. => false
  | .pairMatch .. => false
  | .stepStart .. => false
  | .stepCommit .. => false
  | .stepFault .. => false
  | .rboxPassComplete .. => false
  | .rampUpEnd .. => false
  | .rampDownStart .. => false
  | .burstExpiry .. => false
  | .rampDownEnd .. => false
  | .sleepTimeout .. => false
  | .userInterruptDelivery .. => false
  | .copyErrorDelivery .. => false
  | .copyChunkCounted .. => false
  | .stashLineFill .. => false
  | .ownershipRegistration .. => false
  | .recall .. => false
  | .forwardedRead .. => false
  | .readMiss .. => false
  | .sectorWriteBack .. => false
  | .l1Eviction .. => false
  | .hostRead .. => false
  | .hostWrite .. => false
  | .notifyEvaluate .. => false
  | .waitcmpPoll .. => false
  | .prqHeadPoll .. => false
  | .pageRequestResolved .. => false
  | .peatFillStart => false
  | .peatFillComplete .. => false
  | .doorbellWrite .. => false
  | .packetRead => false
  | .dresWrite .. => false
  | .registerWrite .. => false
  | .warmRestart => false
  | .hotReset => false
  | .kcfg => false
  | .mcfg => false
  | .qopen => false
  | .qclose => false
  | .revoke => false
  | .inval => false
  | .uipost => false
  | .preempt => false
  | .teardown => false
  | .iogrant => false
  | .unknownCommand .. => false
  | .cmdstRead => false
  | .hostWaitPost .. => false
  | .carve => false
  | .uncarve => false
  | .confkey => false
  | .copyin => false
  | .copyout => false
  | .attest => false
  | .unknownServiceRequest => false
  | .fatalFault => false
  | .lockstepMismatch => false
  | .pwrTargetRun .. => false
  | .pwrTargetListen .. => false
  | .pwrTargetRetain .. => false
  | .pwrEnvelope .. => false
  | .powerTransitionDone => false
  | .listenWake => false
  | .channelSelfRefresh .. => false
  | .thermalThrottle => false
  | .thermalShutdown => false
  | .coreClockStop .. => false
  | .coreClockRestart .. => false
  | .coldReset => false
  | .snaptrigWrite .. => false
  | .snapinPin => false
  | .snapstWrite .. => false
  | .sdoorWriteDiscard => false
  | .kennelRemoteOperation .. => false
  | .remoteStashAccess .. => false
  | .commandCompletion => false
  | .serviceRequestCompletion => false
  | .warmRestartEnd => false
  | .recoveryEnd => false
  | .classDBudgetExhausted .. => false

end Sys2Proof
end

