-- ==== Sys2Proof/WellFormed.lean ====
section
/-! DEFINITION. Which instructions are words of the part: every field within its width (`fieldsOk`), and
the rules of R28, R32 to R36 and of the entries that the word alone decides (`legal`): reserved codes,
odd pair numbers, kinds an entry refuses. What depends on the group (declared registers, the width, the
mode, NTASK, the tile) is checked by the packet check in Machine/Ops. -/

namespace Sys2Proof

/-- The 6-bit number of a source operand is within its field (R24). -/
def Src.ok : Src → Bool
  | .v n => n < 64
  | .s n => n < 64
  | .c n => n < 64
  | .lit n => n < 64

def even (n : Nat) : Bool := n % 2 == 0

/-- The operand is of kind 00, 01 or 10 (R79). -/
def Src.notLit : Src → Bool
  | .lit _ => false
  | _ => true

/-- The operand is of kind 01, 10 or 11 (R121). -/
def Src.notVector : Src → Bool
  | .v _ => false
  | _ => true

/-- A 64-bit source: an even number, or a literal (R28). -/
def Src.pairOk : Src → Bool
  | .lit _ => true
  | .v n => even n
  | .s n => even n
  | .c n => even n

/-- A block of scalar registers sX to sX+7: X a multiple of 4 from 0 to 56 (R142, R149, R171, R189). -/
def blockOk (x : Nat) : Bool := x % 4 == 0 && x ≤ 56

/-- Elements per 32-bit word of a QPACK type (R130). -/
def packCount (y : Nat) : Nat := if y < 2 then 2 else if y = 4 ∨ y = 6 then 8 else 4

/-- The data register of a stash access of size code s (R141). -/
def stashDataOk (x s : Nat) : Bool := if s = 3 then even x else if s = 4 then x % 4 == 0 else true

/-- The data register of a Kennel read of form f (R171). -/
def wideOk (x f : Nat) : Bool := if f = 1 then even x else if f = 2 then x % 4 == 0 else true

/-- A field code of R187, with an even register for a pair field. -/
def fieldOk (x y : Nat) : Bool := (y < 19 || y == 31) && (!(y == 12 || y == 13) || even x)

/-- One bits among the low k bits. -/
def maskCount (m : Nat) : Nat → Nat
  | 0 => 0
  | k + 1 => maskCount m k + m / 2 ^ k % 2

/-- The CSR numbers of R220. -/
def csrReadable (n : Nat) : Bool := n < 6 || (0x100 ≤ n && n ≤ 0x105) || n == 0x110 || n == 0x111

/-- The CSRs that CSRW may name: not the read-only ones (R219, R220). -/
def csrWritable (n : Nat) : Bool := n < 3 || (0x100 ≤ n && n ≤ 0x103) || n == 0x110 || n == 0x111

/-- Every field of the instruction is within its width. -/
def Instr.fieldsOk : Instr → Bool

  | .nop => true
  | .bra p _ e => p < 8 && e < 1048576
  | .brc p _ e => p < 8 && e < 1048576
  | .call p _ e => p < 8 && e < 1048576
  | .ret a => a.ok
  | .jmpx a b => a.ok && b.ok
  | .exit => true
  | .converge => true
  | .yield => true
  | .safept => true
  | .trigger => true
  | .trap t => t < 4096
  | .voteAny d s => d < 8 && s < 8
  | .voteAll d s => d < 8 && s < 8
  | .voteBallot d s => d < 64 && s < 8
  | .voteEq d s => d < 8 && s < 8
  | .shflIdx d s z => d < 64 && s < 64 && z < 64
  | .shflUp d s n => d < 64 && s < 64 && n < 64
  | .shflDown d s n => d < 64 && s < 64 && n < 64
  | .shflXor d s n => d < 64 && s < 64 && n < 64
  | .redg d s o => d < 64 && s < 64 && o < 16
  | .redgScalar d s o => d < 64 && s < 64 && o < 16
  | .scangIncl d s o => d < 64 && s < 64 && o < 16
  | .scangExcl d s o => d < 64 && s < 64 && o < 16
  | .barG => true
  | .barT => true
  | .cwin b h l => b < 16 && h < 64 && l < 4
  | .cwinReg b s => b < 16 && s < 64
  | .taskend => true
  | .spawn t y g => t < 64 && y < 64 && g < 8
  | .rsv x y z => x < 64 && y < 64 && z < 64
  | .rcommit x y => x < 64 && y < 64
  | .rget x => x < 64
  | .rgetCount x y => x < 64 && y < 64
  | .iadd d a b _ => d < 64 && a.ok && b.ok
  | .isub d a b _ => d < 64 && a.ok && b.ok
  | .imul d a b => d < 64 && a.ok && b.ok
  | .imulh d a b _ => d < 64 && a.ok && b.ok
  | .imad d a b => d < 64 && a.ok && b.ok
  | .iadd64 d a b => d < 64 && a.ok && b.ok
  | .imin d a b _ => d < 64 && a.ok && b.ok
  | .imax d a b _ => d < 64 && a.ok && b.ok
  | .iabs d a => d < 64 && a.ok
  | .shl d a b => d < 64 && a.ok && b.ok
  | .shr d a b => d < 64 && a.ok && b.ok
  | .sar d a b => d < 64 && a.ok && b.ok
  | .rot d a b _ => d < 64 && a.ok && b.ok
  | .iand d a b => d < 64 && a.ok && b.ok
  | .ior d a b => d < 64 && a.ok && b.ok
  | .ixor d a b => d < 64 && a.ok && b.ok
  | .inot d a => d < 64 && a.ok
  | .bfe d a b _ => d < 64 && a.ok && b.ok
  | .bfi d a b => d < 64 && a.ok && b.ok
  | .popc d a => d < 64 && a.ok
  | .clz d a => d < 64 && a.ok
  | .brev d a => d < 64 && a.ok
  | .lea d a b => d < 64 && a.ok && b.ok
  | .icmp p c a b _ => p < 8 && c < 8 && a.ok && b.ok
  | .isel d p a b _ => d < 64 && p < 8 && a.ok && b < 64
  | .idot4 d a b _ => d < 64 && a.ok && b.ok
  | .pand d a b i => d < 8 && a < 8 && b < 8 && i < 4
  | .por d a b i => d < 8 && a < 8 && b < 8 && i < 4
  | .pnot d a => d < 8 && a < 8
  | .fadd d a b _ => d < 64 && a.ok && b.ok
  | .fsub d a b _ => d < 64 && a.ok && b.ok
  | .fmul d a b _ => d < 64 && a.ok && b.ok
  | .fma d a b _ => d < 64 && a.ok && b.ok
  | .fmin d a b => d < 64 && a.ok && b.ok
  | .fmax d a b => d < 64 && a.ok && b.ok
  | .fcmp p c a b => p < 8 && c < 8 && a.ok && b.ok
  | .fsel d p a b _ => d < 64 && p < 8 && a.ok && b < 64
  | .frcp d a => d < 64 && a.ok
  | .frsq d a => d < 64 && a.ok
  | .fsqrt d a => d < 64 && a.ok
  | .fexp2 d a => d < 64 && a.ok
  | .flog2 d a => d < 64 && a.ok
  | .fsin d a => d < 64 && a.ok
  | .fcos d a => d < 64 && a.ok
  | .ffrc d a => d < 64 && a.ok
  | .frnd d a r => d < 64 && a.ok && r < 256
  | .hadd2 d a b _ => d < 64 && a.ok && b.ok
  | .hmul2 d a b _ => d < 64 && a.ok && b.ok
  | .hfma2 d a b _ => d < 64 && a.ok && b.ok
  | .hmin2 d a b _ => d < 64 && a.ok && b.ok
  | .hmax2 d a b _ => d < 64 && a.ok && b.ok
  | .sadd d a b => d < 64 && a.ok && b.ok
  | .ssub d a b => d < 64 && a.ok && b.ok
  | .smul d a b => d < 64 && a.ok && b.ok
  | .sand d a b => d < 64 && a.ok && b.ok
  | .sor d a b => d < 64 && a.ok && b.ok
  | .sxor d a b => d < 64 && a.ok && b.ok
  | .sshl d a b => d < 64 && a.ok && b.ok
  | .sshr d a b _ => d < 64 && a.ok && b.ok
  | .scmp p c a b _ => p < 8 && c < 8 && a.ok && b.ok
  | .smov d a => d < 64 && a.ok
  | .sli s i => s < 128 && i < 131072
  | .sbra s i => s < 128 && i < 131072
  | .cvt d s r _ u v => d < 64 && s < 64 && r < 4 && u < 8 && v < 8
  | .mov d a => d < 64 && a.ok
  | .v2s d s n => d < 64 && s < 64 && n < 64
  | .s2v d s => d < 64 && s < 64
  | .movs d n => d < 64 && n < 4096
  | .qpack d s r _ y => d < 64 && s < 64 && r < 4 && y < 8
  | .qunpk d s y => d < 64 && s < 64 && y < 8
  | .ld t a _ g o => t < 64 && a < 64 && g < 8 && o < 256
  | .ldB64 t a _ g o => t < 64 && a < 64 && g < 8 && o < 256
  | .ldB128 t a _ g o => t < 64 && a < 64 && g < 8 && o < 256
  | .st t a _ g o => t < 64 && a < 64 && g < 8 && o < 256
  | .stB64 t a _ g o => t < 64 && a < 64 && g < 8 && o < 256
  | .stB128 t a _ g o => t < 64 && a < 64 && g < 8 && o < 256
  | .ldOrdered t a _ g r e => t < 64 && a < 64 && g < 8 && r < 4 && e < 8
  | .stOrdered t a _ g r e => t < 64 && a < 64 && g < 8 && r < 4 && e < 8
  | .atom t a _ g r e o => t < 64 && a < 64 && g < 8 && r < 4 && e < 8 && o < 8
  | .atomFadd t a _ g r e => t < 64 && a < 64 && g < 8 && r < 4 && e < 8
  | .red t a _ g r e o => t < 64 && a < 64 && g < 8 && r < 4 && e < 8 && o < 8
  | .lds x y z s => x < 64 && y < 64 && z < 64 && s < 8
  | .sts x y z s => x < 64 && y < 64 && z < 64 && s < 8
  | .ldx x y z s => x < 64 && y < 64 && z < 64 && s < 8
  | .stx x y z s => x < 64 && y < 64 && z < 64 && s < 8
  | .stashMap x _ n => x < 64 && n < 8
  | .stashMapUnmap n => n < 8
  | .stashFlush n => n < 8
  | .stashInv n => n < 8
  | .pref x l => x < 64 && l < 4
  | .lcopy x y z _ _ => x < 64 && y < 64 && z < 32
  | .tcopy x y h _ _ _ => x < 64 && y < 64 && h < 16
  | .ctrAdd x y e => x < 64 && y < 64 && e < 8
  | .ctrWait x y e => x < 64 && y < 64 && e < 8
  | .pbInit x y => x < 64 && y < 64
  | .pbArrive x y => x < 64 && y < 64
  | .pbArriveN x y n => x < 64 && y < 64 && n < 32
  | .pbExpect x y => x < 64 && y < 64
  | .pbWait x y d => x < 64 && y < 64 && d < 8
  | .pbInval y => y < 64
  | .waitcmp x y e c => x < 64 && y < 64 && e < 8 && c < 4
  | .wake x e => x < 64 && e < 8
  | .fence e r => e < 8 && r < 4
  | .xfence e m => e < 8 && m < 64
  | .tfence e => e < 8
  | .talloc h y z => h < 16 && y < 64 && z < 64
  | .tseal h => h < 16
  | .tclaim h => h < 16
  | .tclaimEach h => h < 16
  | .tread x f h z => x < 64 && f < 3 && h < 16 && z < 64
  | .treadStash x h _ => x < 64 && h < 16
  | .tpeek x f h z => x < 64 && f < 3 && h < 16 && z < 64
  | .tpeekStash x h _ => x < 64 && h < 16
  | .tdrop h => h < 16
  | .tstatInfo x h => x < 64 && h < 16
  | .tstatAddr x h => x < 64 && h < 16
  | .tstatGet x h => x < 64 && h < 16
  | .tstatPut h y => h < 16 && y < 64
  | .tstatPart x p => x < 64 && p < 16
  | .link n _ => n < 64
  | .unlink => true
  | .pair .. => true
  | .tmma x y _ _ f => x < 64 && y < 64 && f < 4
  | .tmmaQ x y _ _ f => x < 64 && y < 64 && f < 4
  | .accLd x y _ => x < 64 && y < 64
  | .accMov x y f => x < 64 && y < 64 && f < 4
  | .accMovRaw x y f => x < 64 && y < 64 && f < 4
  | .accMovTile x y f => x < 64 && y < 64 && f < 4
  | .accZero x y => x < 64 && y < 64
  | .fmtset x y f => x < 64 && y < 32 && f < 4
  | .fmtsetGet x y f => x < 64 && y < 32 && f < 4
  | .fmtsetLd x f => x < 64 && f < 4
  | .fmtsetSt x f => x < 64 && f < 4
  | .scaleObs x y f => x < 64 && y < 64 && f < 4
  | .scaleNext f => f < 4
  | .leashTake => true
  | .leashPass => true
  | .burst n => n < 64
  | .rbox x y z => x < 64 && y < 64 && z < 64
  | .texSmp x y z => x < 64 && y < 64 && z < 64
  | .texLoad x y z => x < 64 && y < 64 && z < 64
  | .texGather x y z => x < 64 && y < 64 && z < 64
  | .cover x y w => x < 64 && y < 64 && w < 4
  | .rtst x y z => x < 64 && y < 64 && z < 64
  | .rtclr z => z < 64
  | .rtdc z => z < 64
  | .csrr n s => n < 4096 && s < 64
  | .csrw n s => n < 4096 && s < 64
  | .eret => true
  | .tlbi x t => x < 64 && t < 8
  | .snap t => t < 256
  | .sleep s => s < 64
  | .lit p => p < 16777216
  | .illegalEncoding .. => true
  | .yieldHoldExpiry .. => true
  | .tileAutoSeal .. => true
  | .teamEndRelease .. => true
  | .taskRequeue .. => true
  | .launch => true
  | .teamPlacement .. => true
  | .taskGroupForm .. => true
  | .batchTimeout .. => true
  | .batchLaunch .. => true
  | .dependantLaunch => true
  | .gridRetire .. => true
  | .eviction .. => true
  | .relaunch .. => true
  | .preemptRequest => true
  | .forcedSafePoint .. => true
  | .copyCancel .. => true
  | .teamSave .. => true
  | .teamRestore .. => true
  | .kennelDetectorFire .. => true
  | .tallocGrant .. => true
  | .rsvGrant .. => true
  | .spawnGrant .. => true
  | .linkGrant .. => true
  | .pairMatch .. => true
  | .stepStart .. => true
  | .stepCommit .. => true
  | .stepFault .. => true
  | .rboxPassComplete .. => true
  | .rampUpEnd .. => true
  | .rampDownStart .. => true
  | .burstExpiry .. => true
  | .rampDownEnd .. => true
  | .sleepTimeout .. => true
  | .userInterruptDelivery .. => true
  | .copyErrorDelivery .. => true
  | .copyChunkCounted .. => true
  | .stashLineFill .. => true
  | .ownershipRegistration .. => true
  | .recall .. => true
  | .forwardedRead .. => true
  | .readMiss .. => true
  | .sectorWriteBack .. => true
  | .l1Eviction .. => true
  | .hostRead .. => true
  | .hostWrite .. => true
  | .notifyEvaluate .. => true
  | .waitcmpPoll .. => true
  | .prqHeadPoll .. => true
  | .pageRequestResolved .. => true
  | .peatFillStart => true
  | .peatFillComplete .. => true
  | .doorbellWrite .. => true
  | .packetRead => true
  | .dresWrite .. => true
  | .registerWrite .. => true
  | .warmRestart => true
  | .hotReset => true
  | .kcfg => true
  | .mcfg => true
  | .qopen => true
  | .qclose => true
  | .revoke => true
  | .inval => true
  | .uipost => true
  | .preempt => true
  | .teardown => true
  | .iogrant => true
  | .unknownCommand .. => true
  | .cmdstRead => true
  | .hostWaitPost .. => true
  | .carve => true
  | .uncarve => true
  | .confkey => true
  | .copyin => true
  | .copyout => true
  | .attest => true
  | .unknownServiceRequest => true
  | .fatalFault => true
  | .lockstepMismatch => true
  | .pwrTargetRun .. => true
  | .pwrTargetListen .. => true
  | .pwrTargetRetain .. => true
  | .pwrEnvelope .. => true
  | .powerTransitionDone => true
  | .listenWake => true
  | .channelSelfRefresh .. => true
  | .thermalThrottle => true
  | .thermalShutdown => true
  | .coreClockStop .. => true
  | .coreClockRestart .. => true
  | .coldReset => true
  | .snaptrigWrite .. => true
  | .snapinPin => true
  | .snapstWrite .. => true
  | .sdoorWriteDiscard => true
  | .kennelRemoteOperation .. => true
  | .remoteStashAccess .. => true
  | .commandCompletion => true
  | .serviceRequestCompletion => true
  | .warmRestartEnd => true
  | .recoveryEnd => true
  | .classDBudgetExhausted .. => true

/-- The rules that the word alone decides (R28, R32 to R36 and the entries named there). -/
def Instr.legal : Instr → Bool
  | .nop => true
  | .bra .. => true
  | .brc .. => true
  | .call .. => true
  | .ret a => a.notLit
  | .jmpx a _ => a.notLit
  | .exit => true
  | .converge => true
  | .yield => true
  | .safept => true
  | .trigger => true
  | .trap .. => true
  | .voteAny .. => true
  | .voteAll .. => true
  | .voteBallot d _ => even d
  | .voteEq .. => true
  | .shflIdx .. => true
  | .shflUp .. => true
  | .shflDown .. => true
  | .shflXor .. => true
  | .redg _ _ o => o < 9
  | .redgScalar _ _ o => o < 9
  | .scangIncl _ _ o => o < 9
  | .scangExcl _ _ o => o < 9
  | .barG => true
  | .barT => true
  | .cwin .. => true
  | .cwinReg .. => true
  | .taskend => true
  | .spawn .. => true
  | .rsv x _ _ => even x
  | .rcommit x _ => even x
  | .rget x => even x
  | .rgetCount x _ => even x
  | .iadd .. => true
  | .isub .. => true
  | .imul .. => true
  | .imulh .. => true
  | .imad .. => true
  | .iadd64 d a b => even d && a.pairOk && b.pairOk
  | .imin .. => true
  | .imax .. => true
  | .iabs .. => true
  | .shl .. => true
  | .shr .. => true
  | .sar .. => true
  | .rot .. => true
  | .iand .. => true
  | .ior .. => true
  | .ixor .. => true
  | .inot .. => true
  | .bfe .. => true
  | .bfi .. => true
  | .popc .. => true
  | .clz .. => true
  | .brev .. => true
  | .lea d a _ => even d && a.pairOk
  | .icmp _ c _ _ _ => c < 6
  | .isel .. => true
  | .idot4 .. => true
  | .pand .. => true
  | .por .. => true
  | .pnot .. => true
  | .fadd .. => true
  | .fsub .. => true
  | .fmul .. => true
  | .fma .. => true
  | .fmin .. => true
  | .fmax .. => true
  | .fcmp .. => true
  | .fsel .. => true
  | .frcp .. => true
  | .frsq .. => true
  | .fsqrt .. => true
  | .fexp2 .. => true
  | .flog2 .. => true
  | .fsin .. => true
  | .fcos .. => true
  | .ffrc .. => true
  | .frnd _ _ r => r < 4
  | .hadd2 .. => true
  | .hmul2 .. => true
  | .hfma2 .. => true
  | .hmin2 .. => true
  | .hmax2 .. => true
  | .sadd _ a b => a.notVector && b.notVector
  | .ssub _ a b => a.notVector && b.notVector
  | .smul _ a b => a.notVector && b.notVector
  | .sand _ a b => a.notVector && b.notVector
  | .sor _ a b => a.notVector && b.notVector
  | .sxor _ a b => a.notVector && b.notVector
  | .sshl _ a b => a.notVector && b.notVector
  | .sshr _ a b _ => a.notVector && b.notVector
  | .scmp _ c a b _ => c < 6 && a.notVector && b.notVector
  | .smov _ a => a.notVector
  | .sli .. => true
  | .sbra .. => true
  | .cvt _ _ _ _ u v => u != v
  | .mov .. => true
  | .v2s .. => true
  | .s2v .. => true
  | .movs _ n => n < 25
  | .qpack _ s _ _ y => s % packCount y == 0
  | .qunpk d _ y => d % packCount y == 0
  | .ld _ a _ _ _ => even a
  | .ldB64 t a _ _ _ => even t && even a
  | .ldB128 t a _ _ _ => t % 4 == 0 && even a
  | .st _ a _ _ _ => even a
  | .stB64 t a _ _ _ => even t && even a
  | .stB128 t a _ _ _ => t % 4 == 0 && even a
  | .ldOrdered _ a _ _ r e => even a && r < 2 && e < 5
  | .stOrdered _ a _ _ r e => even a && even r && e < 5
  | .atom t a _ _ _ e o => even a && e < 5 && (o != 7 || even t)
  | .atomFadd _ a _ _ _ e => even a && e < 5
  | .red _ a _ _ r e o => even a && even r && e < 5 && o < 7
  | .lds x _ _ s => s < 7 && stashDataOk x s
  | .sts x _ _ s => s < 5 && stashDataOk x s
  | .ldx x _ _ s => s < 7 && stashDataOk x s
  | .stx x _ _ s => s < 5 && stashDataOk x s
  | .stashMap x _ _ => blockOk x
  | .stashMapUnmap .. => true
  | .stashFlush .. => true
  | .stashInv .. => true
  | .pref x l => even x && l < 3
  | .lcopy x _ _ _ _ => even x
  | .tcopy x y h t i _ => blockOk x && even y && (if t then !i else h == 0)
  | .ctrAdd x _ e => even x && e < 5
  | .ctrWait x y e => even x && even y && e < 5
  | .pbInit .. => true
  | .pbArrive .. => true
  | .pbArriveN .. => true
  | .pbExpect .. => true
  | .pbWait .. => true
  | .pbInval .. => true
  | .waitcmp x _ e _ => even x && e < 5
  | .wake x e => even x && e < 5
  | .fence e r => e < 5 && r != 0
  | .xfence e m => e < 5 && 2 ≤ maskCount m 6
  | .tfence e => e < 5
  | .talloc .. => true
  | .tseal .. => true
  | .tclaim .. => true
  | .tclaimEach .. => true
  | .tread x f _ _ => wideOk x f
  | .treadStash x _ _ => blockOk x
  | .tpeek x f _ _ => wideOk x f
  | .tpeekStash x _ _ => blockOk x
  | .tdrop .. => true
  | .tstatInfo x _ => even x
  | .tstatAddr x _ => even x
  | .tstatGet x _ => even x
  | .tstatPut _ y => even y
  | .tstatPart x _ => even x
  | .link .. => true
  | .unlink => true
  | .pair .. => true
  | .tmma _ y _ _ _ => blockOk y
  | .tmmaQ _ y _ _ _ => blockOk y
  | .accLd .. => true
  | .accMov .. => true
  | .accMovRaw .. => true
  | .accMovTile .. => true
  | .accZero .. => true
  | .fmtset x y _ => fieldOk x y
  | .fmtsetGet x y _ => fieldOk x y
  | .fmtsetLd x _ => even x
  | .fmtsetSt x _ => even x
  | .scaleObs .. => true
  | .scaleNext .. => true
  | .leashTake => true
  | .leashPass => true
  | .burst .. => true
  | .rbox .. => true
  | .texSmp x _ z => even x && z % 4 == 0
  | .texLoad x _ z => even x && z % 4 == 0
  | .texGather x _ z => even x && z % 4 == 0
  | .cover x _ w => even x && w < 3
  | .rtst _ _ z => z % 4 == 0
  | .rtclr z => z % 4 == 0
  | .rtdc z => z % 4 == 0
  | .csrr n _ => csrReadable n
  | .csrw n _ => csrWritable n
  | .eret => true
  | .tlbi x t => t < 5 && x % 4 == 0 && (t != 0 || x == 0)
  | .snap .. => true
  | .sleep .. => true
  | .lit .. => true
  | .illegalEncoding .. => true
  | .yieldHoldExpiry .. => true
  | .tileAutoSeal .. => true
  | .teamEndRelease .. => true
  | .taskRequeue .. => true
  | .launch => true
  | .teamPlacement .. => true
  | .taskGroupForm .. => true
  | .batchTimeout .. => true
  | .batchLaunch .. => true
  | .dependantLaunch => true
  | .gridRetire .. => true
  | .eviction .. => true
  | .relaunch .. => true
  | .preemptRequest => true
  | .forcedSafePoint .. => true
  | .copyCancel .. => true
  | .teamSave .. => true
  | .teamRestore .. => true
  | .kennelDetectorFire .. => true
  | .tallocGrant .. => true
  | .rsvGrant .. => true
  | .spawnGrant .. => true
  | .linkGrant .. => true
  | .pairMatch .. => true
  | .stepStart .. => true
  | .stepCommit .. => true
  | .stepFault .. => true
  | .rboxPassComplete .. => true
  | .rampUpEnd .. => true
  | .rampDownStart .. => true
  | .burstExpiry .. => true
  | .rampDownEnd .. => true
  | .sleepTimeout .. => true
  | .userInterruptDelivery .. => true
  | .copyErrorDelivery .. => true
  | .copyChunkCounted .. => true
  | .stashLineFill .. => true
  | .ownershipRegistration .. => true
  | .recall .. => true
  | .forwardedRead .. => true
  | .readMiss .. => true
  | .sectorWriteBack .. => true
  | .l1Eviction .. => true
  | .hostRead .. => true
  | .hostWrite .. => true
  | .notifyEvaluate .. => true
  | .waitcmpPoll .. => true
  | .prqHeadPoll .. => true
  | .pageRequestResolved .. => true
  | .peatFillStart => true
  | .peatFillComplete .. => true
  | .doorbellWrite .. => true
  | .packetRead => true
  | .dresWrite .. => true
  | .registerWrite .. => true
  | .warmRestart => true
  | .hotReset => true
  | .kcfg => true
  | .mcfg => true
  | .qopen => true
  | .qclose => true
  | .revoke => true
  | .inval => true
  | .uipost => true
  | .preempt => true
  | .teardown => true
  | .iogrant => true
  | .unknownCommand .. => true
  | .cmdstRead => true
  | .hostWaitPost .. => true
  | .carve => true
  | .uncarve => true
  | .confkey => true
  | .copyin => true
  | .copyout => true
  | .attest => true
  | .unknownServiceRequest => true
  | .fatalFault => true
  | .lockstepMismatch => true
  | .pwrTargetRun .. => true
  | .pwrTargetListen .. => true
  | .pwrTargetRetain .. => true
  | .pwrEnvelope .. => true
  | .powerTransitionDone => true
  | .listenWake => true
  | .channelSelfRefresh .. => true
  | .thermalThrottle => true
  | .thermalShutdown => true
  | .coreClockStop .. => true
  | .coreClockRestart .. => true
  | .coldReset => true
  | .snaptrigWrite .. => true
  | .snapinPin => true
  | .snapstWrite .. => true
  | .sdoorWriteDiscard => true
  | .kennelRemoteOperation .. => true
  | .remoteStashAccess .. => true
  | .commandCompletion => true
  | .serviceRequestCompletion => true
  | .warmRestartEnd => true
  | .recoveryEnd => true
  | .classDBudgetExhausted .. => true

/-- A well-formed instruction: fields within their widths, and a legal word. -/
def Instr.wellFormed (i : Instr) : Bool := i.fieldsOk && i.legal

end Sys2Proof
end

