-- ==== Sys2Proof/Decode.lean ====
section
/-! DEFINITION. Decoding and encoding of the 32-bit words (R24, R29, R35, R36 and the entries of the
instruction chapters). `decode` reads bits [30:0]; bit 31 is the chain bit (R19), read by `chainBit`.
A word that matches no assigned encoding, or holds a non-zero value in a zero field, decodes to
`none`; it fails the packet check with cause 0x01 (R37, ILLEGAL_ENCODING). -/

namespace Sys2Proof

/-- Bits [hi:lo] of a word (R4). -/
def bits (w hi lo : Nat) : Nat := w / 2 ^ lo % 2 ^ (hi + 1 - lo)

/-- The chain bit C of a word (R19, R29). -/
def chainBit (w : Nat) : Bool := bits w 31 31 == 1

/-- An 8-bit source field (R24). -/
def decodeSrc (x : Nat) : Src :=
  if x < 64 then .v x else if x < 128 then .s (x - 64) else if x < 192 then .c (x - 128) else .lit (x - 192)

/-- The 8 bits of a source operand (R24). -/
def encodeSrc : Src → Nat
  | .v n => n
  | .s n => 64 + n
  | .c n => 128 + n
  | .lit n => 192 + n

/-- A one-bit field. -/
def flagBit (w i : Nat) : Bool := bits w i i == 1

/-- Control, groups, tasks and work graphs (R77 to R100), OPs 0x00 to 0x0F. -/
def decodeControl (w : Nat) : Option Instr :=
  match bits w 30 24 with
  | 0x00 =>
    if bits w 23 0 = 0 then
      some .nop
    else none
  | 0x01 =>
    some (.bra (bits w 23 21) (flagBit w 20) (bits w 19 0))
  | 0x02 =>
    some (.brc (bits w 23 21) (flagBit w 20) (bits w 19 0))
  | 0x03 =>
    some (.call (bits w 23 21) (flagBit w 20) (bits w 19 0))
  | 0x04 =>
    if bits w 8 0 = 0 ∧ bits w 23 17 = 0 then
      some (.ret (decodeSrc (bits w 16 9)))
    else none
  | 0x05 =>
    if bits w 0 0 = 0 ∧ bits w 23 17 = 0 then
      some (.jmpx (decodeSrc (bits w 16 9)) (decodeSrc (bits w 8 1)))
    else none
  | 0x06 =>
    if bits w 23 0 = 0 then
      some .exit
    else none
  | 0x07 =>
    if bits w 23 0 = 0 then
      some .converge
    else none
  | 0x08 =>
    if bits w 23 0 = 0 then
      some .yield
    else none
  | 0x09 =>
    if bits w 23 0 = 0 then
      some .safept
    else none
  | 0x0A =>
    if bits w 23 0 = 0 then
      some .trigger
    else none
  | 0x0B =>
    if bits w 23 12 = 0 then
      some (.trap (bits w 11 0))
    else none
  | 0x0C =>
    if bits w 11 0 = 0 ∧ bits w 17 15 = 0 ∧ bits w 23 21 = 0 then
      some (.voteAny (bits w 20 18) (bits w 14 12))
    else if bits w 11 0 = 1 ∧ bits w 17 15 = 0 ∧ bits w 23 21 = 0 then
      some (.voteAll (bits w 20 18) (bits w 14 12))
    else if bits w 11 0 = 3 ∧ bits w 17 15 = 0 ∧ bits w 23 21 = 0 then
      some (.voteEq (bits w 20 18) (bits w 14 12))
    else if bits w 11 0 = 2 ∧ bits w 17 15 = 0 then
      some (.voteBallot (bits w 23 18) (bits w 14 12))
    else if bits w 5 0 = 8 then
      some (.shflIdx (bits w 23 18) (bits w 17 12) (bits w 11 6))
    else if bits w 5 0 = 9 then
      some (.shflUp (bits w 23 18) (bits w 17 12) (bits w 11 6))
    else if bits w 5 0 = 0xa then
      some (.shflDown (bits w 23 18) (bits w 17 12) (bits w 11 6))
    else if bits w 5 0 = 0xb then
      some (.shflXor (bits w 23 18) (bits w 17 12) (bits w 11 6))
    else none
  | 0x0D =>
    if bits w 11 4 = 0 then
      some (.redg (bits w 23 18) (bits w 17 12) (bits w 3 0))
    else if bits w 11 4 = 4 then
      some (.redgScalar (bits w 23 18) (bits w 17 12) (bits w 3 0))
    else if bits w 11 4 = 1 then
      some (.scangIncl (bits w 23 18) (bits w 17 12) (bits w 3 0))
    else if bits w 11 4 = 2 then
      some (.scangExcl (bits w 23 18) (bits w 17 12) (bits w 3 0))
    else none
  | 0x0E =>
    if bits w 23 0 = 0 then
      some .barG
    else if bits w 23 0 = 1 then
      some .barT
    else if bits w 23 0 = 3 then
      some .taskend
    else if bits w 11 0 = 0x802 ∧ bits w 23 22 = 0 then
      some (.cwinReg (bits w 21 18) (bits w 17 12))
    else if bits w 5 0 = 2 ∧ bits w 11 8 = 0 ∧ bits w 23 22 = 0 then
      some (.cwin (bits w 21 18) (bits w 17 12) (bits w 7 6))
    else none
  | 0x0F =>
    if bits w 17 0 = 3 then
      some (.rget (bits w 23 18))
    else if bits w 11 0 = 2 then
      some (.rcommit (bits w 23 18) (bits w 17 12))
    else if bits w 11 0 = 0x43 then
      some (.rgetCount (bits w 23 18) (bits w 17 12))
    else if bits w 5 0 = 0 ∧ bits w 11 9 = 0 then
      some (.spawn (bits w 23 18) (bits w 17 12) (bits w 8 6))
    else if bits w 5 0 = 1 then
      some (.rsv (bits w 23 18) (bits w 17 12) (bits w 11 6))
    else none
  | _ => none

/-- Integer, compare, select and predicate words (R106 to R114), OPs 0x10 to 0x2F. -/
def decodeInteger (w : Nat) : Option Instr :=
  match bits w 30 24 with
  | 0x10 =>
    if bits w 17 17 = 0 then
      some (.iadd (bits w 23 18) (decodeSrc (bits w 16 9)) (decodeSrc (bits w 8 1)) (flagBit w 0))
    else none
  | 0x11 =>
    if bits w 17 17 = 0 then
      some (.isub (bits w 23 18) (decodeSrc (bits w 16 9)) (decodeSrc (bits w 8 1)) (flagBit w 0))
    else none
  | 0x12 =>
    if bits w 0 0 = 0 ∧ bits w 17 17 = 0 then
      some (.imul (bits w 23 18) (decodeSrc (bits w 16 9)) (decodeSrc (bits w 8 1)))
    else none
  | 0x13 =>
    if bits w 17 17 = 0 then
      some (.imulh (bits w 23 18) (decodeSrc (bits w 16 9)) (decodeSrc (bits w 8 1)) (flagBit w 0))
    else none
  | 0x14 =>
    if bits w 0 0 = 0 ∧ bits w 17 17 = 0 then
      some (.imad (bits w 23 18) (decodeSrc (bits w 16 9)) (decodeSrc (bits w 8 1)))
    else none
  | 0x15 =>
    if bits w 0 0 = 0 ∧ bits w 17 17 = 0 then
      some (.iadd64 (bits w 23 18) (decodeSrc (bits w 16 9)) (decodeSrc (bits w 8 1)))
    else none
  | 0x16 =>
    if bits w 17 17 = 0 then
      some (.imin (bits w 23 18) (decodeSrc (bits w 16 9)) (decodeSrc (bits w 8 1)) (flagBit w 0))
    else none
  | 0x17 =>
    if bits w 17 17 = 0 then
      some (.imax (bits w 23 18) (decodeSrc (bits w 16 9)) (decodeSrc (bits w 8 1)) (flagBit w 0))
    else none
  | 0x18 =>
    if bits w 8 0 = 0 ∧ bits w 17 17 = 0 then
      some (.iabs (bits w 23 18) (decodeSrc (bits w 16 9)))
    else none
  | 0x19 =>
    if bits w 0 0 = 0 ∧ bits w 17 17 = 0 then
      some (.shl (bits w 23 18) (decodeSrc (bits w 16 9)) (decodeSrc (bits w 8 1)))
    else none
  | 0x1A =>
    if bits w 0 0 = 0 ∧ bits w 17 17 = 0 then
      some (.shr (bits w 23 18) (decodeSrc (bits w 16 9)) (decodeSrc (bits w 8 1)))
    else none
  | 0x1B =>
    if bits w 0 0 = 0 ∧ bits w 17 17 = 0 then
      some (.sar (bits w 23 18) (decodeSrc (bits w 16 9)) (decodeSrc (bits w 8 1)))
    else none
  | 0x1C =>
    if bits w 17 17 = 0 then
      some (.rot (bits w 23 18) (decodeSrc (bits w 16 9)) (decodeSrc (bits w 8 1)) (flagBit w 0))
    else none
  | 0x1D =>
    if bits w 0 0 = 0 ∧ bits w 17 17 = 0 then
      some (.iand (bits w 23 18) (decodeSrc (bits w 16 9)) (decodeSrc (bits w 8 1)))
    else none
  | 0x1E =>
    if bits w 0 0 = 0 ∧ bits w 17 17 = 0 then
      some (.ior (bits w 23 18) (decodeSrc (bits w 16 9)) (decodeSrc (bits w 8 1)))
    else none
  | 0x1F =>
    if bits w 0 0 = 0 ∧ bits w 17 17 = 0 then
      some (.ixor (bits w 23 18) (decodeSrc (bits w 16 9)) (decodeSrc (bits w 8 1)))
    else none
  | 0x20 =>
    if bits w 8 0 = 0 ∧ bits w 17 17 = 0 then
      some (.inot (bits w 23 18) (decodeSrc (bits w 16 9)))
    else none
  | 0x21 =>
    if bits w 17 17 = 0 then
      some (.bfe (bits w 23 18) (decodeSrc (bits w 16 9)) (decodeSrc (bits w 8 1)) (flagBit w 0))
    else none
  | 0x22 =>
    if bits w 0 0 = 0 ∧ bits w 17 17 = 0 then
      some (.bfi (bits w 23 18) (decodeSrc (bits w 16 9)) (decodeSrc (bits w 8 1)))
    else none
  | 0x23 =>
    if bits w 8 0 = 0 ∧ bits w 17 17 = 0 then
      some (.popc (bits w 23 18) (decodeSrc (bits w 16 9)))
    else none
  | 0x24 =>
    if bits w 8 0 = 0 ∧ bits w 17 17 = 0 then
      some (.clz (bits w 23 18) (decodeSrc (bits w 16 9)))
    else none
  | 0x25 =>
    if bits w 8 0 = 0 ∧ bits w 17 17 = 0 then
      some (.brev (bits w 23 18) (decodeSrc (bits w 16 9)))
    else none
  | 0x26 =>
    if bits w 0 0 = 0 ∧ bits w 17 17 = 0 then
      some (.lea (bits w 23 18) (decodeSrc (bits w 16 9)) (decodeSrc (bits w 8 1)))
    else none
  | 0x27 =>
    if bits w 17 17 = 0 then
      some (.icmp (bits w 23 21) (bits w 20 18) (decodeSrc (bits w 16 9)) (decodeSrc (bits w 8 1)) (flagBit w 0))
    else none
  | 0x28 =>
    some (.isel (bits w 23 18) (bits w 17 15) (decodeSrc (bits w 14 7)) (bits w 6 1) (flagBit w 0))
  | 0x29 =>
    if bits w 17 17 = 0 then
      some (.idot4 (bits w 23 18) (decodeSrc (bits w 16 9)) (decodeSrc (bits w 8 1)) (flagBit w 0))
    else none
  | 0x2A =>
    if bits w 5 2 = 0 ∧ bits w 11 9 = 0 ∧ bits w 17 15 = 0 ∧ bits w 23 21 = 0 then
      some (.pand (bits w 20 18) (bits w 14 12) (bits w 8 6) (bits w 1 0))
    else none
  | 0x2B =>
    if bits w 5 2 = 0 ∧ bits w 11 9 = 0 ∧ bits w 17 15 = 0 ∧ bits w 23 21 = 0 then
      some (.por (bits w 20 18) (bits w 14 12) (bits w 8 6) (bits w 1 0))
    else none
  | 0x2C =>
    if bits w 11 0 = 0 ∧ bits w 17 15 = 0 ∧ bits w 23 21 = 0 then
      some (.pnot (bits w 20 18) (bits w 14 12))
    else none
  | _ => none

/-- Float and packed float words (R112 to R120), OPs 0x30 to 0x4F. -/
def decodeFloat (w : Nat) : Option Instr :=
  match bits w 30 24 with
  | 0x30 =>
    if bits w 17 17 = 0 then
      some (.fadd (bits w 23 18) (decodeSrc (bits w 16 9)) (decodeSrc (bits w 8 1)) (flagBit w 0))
    else none
  | 0x31 =>
    if bits w 17 17 = 0 then
      some (.fsub (bits w 23 18) (decodeSrc (bits w 16 9)) (decodeSrc (bits w 8 1)) (flagBit w 0))
    else none
  | 0x32 =>
    if bits w 17 17 = 0 then
      some (.fmul (bits w 23 18) (decodeSrc (bits w 16 9)) (decodeSrc (bits w 8 1)) (flagBit w 0))
    else none
  | 0x33 =>
    if bits w 17 17 = 0 then
      some (.fma (bits w 23 18) (decodeSrc (bits w 16 9)) (decodeSrc (bits w 8 1)) (flagBit w 0))
    else none
  | 0x34 =>
    if bits w 0 0 = 0 ∧ bits w 17 17 = 0 then
      some (.fmin (bits w 23 18) (decodeSrc (bits w 16 9)) (decodeSrc (bits w 8 1)))
    else none
  | 0x35 =>
    if bits w 0 0 = 0 ∧ bits w 17 17 = 0 then
      some (.fmax (bits w 23 18) (decodeSrc (bits w 16 9)) (decodeSrc (bits w 8 1)))
    else none
  | 0x36 =>
    if bits w 0 0 = 0 ∧ bits w 17 17 = 0 then
      some (.fcmp (bits w 23 21) (bits w 20 18) (decodeSrc (bits w 16 9)) (decodeSrc (bits w 8 1)))
    else none
  | 0x37 =>
    some (.fsel (bits w 23 18) (bits w 17 15) (decodeSrc (bits w 14 7)) (bits w 6 1) (flagBit w 0))
  | 0x38 =>
    if bits w 8 0 = 0 ∧ bits w 17 17 = 0 then
      some (.frcp (bits w 23 18) (decodeSrc (bits w 16 9)))
    else none
  | 0x39 =>
    if bits w 8 0 = 0 ∧ bits w 17 17 = 0 then
      some (.frsq (bits w 23 18) (decodeSrc (bits w 16 9)))
    else none
  | 0x3A =>
    if bits w 8 0 = 0 ∧ bits w 17 17 = 0 then
      some (.fsqrt (bits w 23 18) (decodeSrc (bits w 16 9)))
    else none
  | 0x3B =>
    if bits w 8 0 = 0 ∧ bits w 17 17 = 0 then
      some (.fexp2 (bits w 23 18) (decodeSrc (bits w 16 9)))
    else none
  | 0x3C =>
    if bits w 8 0 = 0 ∧ bits w 17 17 = 0 then
      some (.flog2 (bits w 23 18) (decodeSrc (bits w 16 9)))
    else none
  | 0x3D =>
    if bits w 8 0 = 0 ∧ bits w 17 17 = 0 then
      some (.fsin (bits w 23 18) (decodeSrc (bits w 16 9)))
    else none
  | 0x3E =>
    if bits w 8 0 = 0 ∧ bits w 17 17 = 0 then
      some (.fcos (bits w 23 18) (decodeSrc (bits w 16 9)))
    else none
  | 0x3F =>
    if bits w 8 0 = 0 ∧ bits w 17 17 = 0 then
      some (.ffrc (bits w 23 18) (decodeSrc (bits w 16 9)))
    else none
  | 0x40 =>
    if bits w 0 0 = 0 ∧ bits w 17 17 = 0 then
      some (.frnd (bits w 23 18) (decodeSrc (bits w 16 9)) (bits w 8 1))
    else none
  | 0x48 =>
    if bits w 17 17 = 0 then
      some (.hadd2 (bits w 23 18) (decodeSrc (bits w 16 9)) (decodeSrc (bits w 8 1)) (flagBit w 0))
    else none
  | 0x49 =>
    if bits w 17 17 = 0 then
      some (.hmul2 (bits w 23 18) (decodeSrc (bits w 16 9)) (decodeSrc (bits w 8 1)) (flagBit w 0))
    else none
  | 0x4A =>
    if bits w 17 17 = 0 then
      some (.hfma2 (bits w 23 18) (decodeSrc (bits w 16 9)) (decodeSrc (bits w 8 1)) (flagBit w 0))
    else none
  | 0x4B =>
    if bits w 17 17 = 0 then
      some (.hmin2 (bits w 23 18) (decodeSrc (bits w 16 9)) (decodeSrc (bits w 8 1)) (flagBit w 0))
    else none
  | 0x4C =>
    if bits w 17 17 = 0 then
      some (.hmax2 (bits w 23 18) (decodeSrc (bits w 16 9)) (decodeSrc (bits w 8 1)) (flagBit w 0))
    else none
  | _ => none

/-- Scalar words, moves, conversion and packing (R121 to R131), OPs 0x50 to 0x5F. -/
def decodeScalar (w : Nat) : Option Instr :=
  match bits w 30 24 with
  | 0x50 =>
    if bits w 0 0 = 0 ∧ bits w 17 17 = 1 then
      some (.sadd (bits w 23 18) (decodeSrc (bits w 16 9)) (decodeSrc (bits w 8 1)))
    else none
  | 0x51 =>
    if bits w 0 0 = 0 ∧ bits w 17 17 = 1 then
      some (.ssub (bits w 23 18) (decodeSrc (bits w 16 9)) (decodeSrc (bits w 8 1)))
    else none
  | 0x52 =>
    if bits w 0 0 = 0 ∧ bits w 17 17 = 1 then
      some (.smul (bits w 23 18) (decodeSrc (bits w 16 9)) (decodeSrc (bits w 8 1)))
    else none
  | 0x53 =>
    if bits w 0 0 = 0 ∧ bits w 17 17 = 1 then
      some (.sand (bits w 23 18) (decodeSrc (bits w 16 9)) (decodeSrc (bits w 8 1)))
    else none
  | 0x54 =>
    if bits w 0 0 = 0 ∧ bits w 17 17 = 1 then
      some (.sor (bits w 23 18) (decodeSrc (bits w 16 9)) (decodeSrc (bits w 8 1)))
    else none
  | 0x55 =>
    if bits w 0 0 = 0 ∧ bits w 17 17 = 1 then
      some (.sxor (bits w 23 18) (decodeSrc (bits w 16 9)) (decodeSrc (bits w 8 1)))
    else none
  | 0x56 =>
    if bits w 0 0 = 0 ∧ bits w 17 17 = 1 then
      some (.sshl (bits w 23 18) (decodeSrc (bits w 16 9)) (decodeSrc (bits w 8 1)))
    else none
  | 0x57 =>
    if bits w 17 17 = 1 then
      some (.sshr (bits w 23 18) (decodeSrc (bits w 16 9)) (decodeSrc (bits w 8 1)) (flagBit w 0))
    else none
  | 0x58 =>
    if bits w 17 17 = 0 then
      some (.scmp (bits w 23 21) (bits w 20 18) (decodeSrc (bits w 16 9)) (decodeSrc (bits w 8 1)) (flagBit w 0))
    else none
  | 0x59 =>
    if bits w 8 0 = 0 ∧ bits w 17 17 = 1 then
      some (.smov (bits w 23 18) (decodeSrc (bits w 16 9)))
    else none
  | 0x5A =>
    some (.sli (bits w 23 17) (bits w 16 0))
  | 0x5B =>
    some (.sbra (bits w 23 17) (bits w 16 0))
  | 0x5C =>
    if bits w 8 6 = 0 then
      some (.cvt (bits w 23 18) (bits w 17 12) (bits w 11 10) (flagBit w 9) (bits w 5 3) (bits w 2 0))
    else none
  | 0x5D =>
    if bits w 8 0 = 0 ∧ bits w 17 17 = 0 then
      some (.mov (bits w 23 18) (decodeSrc (bits w 16 9)))
    else none
  | 0x5E =>
    if bits w 11 0 = 1 then
      some (.s2v (bits w 23 18) (bits w 17 12))
    else if bits w 5 0 = 0 then
      some (.v2s (bits w 23 18) (bits w 17 12) (bits w 11 6))
    else if bits w 5 0 = 2 then
      some (.movs (bits w 23 18) (bits w 17 6))
    else none
  | 0x5F =>
    if bits w 5 0 = 1 ∧ bits w 11 9 = 0 then
      some (.qunpk (bits w 23 18) (bits w 17 12) (bits w 8 6))
    else if bits w 5 0 = 0 then
      some (.qpack (bits w 23 18) (bits w 17 12) (bits w 11 10) (flagBit w 9) (bits w 8 6))
    else none
  | _ => none

/-- Memory, stash, copies, counters, barriers, waits, fences (R136 to R163), OPs 0x60 to 0x73. -/
def decodeMemory (w : Nat) : Option Instr :=
  match bits w 30 24 with
  | 0x60 =>
    some (.ld (bits w 23 18) (bits w 17 12) (flagBit w 11) (bits w 10 8) (bits w 7 0))
  | 0x61 =>
    some (.ldB64 (bits w 23 18) (bits w 17 12) (flagBit w 11) (bits w 10 8) (bits w 7 0))
  | 0x62 =>
    some (.ldB128 (bits w 23 18) (bits w 17 12) (flagBit w 11) (bits w 10 8) (bits w 7 0))
  | 0x63 =>
    some (.st (bits w 23 18) (bits w 17 12) (flagBit w 11) (bits w 10 8) (bits w 7 0))
  | 0x64 =>
    some (.stB64 (bits w 23 18) (bits w 17 12) (flagBit w 11) (bits w 10 8) (bits w 7 0))
  | 0x65 =>
    some (.stB128 (bits w 23 18) (bits w 17 12) (flagBit w 11) (bits w 10 8) (bits w 7 0))
  | 0x66 =>
    if bits w 2 0 = 0 then
      some (.ldOrdered (bits w 23 18) (bits w 17 12) (flagBit w 11) (bits w 10 8) (bits w 7 6) (bits w 5 3))
    else none
  | 0x67 =>
    if bits w 2 0 = 0 then
      some (.stOrdered (bits w 23 18) (bits w 17 12) (flagBit w 11) (bits w 10 8) (bits w 7 6) (bits w 5 3))
    else none
  | 0x68 =>
    some (.atom (bits w 23 18) (bits w 17 12) (flagBit w 11) (bits w 10 8) (bits w 7 6) (bits w 5 3) (bits w 2 0))
  | 0x69 =>
    if bits w 2 0 = 0 then
      some (.atomFadd (bits w 23 18) (bits w 17 12) (flagBit w 11) (bits w 10 8) (bits w 7 6) (bits w 5 3))
    else none
  | 0x6A =>
    some (.red (bits w 23 18) (bits w 17 12) (flagBit w 11) (bits w 10 8) (bits w 7 6) (bits w 5 3) (bits w 2 0))
  | 0x6B =>
    if bits w 5 0 = 0x20 ∧ bits w 23 9 = 2 then
      some (.stashMapUnmap (bits w 8 6))
    else if bits w 5 0 = 0x21 ∧ bits w 23 9 = 0 then
      some (.stashFlush (bits w 8 6))
    else if bits w 5 0 = 0x22 ∧ bits w 23 9 = 0 then
      some (.stashInv (bits w 8 6))
    else if bits w 5 0 = 0x23 ∧ bits w 17 8 = 0 then
      some (.pref (bits w 23 18) (bits w 7 6))
    else if bits w 5 0 = 0x20 ∧ bits w 17 10 = 0 then
      some (.stashMap (bits w 23 18) (flagBit w 9) (bits w 8 6))
    else if bits w 5 3 = 0 then
      some (.lds (bits w 23 18) (bits w 17 12) (bits w 11 6) (bits w 2 0))
    else if bits w 5 3 = 1 then
      some (.sts (bits w 23 18) (bits w 17 12) (bits w 11 6) (bits w 2 0))
    else if bits w 5 3 = 2 then
      some (.ldx (bits w 23 18) (bits w 17 12) (bits w 11 6) (bits w 2 0))
    else if bits w 5 3 = 3 then
      some (.stx (bits w 23 18) (bits w 17 12) (bits w 11 6) (bits w 2 0))
    else none
  | 0x6C =>
    if bits w 5 1 = 0 then
      some (.lcopy (bits w 23 18) (bits w 17 12) (bits w 11 7) (flagBit w 6) (flagBit w 0))
    else none
  | 0x6D =>
    if bits w 5 1 = 0 then
      some (.tcopy (bits w 23 18) (bits w 17 12) (bits w 11 8) (flagBit w 7) (flagBit w 6) (flagBit w 0))
    else none
  | 0x6E =>
    if bits w 5 0 = 0 ∧ bits w 11 9 = 0 then
      some (.ctrAdd (bits w 23 18) (bits w 17 12) (bits w 8 6))
    else none
  | 0x6F =>
    if bits w 5 0 = 0 ∧ bits w 11 9 = 0 then
      some (.ctrWait (bits w 23 18) (bits w 17 12) (bits w 8 6))
    else none
  | 0x70 =>
    if bits w 11 0 = 4 ∧ bits w 23 18 = 0 then
      some (.pbInval (bits w 17 12))
    else if bits w 11 0 = 0 then
      some (.pbInit (bits w 23 18) (bits w 17 12))
    else if bits w 11 0 = 1 then
      some (.pbArrive (bits w 23 18) (bits w 17 12))
    else if bits w 11 0 = 2 then
      some (.pbExpect (bits w 23 18) (bits w 17 12))
    else if bits w 5 0 = 3 ∧ bits w 11 9 = 0 then
      some (.pbWait (bits w 23 18) (bits w 17 12) (bits w 8 6))
    else if bits w 5 0 = 1 ∧ bits w 11 11 = 1 then
      some (.pbArriveN (bits w 23 18) (bits w 17 12) (bits w 10 6))
    else none
  | 0x71 =>
    if bits w 5 0 = 0x10 ∧ bits w 17 9 = 0 then
      some (.wake (bits w 23 18) (bits w 8 6))
    else if bits w 5 2 = 0 ∧ bits w 11 9 = 0 then
      some (.waitcmp (bits w 23 18) (bits w 17 12) (bits w 8 6) (bits w 1 0))
    else none
  | 0x72 =>
    if bits w 17 0 = 2 ∧ bits w 23 21 = 0 then
      some (.tfence (bits w 20 18))
    else if bits w 11 0 = 0 ∧ bits w 17 14 = 0 ∧ bits w 23 21 = 0 then
      some (.fence (bits w 20 18) (bits w 13 12))
    else if bits w 11 0 = 1 ∧ bits w 23 21 = 0 then
      some (.xfence (bits w 20 18) (bits w 17 12))
    else none
  | _ => none

/-- The Kennel, linked mode and grid words (R167 to R206), OPs 0x74 to 0x79. -/
def decodeTile (w : Nat) : Option Instr :=
  match bits w 30 24 with
  | 0x74 =>
    if bits w 17 0 = 1 ∧ bits w 23 22 = 0 then
      some (.tseal (bits w 21 18))
    else if bits w 17 0 = 2 ∧ bits w 23 22 = 0 then
      some (.tclaim (bits w 21 18))
    else if bits w 17 0 = 0x42 ∧ bits w 23 22 = 0 then
      some (.tclaimEach (bits w 21 18))
    else if bits w 17 0 = 5 ∧ bits w 23 22 = 0 then
      some (.tdrop (bits w 21 18))
    else if bits w 11 0 = 6 ∧ bits w 17 16 = 0 then
      some (.tstatInfo (bits w 23 18) (bits w 15 12))
    else if bits w 11 0 = 0x46 ∧ bits w 17 16 = 0 then
      some (.tstatAddr (bits w 23 18) (bits w 15 12))
    else if bits w 11 0 = 0x86 ∧ bits w 17 16 = 0 then
      some (.tstatGet (bits w 23 18) (bits w 15 12))
    else if bits w 11 0 = 0xc6 ∧ bits w 23 22 = 0 then
      some (.tstatPut (bits w 21 18) (bits w 17 12))
    else if bits w 11 0 = 0x106 ∧ bits w 17 16 = 0 then
      some (.tstatPart (bits w 23 18) (bits w 15 12))
    else if bits w 5 0 = 3 ∧ bits w 11 7 = 0 ∧ bits w 17 16 = 3 then
      some (.treadStash (bits w 23 18) (bits w 15 12) (flagBit w 6))
    else if bits w 5 0 = 4 ∧ bits w 11 7 = 0 ∧ bits w 17 16 = 3 then
      some (.tpeekStash (bits w 23 18) (bits w 15 12) (flagBit w 6))
    else if bits w 5 0 = 0 ∧ bits w 23 22 = 0 then
      some (.talloc (bits w 21 18) (bits w 17 12) (bits w 11 6))
    else if bits w 5 0 = 3 ∧ bits w 17 16 < 3 then
      some (.tread (bits w 23 18) (bits w 17 16) (bits w 15 12) (bits w 11 6))
    else if bits w 5 0 = 4 ∧ bits w 17 16 < 3 then
      some (.tpeek (bits w 23 18) (bits w 17 16) (bits w 15 12) (bits w 11 6))
    else none
  | 0x75 =>
    if bits w 23 0 = 1 then
      some .unlink
    else if bits w 5 0 = 2 ∧ bits w 23 7 = 0 then
      some (.pair (flagBit w 6))
    else if bits w 5 0 = 0 ∧ bits w 17 7 = 0 then
      some (.link (bits w 23 18) (flagBit w 6))
    else none
  | 0x76 =>
    if bits w 5 0 = 0 ∧ bits w 11 10 = 0 then
      some (.tmma (bits w 23 18) (bits w 17 12) (flagBit w 9) (flagBit w 8) (bits w 7 6))
    else if bits w 5 0 = 1 ∧ bits w 11 10 = 0 then
      some (.tmmaQ (bits w 23 18) (bits w 17 12) (flagBit w 9) (flagBit w 8) (bits w 7 6))
    else none
  | 0x77 =>
    if bits w 11 0 = 2 then
      some (.accZero (bits w 23 18) (bits w 17 12))
    else if bits w 5 0 = 0 ∧ bits w 11 7 = 0 then
      some (.accLd (bits w 23 18) (bits w 17 12) (flagBit w 6))
    else if bits w 5 0 = 1 ∧ bits w 11 8 = 0 then
      some (.accMov (bits w 23 18) (bits w 17 12) (bits w 7 6))
    else if bits w 5 0 = 1 ∧ bits w 11 8 = 2 then
      some (.accMovRaw (bits w 23 18) (bits w 17 12) (bits w 7 6))
    else if bits w 5 0 = 1 ∧ bits w 11 8 = 1 then
      some (.accMovTile (bits w 23 18) (bits w 17 12) (bits w 7 6))
    else none
  | 0x78 =>
    if bits w 5 0 = 2 ∧ bits w 23 8 = 0 then
      some (.scaleNext (bits w 7 6))
    else if bits w 5 0 = 0 ∧ bits w 17 8 = 1 then
      some (.fmtsetLd (bits w 23 18) (bits w 7 6))
    else if bits w 5 0 = 0 ∧ bits w 17 8 = 2 then
      some (.fmtsetSt (bits w 23 18) (bits w 7 6))
    else if bits w 5 0 = 0 ∧ bits w 11 8 = 0 ∧ bits w 17 17 = 0 then
      some (.fmtset (bits w 23 18) (bits w 16 12) (bits w 7 6))
    else if bits w 5 0 = 0 ∧ bits w 11 8 = 0 ∧ bits w 17 17 = 1 then
      some (.fmtsetGet (bits w 23 18) (bits w 16 12) (bits w 7 6))
    else if bits w 5 0 = 1 ∧ bits w 11 8 = 0 then
      some (.scaleObs (bits w 23 18) (bits w 17 12) (bits w 7 6))
    else none
  | 0x79 =>
    if bits w 23 0 = 0 then
      some .leashTake
    else if bits w 23 0 = 1 then
      some .leashPass
    else if bits w 17 0 = 2 then
      some (.burst (bits w 23 18))
    else if bits w 5 0 = 3 then
      some (.rbox (bits w 23 18) (bits w 17 12) (bits w 11 6))
    else none
  | _ => none

/-- Sampler, coverage, render targets, system and literal words (R207 to R225), OPs 0x7A to 0x7F. -/
def decodeSystem (w : Nat) : Option Instr :=
  match bits w 30 24 with
  | 0x7A =>
    if bits w 5 0 = 0 then
      some (.texSmp (bits w 23 18) (bits w 17 12) (bits w 11 6))
    else if bits w 5 0 = 1 then
      some (.texLoad (bits w 23 18) (bits w 17 12) (bits w 11 6))
    else if bits w 5 0 = 2 then
      some (.texGather (bits w 23 18) (bits w 17 12) (bits w 11 6))
    else none
  | 0x7B =>
    if bits w 5 0 = 0 ∧ bits w 11 8 = 0 then
      some (.cover (bits w 23 18) (bits w 17 12) (bits w 7 6))
    else none
  | 0x7C =>
    if bits w 5 0 = 1 ∧ bits w 23 12 = 0 then
      some (.rtclr (bits w 11 6))
    else if bits w 5 0 = 2 ∧ bits w 23 12 = 0 then
      some (.rtdc (bits w 11 6))
    else if bits w 5 0 = 0 then
      some (.rtst (bits w 23 18) (bits w 17 12) (bits w 11 6))
    else none
  | 0x7D =>
    if bits w 11 6 = 0 then
      some (.csrr (bits w 23 12) (bits w 5 0))
    else if bits w 11 6 = 0x20 then
      some (.csrw (bits w 23 12) (bits w 5 0))
    else none
  | 0x7E =>
    if bits w 23 0 = 0 then
      some .eret
    else if bits w 5 0 = 0 ∧ bits w 23 12 = 3 then
      some (.sleep (bits w 11 6))
    else if bits w 23 8 = 0x20 then
      some (.snap (bits w 7 0))
    else if bits w 2 0 = 0 ∧ bits w 23 12 = 1 then
      some (.tlbi (bits w 11 6) (bits w 5 3))
    else none
  | 0x7F =>
    some (.lit (bits w 23 0))
  | _ => none

/-- The instruction that bits [30:0] of a word encode; `none` where the part refuses the encoding (R37). -/
def decode (w : Nat) : Option Instr :=
  if bits w 30 24 < 0x10 then decodeControl w
  else if bits w 30 24 < 0x30 then decodeInteger w
  else if bits w 30 24 < 0x50 then decodeFloat w
  else if bits w 30 24 < 0x60 then decodeScalar w
  else if bits w 30 24 < 0x74 then decodeMemory w
  else if bits w 30 24 < 0x7A then decodeTile w
  else decodeSystem w

/-- The four bytes of a word at its address, lowest first (R4). -/
def wordBytes (w : Nat) : List (BitVec 8) :=
  [BitVec.ofNat 8 (bits w 7 0), BitVec.ofNat 8 (bits w 15 8), BitVec.ofNat 8 (bits w 23 16), BitVec.ofNat 8 (bits w 31 24)]

/-- The word that four bytes hold (R4). -/
def bytesWord : List (BitVec 8) → Nat
  | [a, b, c, d] => a.toNat + 256 * b.toNat + 65536 * c.toNat + 16777216 * d.toNat
  | _ => 0

/-- The decoder's answer for a word given as a number (every word of the part has 32 bits). -/
def decodeTableWord (nbits w : Nat) : Option Instr :=
  if nbits = 32 then decode (bytesWord (wordBytes w)) else none

/-- A one-bit field's value. -/
def flagNat (b : Bool) : Nat := if b then 1 else 0

/-- A word with the value v put into an empty field whose lowest bit is `lo`. -/
def put (w v lo : Nat) : Nat := w + v * 2 ^ lo

/-- The word that encodes an instruction, with C clear (R29, R35, R36); 0, a NOP word, for an event. -/
def encode : Instr → Nat
  | .nop => 0x00000000
  | .bra p n e => put (put (put 0x01000000 p 21) (flagNat n) 20) e 0
  | .brc p n e => put (put (put 0x02000000 p 21) (flagNat n) 20) e 0
  | .call p n e => put (put (put 0x03000000 p 21) (flagNat n) 20) e 0
  | .ret a => put 0x04000000 (encodeSrc a) 9
  | .jmpx a b => put (put 0x05000000 (encodeSrc a) 9) (encodeSrc b) 1
  | .exit => 0x06000000
  | .converge => 0x07000000
  | .yield => 0x08000000
  | .safept => 0x09000000
  | .trigger => 0x0A000000
  | .trap t => put 0x0B000000 t 0
  | .voteAny d s => put (put 0x0C000000 d 18) s 12
  | .voteAll d s => put (put 0x0C000001 d 18) s 12
  | .voteBallot d s => put (put 0x0C000002 d 18) s 12
  | .voteEq d s => put (put 0x0C000003 d 18) s 12
  | .shflIdx d s z => put (put (put 0x0C000008 d 18) s 12) z 6
  | .shflUp d s n => put (put (put 0x0C000009 d 18) s 12) n 6
  | .shflDown d s n => put (put (put 0x0C00000A d 18) s 12) n 6
  | .shflXor d s n => put (put (put 0x0C00000B d 18) s 12) n 6
  | .redg d s o => put (put (put 0x0D000000 d 18) s 12) o 0
  | .redgScalar d s o => put (put (put 0x0D000040 d 18) s 12) o 0
  | .scangIncl d s o => put (put (put 0x0D000010 d 18) s 12) o 0
  | .scangExcl d s o => put (put (put 0x0D000020 d 18) s 12) o 0
  | .barG => 0x0E000000
  | .barT => 0x0E000001
  | .cwin b h l => put (put (put 0x0E000002 b 18) h 12) l 6
  | .cwinReg b s => put (put 0x0E000802 b 18) s 12
  | .taskend => 0x0E000003
  | .spawn t y g => put (put (put 0x0F000000 t 18) y 12) g 6
  | .rsv x y z => put (put (put 0x0F000001 x 18) y 12) z 6
  | .rcommit x y => put (put 0x0F000002 x 18) y 12
  | .rget x => put 0x0F000003 x 18
  | .rgetCount x y => put (put 0x0F000043 x 18) y 12
  | .iadd d a b m => put (put (put (put 0x10000000 d 18) (encodeSrc a) 9) (encodeSrc b) 1) (flagNat m) 0
  | .isub d a b m => put (put (put (put 0x11000000 d 18) (encodeSrc a) 9) (encodeSrc b) 1) (flagNat m) 0
  | .imul d a b => put (put (put 0x12000000 d 18) (encodeSrc a) 9) (encodeSrc b) 1
  | .imulh d a b m => put (put (put (put 0x13000000 d 18) (encodeSrc a) 9) (encodeSrc b) 1) (flagNat m) 0
  | .imad d a b => put (put (put 0x14000000 d 18) (encodeSrc a) 9) (encodeSrc b) 1
  | .iadd64 d a b => put (put (put 0x15000000 d 18) (encodeSrc a) 9) (encodeSrc b) 1
  | .imin d a b m => put (put (put (put 0x16000000 d 18) (encodeSrc a) 9) (encodeSrc b) 1) (flagNat m) 0
  | .imax d a b m => put (put (put (put 0x17000000 d 18) (encodeSrc a) 9) (encodeSrc b) 1) (flagNat m) 0
  | .iabs d a => put (put 0x18000000 d 18) (encodeSrc a) 9
  | .shl d a b => put (put (put 0x19000000 d 18) (encodeSrc a) 9) (encodeSrc b) 1
  | .shr d a b => put (put (put 0x1A000000 d 18) (encodeSrc a) 9) (encodeSrc b) 1
  | .sar d a b => put (put (put 0x1B000000 d 18) (encodeSrc a) 9) (encodeSrc b) 1
  | .rot d a b m => put (put (put (put 0x1C000000 d 18) (encodeSrc a) 9) (encodeSrc b) 1) (flagNat m) 0
  | .iand d a b => put (put (put 0x1D000000 d 18) (encodeSrc a) 9) (encodeSrc b) 1
  | .ior d a b => put (put (put 0x1E000000 d 18) (encodeSrc a) 9) (encodeSrc b) 1
  | .ixor d a b => put (put (put 0x1F000000 d 18) (encodeSrc a) 9) (encodeSrc b) 1
  | .inot d a => put (put 0x20000000 d 18) (encodeSrc a) 9
  | .bfe d a b m => put (put (put (put 0x21000000 d 18) (encodeSrc a) 9) (encodeSrc b) 1) (flagNat m) 0
  | .bfi d a b => put (put (put 0x22000000 d 18) (encodeSrc a) 9) (encodeSrc b) 1
  | .popc d a => put (put 0x23000000 d 18) (encodeSrc a) 9
  | .clz d a => put (put 0x24000000 d 18) (encodeSrc a) 9
  | .brev d a => put (put 0x25000000 d 18) (encodeSrc a) 9
  | .lea d a b => put (put (put 0x26000000 d 18) (encodeSrc a) 9) (encodeSrc b) 1
  | .icmp p c a b m => put (put (put (put (put 0x27000000 p 21) c 18) (encodeSrc a) 9) (encodeSrc b) 1) (flagNat m) 0
  | .isel d p a b n => put (put (put (put (put 0x28000000 d 18) p 15) (encodeSrc a) 7) b 1) (flagNat n) 0
  | .idot4 d a b m => put (put (put (put 0x29000000 d 18) (encodeSrc a) 9) (encodeSrc b) 1) (flagNat m) 0
  | .pand d a b i => put (put (put (put 0x2A000000 d 18) a 12) b 6) i 0
  | .por d a b i => put (put (put (put 0x2B000000 d 18) a 12) b 6) i 0
  | .pnot d a => put (put 0x2C000000 d 18) a 12
  | .fadd d a b m => put (put (put (put 0x30000000 d 18) (encodeSrc a) 9) (encodeSrc b) 1) (flagNat m) 0
  | .fsub d a b m => put (put (put (put 0x31000000 d 18) (encodeSrc a) 9) (encodeSrc b) 1) (flagNat m) 0
  | .fmul d a b m => put (put (put (put 0x32000000 d 18) (encodeSrc a) 9) (encodeSrc b) 1) (flagNat m) 0
  | .fma d a b m => put (put (put (put 0x33000000 d 18) (encodeSrc a) 9) (encodeSrc b) 1) (flagNat m) 0
  | .fmin d a b => put (put (put 0x34000000 d 18) (encodeSrc a) 9) (encodeSrc b) 1
  | .fmax d a b => put (put (put 0x35000000 d 18) (encodeSrc a) 9) (encodeSrc b) 1
  | .fcmp p c a b => put (put (put (put 0x36000000 p 21) c 18) (encodeSrc a) 9) (encodeSrc b) 1
  | .fsel d p a b n => put (put (put (put (put 0x37000000 d 18) p 15) (encodeSrc a) 7) b 1) (flagNat n) 0
  | .frcp d a => put (put 0x38000000 d 18) (encodeSrc a) 9
  | .frsq d a => put (put 0x39000000 d 18) (encodeSrc a) 9
  | .fsqrt d a => put (put 0x3A000000 d 18) (encodeSrc a) 9
  | .fexp2 d a => put (put 0x3B000000 d 18) (encodeSrc a) 9
  | .flog2 d a => put (put 0x3C000000 d 18) (encodeSrc a) 9
  | .fsin d a => put (put 0x3D000000 d 18) (encodeSrc a) 9
  | .fcos d a => put (put 0x3E000000 d 18) (encodeSrc a) 9
  | .ffrc d a => put (put 0x3F000000 d 18) (encodeSrc a) 9
  | .frnd d a r => put (put (put 0x40000000 d 18) (encodeSrc a) 9) r 1
  | .hadd2 d a b m => put (put (put (put 0x48000000 d 18) (encodeSrc a) 9) (encodeSrc b) 1) (flagNat m) 0
  | .hmul2 d a b m => put (put (put (put 0x49000000 d 18) (encodeSrc a) 9) (encodeSrc b) 1) (flagNat m) 0
  | .hfma2 d a b m => put (put (put (put 0x4A000000 d 18) (encodeSrc a) 9) (encodeSrc b) 1) (flagNat m) 0
  | .hmin2 d a b m => put (put (put (put 0x4B000000 d 18) (encodeSrc a) 9) (encodeSrc b) 1) (flagNat m) 0
  | .hmax2 d a b m => put (put (put (put 0x4C000000 d 18) (encodeSrc a) 9) (encodeSrc b) 1) (flagNat m) 0
  | .sadd d a b => put (put (put 0x50020000 d 18) (encodeSrc a) 9) (encodeSrc b) 1
  | .ssub d a b => put (put (put 0x51020000 d 18) (encodeSrc a) 9) (encodeSrc b) 1
  | .smul d a b => put (put (put 0x52020000 d 18) (encodeSrc a) 9) (encodeSrc b) 1
  | .sand d a b => put (put (put 0x53020000 d 18) (encodeSrc a) 9) (encodeSrc b) 1
  | .sor d a b => put (put (put 0x54020000 d 18) (encodeSrc a) 9) (encodeSrc b) 1
  | .sxor d a b => put (put (put 0x55020000 d 18) (encodeSrc a) 9) (encodeSrc b) 1
  | .sshl d a b => put (put (put 0x56020000 d 18) (encodeSrc a) 9) (encodeSrc b) 1
  | .sshr d a b m => put (put (put (put 0x57020000 d 18) (encodeSrc a) 9) (encodeSrc b) 1) (flagNat m) 0
  | .scmp p c a b m => put (put (put (put (put 0x58000000 p 21) c 18) (encodeSrc a) 9) (encodeSrc b) 1) (flagNat m) 0
  | .smov d a => put (put 0x59020000 d 18) (encodeSrc a) 9
  | .sli s i => put (put 0x5A000000 s 17) i 0
  | .sbra s i => put (put 0x5B000000 s 17) i 0
  | .cvt d s r t u v => put (put (put (put (put (put 0x5C000000 d 18) s 12) r 10) (flagNat t) 9) u 3) v 0
  | .mov d a => put (put 0x5D000000 d 18) (encodeSrc a) 9
  | .v2s d s n => put (put (put 0x5E000000 d 18) s 12) n 6
  | .s2v d s => put (put 0x5E000001 d 18) s 12
  | .movs d n => put (put 0x5E000002 d 18) n 6
  | .qpack d s r t y => put (put (put (put (put 0x5F000000 d 18) s 12) r 10) (flagNat t) 9) y 6
  | .qunpk d s y => put (put (put 0x5F000001 d 18) s 12) y 6
  | .ld t a s g o => put (put (put (put (put 0x60000000 t 18) a 12) (flagNat s) 11) g 8) o 0
  | .ldB64 t a s g o => put (put (put (put (put 0x61000000 t 18) a 12) (flagNat s) 11) g 8) o 0
  | .ldB128 t a s g o => put (put (put (put (put 0x62000000 t 18) a 12) (flagNat s) 11) g 8) o 0
  | .st t a s g o => put (put (put (put (put 0x63000000 t 18) a 12) (flagNat s) 11) g 8) o 0
  | .stB64 t a s g o => put (put (put (put (put 0x64000000 t 18) a 12) (flagNat s) 11) g 8) o 0
  | .stB128 t a s g o => put (put (put (put (put 0x65000000 t 18) a 12) (flagNat s) 11) g 8) o 0
  | .ldOrdered t a s g r e => put (put (put (put (put (put 0x66000000 t 18) a 12) (flagNat s) 11) g 8) r 6) e 3
  | .stOrdered t a s g r e => put (put (put (put (put (put 0x67000000 t 18) a 12) (flagNat s) 11) g 8) r 6) e 3
  | .atom t a s g r e o => put (put (put (put (put (put (put 0x68000000 t 18) a 12) (flagNat s) 11) g 8) r 6) e 3) o 0
  | .atomFadd t a s g r e => put (put (put (put (put (put 0x69000000 t 18) a 12) (flagNat s) 11) g 8) r 6) e 3
  | .red t a s g r e o => put (put (put (put (put (put (put 0x6A000000 t 18) a 12) (flagNat s) 11) g 8) r 6) e 3) o 0
  | .lds x y z s => put (put (put (put 0x6B000000 x 18) y 12) z 6) s 0
  | .sts x y z s => put (put (put (put 0x6B000008 x 18) y 12) z 6) s 0
  | .ldx x y z s => put (put (put (put 0x6B000010 x 18) y 12) z 6) s 0
  | .stx x y z s => put (put (put (put 0x6B000018 x 18) y 12) z 6) s 0
  | .stashMap x t n => put (put (put 0x6B000020 x 18) (flagNat t) 9) n 6
  | .stashMapUnmap n => put 0x6B000420 n 6
  | .stashFlush n => put 0x6B000021 n 6
  | .stashInv n => put 0x6B000022 n 6
  | .pref x l => put (put 0x6B000023 x 18) l 6
  | .lcopy x y z i b => put (put (put (put (put 0x6C000000 x 18) y 12) z 7) (flagNat i) 6) (flagNat b) 0
  | .tcopy x y h t i b => put (put (put (put (put (put 0x6D000000 x 18) y 12) h 8) (flagNat t) 7) (flagNat i) 6) (flagNat b) 0
  | .ctrAdd x y e => put (put (put 0x6E000000 x 18) y 12) e 6
  | .ctrWait x y e => put (put (put 0x6F000000 x 18) y 12) e 6
  | .pbInit x y => put (put 0x70000000 x 18) y 12
  | .pbArrive x y => put (put 0x70000001 x 18) y 12
  | .pbArriveN x y n => put (put (put 0x70000801 x 18) y 12) n 6
  | .pbExpect x y => put (put 0x70000002 x 18) y 12
  | .pbWait x y d => put (put (put 0x70000003 x 18) y 12) d 6
  | .pbInval y => put 0x70000004 y 12
  | .waitcmp x y e c => put (put (put (put 0x71000000 x 18) y 12) e 6) c 0
  | .wake x e => put (put 0x71000010 x 18) e 6
  | .fence e r => put (put 0x72000000 e 18) r 12
  | .xfence e m => put (put 0x72000001 e 18) m 12
  | .tfence e => put 0x72000002 e 18
  | .talloc h y z => put (put (put 0x74000000 h 18) y 12) z 6
  | .tseal h => put 0x74000001 h 18
  | .tclaim h => put 0x74000002 h 18
  | .tclaimEach h => put 0x74000042 h 18
  | .tread x f h z => put (put (put (put 0x74000003 x 18) f 16) h 12) z 6
  | .treadStash x h b => put (put (put 0x74030003 x 18) h 12) (flagNat b) 6
  | .tpeek x f h z => put (put (put (put 0x74000004 x 18) f 16) h 12) z 6
  | .tpeekStash x h b => put (put (put 0x74030004 x 18) h 12) (flagNat b) 6
  | .tdrop h => put 0x74000005 h 18
  | .tstatInfo x h => put (put 0x74000006 x 18) h 12
  | .tstatAddr x h => put (put 0x74000046 x 18) h 12
  | .tstatGet x h => put (put 0x74000086 x 18) h 12
  | .tstatPut h y => put (put 0x740000C6 h 18) y 12
  | .tstatPart x p => put (put 0x74000106 x 18) p 12
  | .link n i => put (put 0x75000000 n 18) (flagNat i) 6
  | .unlink => 0x75000001
  | .pair w => put 0x75000002 (flagNat w) 6
  | .tmma x y b a f => put (put (put (put (put 0x76000000 x 18) y 12) (flagNat b) 9) (flagNat a) 8) f 6
  | .tmmaQ x y b a f => put (put (put (put (put 0x76000001 x 18) y 12) (flagNat b) 9) (flagNat a) 8) f 6
  | .accLd x y w => put (put (put 0x77000000 x 18) y 12) (flagNat w) 6
  | .accMov x y f => put (put (put 0x77000001 x 18) y 12) f 6
  | .accMovRaw x y f => put (put (put 0x77000201 x 18) y 12) f 6
  | .accMovTile x y f => put (put (put 0x77000101 x 18) y 12) f 6
  | .accZero x y => put (put 0x77000002 x 18) y 12
  | .fmtset x y f => put (put (put 0x78000000 x 18) y 12) f 6
  | .fmtsetGet x y f => put (put (put 0x78020000 x 18) y 12) f 6
  | .fmtsetLd x f => put (put 0x78000100 x 18) f 6
  | .fmtsetSt x f => put (put 0x78000200 x 18) f 6
  | .scaleObs x y f => put (put (put 0x78000001 x 18) y 12) f 6
  | .scaleNext f => put 0x78000002 f 6
  | .leashTake => 0x79000000
  | .leashPass => 0x79000001
  | .burst n => put 0x79000002 n 18
  | .rbox x y z => put (put (put 0x79000003 x 18) y 12) z 6
  | .texSmp x y z => put (put (put 0x7A000000 x 18) y 12) z 6
  | .texLoad x y z => put (put (put 0x7A000001 x 18) y 12) z 6
  | .texGather x y z => put (put (put 0x7A000002 x 18) y 12) z 6
  | .cover x y w => put (put (put 0x7B000000 x 18) y 12) w 6
  | .rtst x y z => put (put (put 0x7C000000 x 18) y 12) z 6
  | .rtclr z => put 0x7C000001 z 6
  | .rtdc z => put 0x7C000002 z 6
  | .csrr n s => put (put 0x7D000000 n 12) s 0
  | .csrw n s => put (put 0x7D000800 n 12) s 0
  | .eret => 0x7E000000
  | .tlbi x t => put (put 0x7E001000 x 6) t 3
  | .snap t => put 0x7E002000 t 0
  | .sleep s => put 0x7E003000 s 6
  | .lit p => put 0x7F000000 p 0
  | .illegalEncoding .. => 0
  | .yieldHoldExpiry .. => 0
  | .tileAutoSeal .. => 0
  | .teamEndRelease .. => 0
  | .taskRequeue .. => 0
  | .launch => 0
  | .teamPlacement .. => 0
  | .taskGroupForm .. => 0
  | .batchTimeout .. => 0
  | .batchLaunch .. => 0
  | .dependantLaunch => 0
  | .gridRetire .. => 0
  | .eviction .. => 0
  | .relaunch .. => 0
  | .preemptRequest => 0
  | .forcedSafePoint .. => 0
  | .copyCancel .. => 0
  | .teamSave .. => 0
  | .teamRestore .. => 0
  | .kennelDetectorFire .. => 0
  | .tallocGrant .. => 0
  | .rsvGrant .. => 0
  | .spawnGrant .. => 0
  | .linkGrant .. => 0
  | .pairMatch .. => 0
  | .stepStart .. => 0
  | .stepCommit .. => 0
  | .stepFault .. => 0
  | .rboxPassComplete .. => 0
  | .rampUpEnd .. => 0
  | .rampDownStart .. => 0
  | .burstExpiry .. => 0
  | .rampDownEnd .. => 0
  | .sleepTimeout .. => 0
  | .userInterruptDelivery .. => 0
  | .copyErrorDelivery .. => 0
  | .copyChunkCounted .. => 0
  | .stashLineFill .. => 0
  | .ownershipRegistration .. => 0
  | .recall .. => 0
  | .forwardedRead .. => 0
  | .readMiss .. => 0
  | .sectorWriteBack .. => 0
  | .l1Eviction .. => 0
  | .hostRead .. => 0
  | .hostWrite .. => 0
  | .notifyEvaluate .. => 0
  | .waitcmpPoll .. => 0
  | .prqHeadPoll .. => 0
  | .pageRequestResolved .. => 0
  | .peatFillStart => 0
  | .peatFillComplete .. => 0
  | .doorbellWrite .. => 0
  | .packetRead => 0
  | .dresWrite .. => 0
  | .registerWrite .. => 0
  | .warmRestart => 0
  | .hotReset => 0
  | .kcfg => 0
  | .mcfg => 0
  | .qopen => 0
  | .qclose => 0
  | .revoke => 0
  | .inval => 0
  | .uipost => 0
  | .preempt => 0
  | .teardown => 0
  | .iogrant => 0
  | .unknownCommand .. => 0
  | .cmdstRead => 0
  | .hostWaitPost .. => 0
  | .carve => 0
  | .uncarve => 0
  | .confkey => 0
  | .copyin => 0
  | .copyout => 0
  | .attest => 0
  | .unknownServiceRequest => 0
  | .fatalFault => 0
  | .lockstepMismatch => 0
  | .pwrTargetRun .. => 0
  | .pwrTargetListen .. => 0
  | .pwrTargetRetain .. => 0
  | .pwrEnvelope .. => 0
  | .powerTransitionDone => 0
  | .listenWake => 0
  | .channelSelfRefresh .. => 0
  | .thermalThrottle => 0
  | .thermalShutdown => 0
  | .coreClockStop .. => 0
  | .coreClockRestart .. => 0
  | .coldReset => 0
  | .snaptrigWrite .. => 0
  | .snapinPin => 0
  | .snapstWrite .. => 0
  | .sdoorWriteDiscard => 0
  | .kennelRemoteOperation .. => 0
  | .remoteStashAccess .. => 0
  | .commandCompletion => 0
  | .serviceRequestCompletion => 0
  | .warmRestartEnd => 0
  | .recoveryEnd => 0
  | .classDBudgetExhausted .. => 0

/-- The word with its chain bit set to `c` (R19). -/
def withChain (c : Bool) (w : Nat) : Nat := w % 2 ^ 31 + flagNat c * 2 ^ 31

end Sys2Proof
end

