-- ==== Sys2Proof/Machine/State.lean ====
section
/-! DEFINITION. The machine's state as plain data: every register, table, queue and memory the spec gives
the part, in sub-structures by unit; `Fault`, `Refusal`; and the state after reset (R473). Sparse tables
are sorted association lists (`SMap`), and memory is a list of cells in one canonical form (`Memory.wf`). -/

namespace Sys2Proof.Machine

/-- A sparse table: keys in rising order. Look-up and update walk it alike and stop early, so that the
read-after-write laws hold of every list. -/
abbrev SMap (α : Type) := List (Nat × α)

/-- The value at a key. -/
def SMap.find {α : Type} : SMap α → Nat → Option α
  | [], _ => none
  | (k, v) :: r, n => if n = k then some v else if n < k then none else SMap.find r n

/-- The value at a key, or a default. -/
def SMap.getD {α : Type} (m : SMap α) (n : Nat) (d : α) : α := (SMap.find m n).getD d

/-- The table with a value put at a key. -/
def SMap.put {α : Type} : SMap α → Nat → α → SMap α
  | [], n, v => [(n, v)]
  | (k, w) :: r, n, v =>
    if n = k then (n, v) :: r else if n < k then (n, v) :: (k, w) :: r else (k, w) :: SMap.put r n v

/-- The table without a key. -/
def SMap.erase {α : Type} : SMap α → Nat → SMap α
  | [], _ => []
  | (k, w) :: r, n => if n = k then r else if n < k then (k, w) :: r else (k, w) :: SMap.erase r n

/-- Memory: (address, byte) cells at rising addresses, none of them 0; an unlisted address reads 0. -/
abbrev Memory := List Host.Cell

/-- The byte at an address. -/
def Memory.get : Memory → Nat → Byte
  | [], _ => 0
  | (k, v) :: r, a => if a = k then v else if a < k then 0 else Memory.get r a

/-- Memory with a byte stored; storing 0 removes the cell. -/
def Memory.set : Memory → Nat → Byte → Memory
  | [], a, b => if b = 0 then [] else [(a, b)]
  | (k, v) :: r, a, b =>
    if a = k then (if b = 0 then r else (a, b) :: r)
    else if a < k then (if b = 0 then (k, v) :: r else (a, b) :: (k, v) :: r)
    else (k, v) :: Memory.set r a b

/-- Every cell lies above `lo` in rising order and none is 0. -/
def Memory.wfFrom : Nat → Memory → Bool
  | _, [] => true
  | lo, (k, v) :: r => decide (lo ≤ k) && v != 0 && Memory.wfFrom (k + 1) r

/-- The canonical form of memory. -/
def Memory.wf (m : Memory) : Bool := Memory.wfFrom 0 m

/-- A bitmap over the 64 lanes of a group: bit i is lane i. -/
abbrev Lanes := BitVec 64

/-- A wait of a BBT entry (R236, R239). -/
inductive BbtWait where
  | runnable
  | converge
  | barG
  | barT
  deriving DecidableEq, Repr

/-- An entry of a group's BBT (R236); `held` is the clock at which the hold of YIELD ends, 0 without one (R84). -/
structure BbtEntry where
  map : Lanes
  pc : Nat
  slot : Nat
  wait : BbtWait
  age : Nat
  held : Nat
  deriving DecidableEq, Repr

/-- What a parked thread waits for (R75, R135, R235), with the operands its word captured. -/
inductive Park where
  /-- SLEEP until a time; 0 means no limit (R224). -/
  | sleep (until_ : Nat)
  /-- WAITCMP: physical word address, value, condition, scope, and whether it polls (R159, R162). -/
  | waitcmp (pa : Nat) (value : Word) (cond : Nat) (scope : Nat) (polls : Bool)
  /-- CTR.WAIT: physical address, target, scope (R154). -/
  | ctrWait (pa : Nat) (target : DWord) (scope : Nat)
  /-- PB.WAIT: team and offset of the barrier, token, predicate (R156). -/
  | pbWait (team : Nat) (off : Nat) (token : Word) (p : Nat)
  /-- TALLOC: handle register, units, reads, partition (R167). -/
  | talloc (h : Nat) (units : Nat) (reads : Nat) (part : Nat)
  /-- RSV: register pair, count register, node, total (R98). -/
  | rsv (x : Nat) (y : Nat) (node : Nat) (total : Nat)
  /-- SPAWN: the task index, the register of the record offsets, the offering lanes (R94). -/
  | spawn (task : Nat) (y : Nat) (offer : Lanes)
  /-- LINK: blocks and integer form (R179). -/
  | link (n : Nat) (int : Bool)
  /-- PAIR, west when set (R183). -/
  | pair (west : Bool)
  /-- LEASH.TAKE on a core's pair (R202, R351). -/
  | leash (core : Nat) (pair : Nat)
  /-- A stash access that touched an absent line of a team's storage (R141). -/
  | line (team : Nat) (line : Nat)
  /-- A generic access that touched an absent or filling window line (R143, R277). -/
  | window (team : Nat) (slot : Nat) (line : Nat)
  /-- TREAD or TPEEK of a filling tile, or TSEAL waiting for pending fills (R168, R171). -/
  | tile (core : Nat) (slot : Nat)
  /-- An access through the aperture to a line of a filling tile that a pending copy keeps absent (R150). -/
  | tileLine (core : Nat) (slot : Nat) (line : Nat)
  /-- An access to a rank whose team is evicted (R245). -/
  | rank (team : Nat)
  /-- A cause that reached the threads at their word, to be taken at the group's next word boundary (R364): that of a
  deadlock victim (R332), and of a page request that failed (R392). -/
  | trap (cause : Nat) (fmap : BitVec 64) (faddr : Nat)
  /-- A word whose translation awaits page request k (R392): the threads and address of a failure. -/
  | page (k : Nat) (fmap : BitVec 64) (va : Nat)
  deriving DecidableEq, Repr

/-- Threads parked outside the BBT at their waiting word; `born` is the age of the first issue (R321), and `at_` the clock
at which they parked (R264). -/
structure Parked where
  map : Lanes
  pc : Nat
  slot : Nat
  why : Park
  born : Nat
  at_ : Nat
  deriving DecidableEq, Repr

/-- The block a group is running (R17): its issue set, the packet, the next slot, the packet's words once it
has been fetched and checked, and whether a word boundary falls before the next slot (R225, R364). -/
structure Block where
  map : Lanes
  pc : Nat
  slot : Nat
  words : List Nat
  boundary : Bool
  deriving DecidableEq, Repr

/-- The registers of a group (R10, R15, R170). Vector registers are keyed by lane × 64 + number. -/
structure Regs where
  v : SMap Word := []
  s : SMap Word := []
  p : SMap Lanes := []
  h : SMap DWord := []
  /-- Claim holders of each handle register, and the claimed tile's CORE, SLOT, GEN (R170). -/
  claims : SMap (Lanes × DWord) := []
  cwBank : Nat := 0
  cwIdx : Nat := 0
  fstat : Word := 0
  deriving DecidableEq, Repr

/-- Trap level (R365). -/
inductive Level where
  | none
  | user
  | super
  deriving DecidableEq, Repr

/-- The trap state of a group (R220, R365, R370, R378). `mode` is true in supervisor mode. -/
structure TrapRegs where
  uhvec : Word := 0xFFFFFFFF
  uien : Bool := false
  uipend : Bool := false
  uiload : Word := 0
  safecnt : Nat := 0
  level : Level := .none
  mode : Bool := false
  lmode : Bool := false
  gcb : Nat := 0
  /-- Pending copy error with its address (R152), context revoked (R451), soft error with its address. -/
  pendCopy : List Nat := []
  pendRevoke : Bool := false
  pendSoft : Option Nat := none
  /-- A pre-emption request stands; it has stood through one forced reload (R266). -/
  preempt : Bool := false
  /-- The group has stopped for its team's save, at a forced safe point if `forced`, at SAFEPT if `safept` (R85, R266,
  R267); the clock of the request or, once stopped, of the stop. -/
  stopped : Bool := false
  forced : Bool := false
  safept : Bool := false
  asked : Nat := 0
  /-- Causes of the frames of levels U and S, and the constant windows saved with them as
  bank × 256 + index, for which no frame gives a place (R367; log 17). -/
  causeU : Nat := 0
  causeS : Nat := 0
  winU : Nat := 0
  winS : Nat := 0
  /-- Level U is active, itself or below level S (R365, R374). -/
  inU : Bool := false
  /-- The live threads at each trap: those that cease in the handler leave the images at the return (R374). -/
  liveU : Lanes := 0
  liveS : Lanes := 0
  deriving DecidableEq, Repr

/-- A task in a lane (R95, R242 to R244): table index, argument record, replay, the Mire entry that keeps
it, and the tentative stores as bytes by physical address. -/
structure Task where
  index : Nat
  record : List Byte
  replay : Bool
  entry : Nat
  stores : SMap Byte
  deriving DecidableEq, Repr

/-- Records a lane reserved and has not committed (R98, R99). -/
structure Reservation where
  lane : Nat
  node : Nat
  addr : Nat
  count : Nat
  deriving DecidableEq, Repr

/-- A format record of a linked tile (R185). -/
structure FormatRec where
  hist : List Nat := []
  scb : Nat := 0
  sca : Nat := 0
  uflcnt : Nat := 0
  satcnt : Nat := 0
  sstb : Nat := 0
  ssta : Nat := 0
  sexp : Int := 0
  zb : Nat := 0
  za : Nat := 0
  hpos : Nat := 0
  hcnt : Nat := 0
  dxreg : Nat := 0
  zbblk : Bool := false
  zablk : Bool := false
  typea : Nat := 0
  typeb : Nat := 0
  otype : Nat := 0
  omode : Nat := 0
  osat : Bool := false
  margin : Nat := 0
  nochg : Bool := false
  deriving DecidableEq, Repr

/-- The kind of a queued step (R373). -/
inductive StepKind where
  | tmma
  | tmmaQ
  | rbox
  deriving DecidableEq, Repr

/-- The working copy of a step that has begun (R191): a block's 512 codes and what it raises in the tile's
status. -/
structure Work where
  codes : List Nat
  finf : Bool
  fnv : Bool
  iov : Bool
  deriving DecidableEq, Repr

/-- A queued step or pass with what it captured at issue (R193, R205, R373); once it has begun, its working
copies, one for each half of a paired grid; the page request its operands await, and a held fault (R194, R392). -/
structure QStep where
  kind : StepKind
  pc : Nat
  slot : Nat
  block : Nat
  fa : Bool
  fb : Bool
  frec : Nat
  dx : Word
  ops : List Word
  fmt : FormatRec
  fragA : List Word
  fragB : List Word
  map : Lanes
  born : Nat
  started : Bool
  work : List Work := []
  waits : Option (Nat × Nat) := none
  held : Option (Nat × Nat) := none
  deriving DecidableEq, Repr

/-- The age of the first issue of a withdrawn or waiting request at a word, or SLEEP's time left, for some threads (R265,
R365); `frame` is the level in whose frame they are saved, none while they may issue it. -/
structure FirstIssue where
  map : Lanes
  pc : Nat
  slot : Nat
  age : Nat
  frame : Level := .none
  deriving DecidableEq, Repr

/-- What SPAWN_GRANT has set aside for a lane of a SPAWN that is to issue again: its entry and the copy of its argument
record (R75, R94, R336). -/
structure SpawnGrant where
  lane : Nat
  pc : Nat
  slot : Nat
  entry : Nat
  record : List Byte
  deriving DecidableEq, Repr

/-- A linked tile (R179, R185 to R193): block elements are 40-bit codes keyed block × 512 + element. -/
structure LinkTile where
  n : Nat
  int : Bool
  pairNo : Nat
  acc : SMap Nat := []
  fmts : SMap FormatRec := []
  steps : Nat := 0
  paired : Bool := false
  finf : Bool := false
  fnv : Bool := false
  iov : Bool := false
  queue : List QStep := []
  partner : Nat := 0
  leader : Bool := false
  /-- Blocks with an uncorrectable error not yet rewritten (R354). -/
  bad : List Nat := []
  /-- Restored, and not yet granted its granules again (R379). -/
  pending : Bool := false
  deriving DecidableEq, Repr

/-- The leash a group has recorded (R202, R351, R370); `due` where it has been passed to a TAKE that is to issue again. -/
structure LeashRec where
  state : Nat := 0
  core : Nat := 0
  pair : Nat := 0
  /-- The age of the TAKE that holds or waits. -/
  born : Nat := 0
  due : Bool := false
  deriving DecidableEq, Repr

/-- A trap that is not taken yet, since a page of its frame or header awaits a page request (R366, R392); none once the
request has been resolved. -/
structure FrameWait where
  req : Option Nat
  cause : Nat
  fmap : Lanes
  faddr : Nat
  pc : Nat
  slot : Nat
  async : Bool
  deriving DecidableEq, Repr

/-- Where a group stands: resident on a core, saved with its team, or ended. -/
inductive Life where
  | resident
  | saved
  | ended
  deriving DecidableEq, Repr

/-- A group context (R10, R16, R232, R235, R369). -/
structure Group where
  gcn : Nat
  ctx : Nat
  grid : Nat
  team : Nat
  grp : Nat
  core : Nat
  part : Nat
  life : Life
  width : Nat
  vcount : Nat
  vdecl : Nat
  scount : Nat
  lpb : Nat
  /-- Base of the grid's code object, and of the code now running (R365). -/
  code : Nat
  base : Nat
  live : Lanes
  triggered : Lanes := 0
  regs : Regs := {}
  bbt : List BbtEntry := []
  parked : List Parked := []
  blk : Option Block := none
  trap : TrapRegs := {}
  /-- Tasks of a task group by lane; none otherwise (R242). -/
  tasks : SMap Task := []
  isTask : Bool := false
  /-- The record addresses and node of a consumer batch (R100, R259). -/
  batch : Option (Nat × List Nat) := none
  resvs : List Reservation := []
  tile : Option LinkTile := none
  leash : LeashRec := {}
  firsts : List FirstIssue := []
  grants : List SpawnGrant := []
  /-- The clock in which its next word became issuable, and whether that word still stands so (R262). -/
  since : Nat := 0
  ready : Bool := false
  /-- A trap whose frame awaits a page request (R366, R392). -/
  frameWait : Option FrameWait := none
  /-- The request of a follower's waiting word on its own blocks (R348): the clock at which it was sent, the first block and
  how many. -/
  blockAsk : Option (Nat × Nat × Nat) := none
  deriving DecidableEq, Repr

/-- A tensor record (R146). -/
structure TensorRec where
  base : Nat
  esz : Nat
  ndim : Nat
  sizes : List Nat
  strides : List Int
  deriving DecidableEq, Repr

/-- A stash-window slot of a team (R142): linear, or a tensor box. -/
structure Window where
  tensor : Bool
  gbase : Nat
  off : Nat
  len : Nat
  trec : Option TensorRec
  origin : List Int
  extent : List Nat
  deriving DecidableEq, Repr

/-- A window line that is filling or present: its physical line and the page rights (R277, R391). `cause` is not 0 where
the line's fill has failed and its touchers are to issue again (R391, R392). -/
structure WinLine where
  present : Bool
  pa : Nat
  w : Bool
  u : Bool
  /-- The page that the fill's translation used has 2^bits bytes (R222, R391). -/
  bits : Nat
  cause : Nat := 0
  deriving DecidableEq, Repr

/-- A team (R232 to R234, R255, R256, R275, R276). Window lines are keyed slot × 65,536 + line. -/
structure Team where
  ctx : Nat
  grid : Nat
  index : Nat
  cluster : Nat
  rank : Nat
  core : Nat
  home : Nat
  /-- The Kennel set: the home cores of the cluster's teams (R256). -/
  kset : List Nat
  life : Life
  groups : List Nat
  tlsSize : Nat
  winSize : Nat
  tls : Memory := []
  windows : SMap Window := []
  lines : SMap WinLine := []
  /-- Storage still counted after the team ended, until its copies complete (R255). -/
  lingering : Bool := false
  /-- Queued for relaunch or restore (R253, R265, R267). -/
  wanted : Bool := false
  /-- Its team-local storage's 8-byte words with an uncorrectable error, until they are written (R464). -/
  poison : List Nat := []
  deriving DecidableEq, Repr

/-- A task-table entry, and a graph node (R250, R251). -/
structure TaskEntry where
  entry : Nat
  arg : Nat
  deriving DecidableEq, Repr

structure Node where
  entry : Nat
  ceil : Nat
  floor : Nat
  timeout : Nat
  recsz : Nat
  mpart : Nat
  batch : Nat
  deriving DecidableEq, Repr

/-- A launch parameter block's fields (R249). -/
structure Lpb where
  ntask : Nat
  tasks : Nat
  done : Nat
  ndep : Nat
  deps : Nat
  nnode : Nat
  graph : Nat
  cbt : Nat
  budget : Nat
  deadline : Nat
  depwait : Nat
  persist : Bool
  priority : Nat
  cls : Nat
  safept : Nat
  tceil : Nat
  linkres : Nat
  tpart : Nat
  kpart : Nat
  ksl : Nat
  win : Nat
  tls : Nat
  sregs : Nat
  vregs : Nat
  teamz : Nat
  teamy : Nat
  teamx : Nat
  swizzle : Nat
  order : Nat
  crows : Nat
  ccols : Nat
  ngrp : Nat
  width : Nat
  entry : Nat
  code : Nat
  deriving DecidableEq, Repr

/-- A queued task (R94, R258): table index, argument record, Mire entry. -/
structure QTask where
  index : Nat
  record : List Byte
  entry : Nat
  deriving DecidableEq, Repr

/-- A committed record of a node (R99, R259). -/
structure Committed where
  addr : Nat
  time : Nat
  deriving DecidableEq, Repr

/-- A ready batch that has timed out: node, the commit time of its oldest record, its records (R259). -/
structure Batch where
  node : Nat
  time : Nat
  addrs : List Nat
  deriving DecidableEq, Repr

/-- A request packet, kept until its completion with the error record and the remapping table of its interface
(R433 to R436, R444). -/
structure Packet where
  q : Nat
  caddr : Nat
  ire : Nat
  pasid : Nat
  seq : Nat
  cmode : Nat
  erra : Nat
  rtab : Nat
  deriving DecidableEq, Repr

/-- A launch that has arrived and whose LPB is still to be read (R249, R253); it may wait for a page request
(R392, path H), which may have resolved as failed. -/
structure Launch where
  ctx : Nat
  lpb : Nat
  super : Bool
  packet : Option Packet
  /-- The packet that a dependant's launch goes back to. -/
  root : Option Packet
  arrived : Nat
  waits : Option Nat
  failed : Bool
  /-- The LPB once it has been read: later changes to it have no effect (R249). -/
  image : Option Nat := none
  /-- A grid that a recovery launches again (R467), with the triggers it had been counted. -/
  again : Bool := false
  got : Nat := 0
  /-- It is the work of a persistent grid (R453). -/
  kin : Bool := false
  deriving DecidableEq, Repr

/-- A launched grid, or a launch that waits (R249 to R261). -/
structure Grid where
  ctx : Nat
  lpbAddr : Nat
  lpb : Lpb
  banks : List Nat
  taskTable : List TaskEntry
  nodes : List Node
  deps : List Nat
  mode : Bool
  arrived : Nat
  /-- Its record in the context's control block (R465). -/
  slot : Nat := 0
  /-- The queue packet it was launched from, none for a dependant (R434, R435). -/
  packet : Option Packet := none
  root : Option Packet := none
  /-- A packet launch awaits DEPWAIT triggers, of which `got` have been counted to it (R254). -/
  waiting : Bool := false
  got : Nat := 0
  /-- Its Mire shares are set aside (R335). -/
  started : Bool := false
  /-- Clusters placed so far, in traversal order. -/
  placed : Nat := 0
  tasks : List QTask := []
  /-- Aborted tasks that wait for a page, with the faulting address and the mode (R95, R244). -/
  aborted : List (QTask × Nat × Bool) := []
  committed : SMap (List Committed) := []
  ready : List Batch := []
  triggered : Bool := false
  overBudget : Bool := false
  /-- Core time that its teams have used, in clocks (R261). -/
  used : Nat := 0
  /-- Ended by the host: no team is placed any more, and it ends without retirement (R446, R451, R453). -/
  discarded : Bool := false
  /-- The page request that its DONE add or its completion record awaits, and whether one has resolved as failed (R254,
  R392). -/
  doneWait : Option Nat := none
  doneFailed : Bool := false
  /-- It has retired, and its DONE add has been made or has failed: its completion record is still to be written (R435, R466). -/
  retired : Bool := false
  added : Bool := false
  /-- It is the work of a persistent grid (R453). -/
  kin : Bool := false
  deriving DecidableEq, Repr

/-- A Kennel tile (R165 to R176, R323). -/
structure Tile where
  ctx : Nat
  core : Nat
  slot : Nat
  units : Nat
  part : Nat
  /-- The grid in whose share it stands, if any (R319). -/
  share : Option Nat
  team : Nat
  group : Nat
  sealed : Bool
  reads : Nat
  remain : Nat
  taken : Nat
  outst : Nat
  bytes : Memory
  /-- Its 8-byte words with an uncorrectable error, until they are written (R464). -/
  poison : List Nat := []
  deriving DecidableEq, Repr

/-- A partition entry of a Kennel or Mire configuration (R318, R334). -/
structure Part where
  en : Bool := false
  sh : Bool := false
  ceil : Nat := 0
  floor : Nat := 0
  deriving DecidableEq, Repr

/-- A pool configuration: SLICE, or MIREB and SIZE, and 16 partitions. -/
structure Pool where
  base : Nat := 0
  size : Nat := 0
  parts : List Part := []
  deriving DecidableEq, Repr

/-- A grid's Kennel share on a core (R319). -/
structure Share where
  grid : Nat
  ctx : Nat
  core : Nat
  part : Nat
  units : Nat
  deriving DecidableEq, Repr

/-- The Kennel: tiles, generations keyed core × 32,768 + slot, shares (R317, R319), and how often a unit has been freed
or a tile sealed in each space (R331). -/
structure Kennel where
  tiles : List Tile := []
  gens : SMap Nat := []
  shares : List Share := []
  stir : SMap Nat := []
  deriving DecidableEq, Repr

/-- A Mire allocation (R334 to R336): a node's records or a task entry of a grid. -/
structure MireBlock where
  ctx : Nat
  grid : Nat
  node : Option Nat
  part : Nat
  granule : Nat
  count : Nat
  deriving DecidableEq, Repr

/-- A pair's link controller (R180, R202, R337, R352). Requests are (group, age). -/
structure PairCtl where
  reserve : Nat := 0
  tiles : List Nat := []
  leashOwner : Option Nat := none
  ramp : Nat := 0
  burst : Nat := 0
  /-- The group whose step runs, if any. -/
  running : Option Nat := none
  /-- The clock at which the grid last ran, or was started. -/
  idle : Nat := 0
  deriving DecidableEq, Repr

/-- A word held in an L1 or a window line (R280): its value and the owned bit. -/
structure L1Word where
  val : Word
  owned : Bool
  deriving DecidableEq, Repr

/-- The registry of a word at its L2 slice (R281). -/
structure Owner where
  core : Nat
  current : Bool
  deriving DecidableEq, Repr

/-- A sector of an L2 slice (R280): its 32 words, and whether it is dirty. -/
structure L2Sector where
  data : List Word
  dirty : Bool
  deriving DecidableEq, Repr

/-- A line of an SLC slice with its directory entry (R280, R284): an L2 slice holds it; device ownership of its words has
been recorded; the host cores that cache it; its valid and its dirty sectors, by PA / 128; and that class D allocated it
under a reservation, in its reserved ways (R260). -/
structure SlcLine where
  l2 : Bool := false
  owned : Bool := false
  hosts : List Nat := []
  valid : List Nat := []
  dirty : List Nat := []
  forD : Bool := false
  deriving DecidableEq, Repr

/-- The memory hierarchy (R274 to R288): `cells` are SLC and LPDDR as every access below the L2 slices finds them (log 140);
sectors of the L2 slices; L1 words are keyed core × 2^46 + word; dirty sectors core × 2^41 + sector; registrations in flight
in order; the SLC's lines, whether class D makes the accesses of this step, and the ways that DRES reserves for it (R260);
prefetch misses in flight (core, sector); the path-T read caches, sectors keyed as L1 sectors (R285); and the 8-byte words
that an uncorrectable error has poisoned (R464). -/
structure MemSys where
  cells : Memory := []
  l2 : SMap L2Sector := []
  registry : SMap Owner := []
  l1 : SMap L1Word := []
  dirty : SMap Unit := []
  regq : List (Nat × Nat) := []
  slc : SMap SlcLine := []
  slcD : Bool := false
  slcWays : Nat := 0
  misses : List (Nat × Nat) := []
  /-- Lines whose notifying writes await their evaluation (R160), and the counters among them that have gained (R265). -/
  notify : List Nat := []
  adds : List Nat := []
  reads : SMap (List Word) := []
  poison : List Nat := []
  deriving DecidableEq, Repr

/-- A translation cache (R388). -/
inductive Cache where
  | core (c : Nat)
  | ahead (c : Nat)
  | sampler (c : Nat)
  | frontEnd
  | copyEngine
  | streaming
  deriving DecidableEq, Repr

/-- A cached leaf (R388): page of 2^bits bytes, combined rights; `s2` marks a combined entry. -/
structure TlbEntry where
  cache : Cache
  ctxid : Nat
  vmid : Nat
  pasid : Nat
  va : Nat
  bits : Nat
  pa : Nat
  w : Bool
  u : Bool
  x : Bool
  s2 : Bool
  deriving DecidableEq, Repr

/-- A cached table pointer (R388): stage, level and the address prefix that selects it. -/
structure PtrEntry where
  core : Nat
  ctxid : Nat
  vmid : Nat
  pasid : Nat
  stage2 : Bool
  level : Nat
  pfx : Nat
  addr : Nat
  deriving DecidableEq, Repr

/-- A posted page request (R393, R394): the engine that waits, where its record stands, and what it concerns. -/
structure PageReq where
  engine : Cache
  ctx : Nat
  pasid : Nat
  path : Nat
  stage2 : Bool
  addr : Nat
  wr : Bool
  record : Option Nat
  deriving DecidableEq, Repr

/-- Translation state outside memory (R386 to R394). -/
structure Trans where
  tlb : List TlbEntry := []
  ptrs : List PtrEntry := []
  reqs : SMap PageReq := []
  nextReq : Nat := 0
  deriving DecidableEq, Repr

/-- What a copy moves on its memory side: a run of bytes, or a box of a tensor (R147, R148). -/
inductive Shape where
  | run (va : Nat) (len : Nat)
  | box (trec : TensorRec) (origin : List Int) (extent : List Nat)
  | tile (core : Nat) (slot : Nat) (gen : Nat) (off : Nat) (len : Nat)
  deriving DecidableEq, Repr

/-- What a copy moves on its stash side. -/
inductive Near where
  | tls (team : Nat) (off : Nat)
  | tile (core : Nat) (slot : Nat) (gen : Nat) (off : Nat)
  deriving DecidableEq, Repr

/-- A copy's completion object (R150). -/
inductive Completion where
  | ctr (va : Nat)
  | pb (team : Nat) (off : Nat)
  deriving DecidableEq, Repr

/-- A copy in flight (R148 to R152): `left` are the chunks not counted; `covered` the destination runs that
higher lanes of the same LCOPY write; `holds` the claims that its last chunk counts down (R172). -/
structure Copy where
  group : Nat
  team : Nat
  ctx : Nat
  core : Nat
  super : Bool
  pathT : Bool
  out : Bool
  shape : Shape
  near : Near
  compl : Completion
  bytes : Nat
  left : List Nat
  covered : List (Nat × Nat)
  holds : Nat
  waits : Option Nat
  /-- Suspended while its team is saved (R266). -/
  paused : Bool
  deriving DecidableEq, Repr

/-- A word queued on the mesh: a remote stash store, or a Kennel operation from another core (R287, R327). A count-down
lowers REMAIN by n and OUTST by o, which differ for TREAD.stash (R172). -/
inductive MeshOp where
  | stash (group : Nat) (team : Nat) (off : Nat) (data : List Byte)
  | seal (group : Nat) (core : Nat) (slot : Nat) (gen : Nat)
  | countDown (group : Nat) (core : Nat) (slot : Nat) (gen : Nat) (n : Nat) (o : Nat)
  | unclaim (group : Nat) (core : Nat) (slot : Nat) (gen : Nat) (n : Nat)
  deriving DecidableEq, Repr

/-- A confidential context's key (R459, R460): algorithm, key, last COPYIN IV accepted, COPYOUT count. -/
structure ConfKey where
  alg : Nat
  key : List Byte
  lastIv : Option Nat
  outs : Nat
  deriving DecidableEq, Repr

/-- A trigger counted toward the scheduler's own launch of a dependant (R252, R254, R365, R453): its clock, whether the grid ran
in supervisor mode, the packet that the launch goes back to, and whether the grid persists or is the work of one that does. -/
structure Trigger where
  time : Nat
  super : Bool
  root : Option Packet
  kin : Bool
  deriving DecidableEq, Repr

/-- A context: the copies read at binding (R443, R386), its CSRs (R220), its pools, its trigger counts
by LPB address (R254), GCB places in use, and the CCB's generation (R465). -/
structure Ctx where
  bound : Bool := false
  /-- The identifier that its translations carry (R386). -/
  tag : Nat := 0
  pasid : Nat := 0
  evt : Nat := 20
  elog : Nat := 0
  elogsz : Nat := 0
  save : Nat := 0
  savesz : Nat := 0
  pctx : Bool := false
  tdesc : Nat := 0
  prqb : Nat := 0
  prqsz : Nat := 0
  vmid : Nat := 0
  s1root : Nat := 0
  s2root : Nat := 0
  s2en : Bool := false
  shvec : Nat := 0
  kab : Nat := 0
  kcfg : Pool := {}
  mcfg : Pool := {}
  /-- Triggers counted toward the scheduler's own launches, by LPB address (R254). -/
  triggers : SMap (List Trigger) := []
  gcbs : List Nat := []
  ccbGen : Nat := 0
  conf : Option ConfKey := none
  deriving DecidableEq, Repr

/-- A queue interface (R431, R444). -/
structure Iface where
  opened : Bool := false
  ctx : Nat := 0
  erra : Nat := 0
  rtn : Nat := 0
  rtab : Nat := 0
  priv : Bool := false
  ring : Nat := 0
  rsz : Nat := 0
  head : Nat := 0
  tail : Nat := 0
  deriving DecidableEq, Repr

/-- A host wait in the wake table (R449). -/
structure HostWait where
  pa : Nat
  va : Nat
  bits : Nat
  ctx : Nat
  value : Nat
  cond : Nat
  wakea : Nat
  token : Nat
  deriving DecidableEq, Repr

/-- The host side: BAR0 registers, interfaces, the command block, wait table, outputs (R431 to R453). -/
structure HostIf where
  ctxtb : Nat := 0
  qitb : Nat := 0
  dres : Nat := 0
  ready : Bool := false
  restart : Bool := false
  cmda : Nat := 0
  cmdb : Nat := 0
  cmdc : Nat := 0
  cmdd : Nat := 0
  cmdState : Nat := 0
  cmdCode : Nat := 0
  cmdLost : Bool := false
  /-- The command that runs, and its first operand: what its completion waits for (R445, R451). -/
  cmdOp : Nat := 0
  cmdArg : Nat := 0
  ifaces : SMap Iface := []
  lastServed : Nat := 63
  revoked : List Nat := []
  launches : List Launch := []
  waits : List HostWait := []
  /-- Interrupt messages sent (ADDR, DATA), oldest first: an output (R436). -/
  messages : List (Nat × Nat) := []
  /-- The value the last host read returned: an output. -/
  lastRead : List Byte := []
  deriving DecidableEq, Repr

/-- A protected carve-out (R456). -/
structure CarveOut where
  en : Bool := false
  base : Nat := 0
  size : Nat := 0
  owner : Nat := 0
  deriving DecidableEq, Repr

/-- A COPYIN or COPYOUT that runs (R460): its context and direction, the physical runs of its virtual range and its counter, the
algorithm, key, IV and length, the virtual and the host address, the bytes that it has read, and whether its tag matches. -/
structure CopyJob where
  ctx : Nat
  out : Bool
  runs : List (Nat × Nat)
  counter : Nat
  alg : Nat
  key : List Byte
  iv : List Byte
  len : Nat
  va : Nat
  host : Nat
  data : List Byte
  good : Bool
  deriving DecidableEq, Repr

/-- The service capability and the security engine (R454 to R464). -/
structure Service where
  sreq : Nat := 0
  sstat : Nat := 0
  scode : Nat := 0
  /-- The request that runs: the code it ends with, or it waits for a recovery to end (R454, R455). -/
  result : Nat := 0
  pend : Bool := false
  job : Option CopyJob := none
  viol : Nat := 0
  rstat : Nat := 0
  recoveries : Nat := 0
  cecnt : Nat := 0
  uecnt : Nat := 0
  carves : SMap CarveOut := []
  /-- The part has stopped; only a cold reset restarts it (R464). -/
  stopped : Bool := false
  deriving DecidableEq, Repr

/-- Power states (R470). -/
inductive PowerState where
  | run
  | listen
  | retain
  | off
  deriving DecidableEq, Repr

/-- The power controller and bring-up (R468 to R473). -/
structure Power where
  state : PowerState := .run
  pwrctl : Nat := 0x2D
  pwake : Nat := 0
  busy : Bool := false
  target : PowerState := .run
  code : Nat := 0
  brup : Nat := 0
  brupFail : Nat := 0
  /-- Bring-up runs (R473). -/
  rising : Bool := false
  /-- The contexts enabled when the part entered Retain, which the power controller keeps for PWRCTL (R469; log 187). -/
  enabled : List Nat := []
  stoppedCores : List Nat := []
  /-- LPDDR 6 channels out of self-refresh in Listen. -/
  activeChannels : List Nat := []
  throttled : Bool := false
  /-- A notifying write has left the PWAKE word non-zero in Listen (R471). -/
  wakeDue : Bool := false
  deriving DecidableEq, Repr

/-- Snapshots and performance counters (R220, R474 to R476). Counters are keyed core × 64 + counter: 0 to 5 words
issued by partition, 6 to 11 and 12 to 17 the group context number and offset last selected there, 18 to 20 steps
committed by pair, 21 corrected soft errors, 22 to 27 packed issue slots by partition, 28 to 30 filler clocks by pair. Records are lists of 8-byte numbers. -/
structure Snap where
  snapctl : Nat := 0
  held : Bool := false
  tag : Nat := 0
  src : Nat := 0
  clk : Nat := 0
  latched : SMap (List Nat) := []
  counters : SMap Nat := []
  deriving DecidableEq, Repr

/-- A queued or running texture-page fill (R396, R397). -/
structure Fill where
  ctx : Nat
  /-- Virtual addresses of the page, of the index entry, of the residency map's word, and its bit. -/
  page : Nat
  index : Nat
  mapWord : Nat
  bit : Nat
  running : Bool
  /-- Once it runs: first logical block, stored length, whether stored raw; the page request it awaits, and whether
  one has resolved as failed. -/
  lba : Nat := 0
  clen : Nat := 0
  raw : Bool := false
  waits : Option Nat := none
  failed : Bool := false
  deriving DecidableEq, Repr

/-- The streaming engine (R396, R397, R446). -/
structure Stream where
  fills : SMap Fill := []
  nextFill : Nat := 0
  sq : Nat := 0
  cq : Nat := 0
  qinfo : Nat := 0
  qdoor : Nat := 0
  granted : Bool := false
  /-- NVM Express read commands sent, (first logical block, blocks), oldest first: an output (R397). -/
  reads : List (Nat × Nat) := []
  deriving DecidableEq, Repr

/-- A cached decode table of a core (R415), by its tags. -/
structure DecodeEntry where
  core : Nat
  ctx : Nat
  addr : Nat
  gen : Nat
  bytes : List Byte
  deriving DecidableEq, Repr

/-- The tags of a decoded block, its generic address, and its valid texels as four FP16 codes each. -/
structure TexelBlock where
  core : Nat
  ctx : Nat
  base : Nat
  dtab : Nat
  dgen : Nat
  level : Nat
  layer : Nat
  block : Nat
  va : Nat
  /-- Its page has 2^bits bytes (R222). -/
  bits : Nat
  texels : SMap (List Nat) := []
  deriving DecidableEq, Repr

/-- A soft error (R354, R464), and where it strikes: VRF registers of a group; a block, or the slab area, of its tile;
an 8-byte word of memory by PA / 8, of team-local storage or of a Kennel tile by its offset / 8; a clean L1 word; an
entry of the decode-table or decoded-texel cache; a BBT entry; or one that a core's code corrected. -/
inductive SoftError where
  | registers (g : Nat)
  | block (g : Nat) (b : Nat)
  | slab (g : Nat)
  | memory (w : Nat)
  | stash (team : Nat) (w : Nat)
  | tile (core : Nat) (slot : Nat) (w : Nat)
  | clean (c : Nat) (w : Nat)
  | decode (k : Nat)
  | texel (k : Nat)
  | bbt (g : Nat)
  | corrected (c : Nat)
  deriving DecidableEq, Repr

/-- What the next steps do: an event (a row without an encoding), one word of a group, a soft error, an atomic of a host
core on a word (R288), or the arrival of the k-th render-target word in flight at its slice (R218). -/
inductive Act where
  | event (i : Instr)
  | issue (g : Nat)
  | error (e : SoftError)
  | hostAtomic (pa : Nat) (op : Nat) (b : Word) (b2 : Word)
  | target (k : Nat)
  deriving DecidableEq, Repr

/-- Where a byte of a render target stands: in memory, or in a Kennel tile of a generation. -/
inductive Place where
  | mem (pa : Nat)
  | tile (core : Nat) (slot : Nat) (gen : Nat) (off : Nat)
  deriving DecidableEq, Repr

/-- What a render-target word does to one tile (R214 to R216): pixels written, the clear mode, or its expansion. -/
inductive TargetOp where
  | pixels (l : List (Nat × Nat))
  | clear
  | expand
  deriving DecidableEq, Repr

/-- A render-target word in flight to one tile's slice (R218): its group, core and threads, the mode byte, the slot where
the word needs it, the clear colour, and what it does; and the generic addresses of the mode byte and the slot. -/
structure TargetWord where
  group : Nat
  core : Nat
  map : Lanes
  mode : Place
  slot : Option Place
  clear : Nat
  op : TargetOp
  modeVa : Nat
  slotVa : Nat
  deriving DecidableEq, Repr

/-- A write through path H that awaits a page request (R392): the record of a refusal, a context's control block, or the
residency code that ends a fill. -/
inductive HKind where
  | record (p : Packet) (kind : Nat) (code : Nat)
  | control
  | code (bit : Nat) (code : Nat)
  deriving DecidableEq, Repr
structure HWait where
  ctx : Nat
  va : Nat
  kind : HKind
  req : Nat
  deriving DecidableEq, Repr

/-- The issue slots of a partition (R262): whose turn it is among the lower classes, and the clock until which its X pipe
is busy. -/
structure Slots where
  turn : Bool := false
  busyX : Nat := 0
  deriving DecidableEq, Repr

/-- The word being issued (R37, R225): its group, issue set, packet, slot, the literal of its
predecessor, and whether its chain bit is set. -/
structure Cur where
  gid : Nat
  map : Lanes
  pc : Nat
  slot : Nat
  lit : Nat
  chain : Bool
  deriving DecidableEq, Repr

/-- The whole part. -/
structure State where
  agenda : List Act := []
  tick : Nat := 0
  clock : Nat := 0
  cur : Option Cur := none
  groups : SMap Group := []
  teams : SMap Team := []
  grids : SMap Grid := []
  /-- Grid identifiers in the order of their launches' arrival; the next fresh identifier (R14). -/
  nextId : Nat := 1
  /-- The issue slots of the partitions, keyed core × 6 + partition; and the partition, group and pipe of a single word
  that has just issued first in this clock (R262). -/
  slots : SMap Slots := []
  second : Option (Nat × Nat × Nat) := none
  kennel : Kennel := {}
  mire : List MireBlock := []
  /-- How often granules of a context's Mire partition have returned or been committed, keyed context × 16 + partition; and
  the detectors whose conditions hold (R331, R336): the clock since which, and what they had counted then. -/
  mireStir : SMap Nat := []
  detectors : SMap (Nat × Nat) := []
  pairs : SMap PairCtl := []
  mem : MemSys := {}
  trans : Trans := {}
  copies : SMap Copy := []
  mesh : List MeshOp := []
  ctxs : SMap Ctx := []
  host : HostIf := {}
  svc : Service := {}
  pwr : Power := {}
  snap : Snap := {}
  stream : Stream := {}
  decodes : List DecodeEntry := []
  texels : List TexelBlock := []
  /-- Render-target words in flight (R218), and writes of path H that await a page (R392). -/
  targets : List TargetWord := []
  hwaits : List HWait := []
  deriving DecidableEq, Repr

/-- Why the machine stops. -/
inductive Fault where
  /-- Raised by `step` and by every event but COLD_RESET when the part is Off (R470) or stopped by the
  Collie's own lockstep comparison or a failed bring-up check (R464, R473). Safe: the part does nothing. -/
  | partStopped
  deriving DecidableEq, Repr

/-- Why an instruction has no meaning here. -/
inductive Refusal where
  /-- Raised by the arms of `exec` for an instruction not modelled yet. Safe. -/
  | notModelled (mnemonic : String)
  deriving DecidableEq, Repr

/-- Right after reset: every register at its reset value (R6, R220, R442, R445, R454, R468), memory zero
(R473), no context bound, no grid, no group, nothing in flight; and bring-up runs (R473; log 189). -/
def State.reset : State :=
  { pwr := { rising := true } }

end Sys2Proof.Machine
end

