-- ==== Sys2Proof/Machine/Hierarchy.lean ====
section
/-! DEFINITION. The memory hierarchy (12, R274 to R288): homes, what each path reads and writes, ownership
registrations and recalls, write-backs, releases and acquires, and host accesses. Words are numbered by
PA / 4, sectors by PA / 128. A registration waits in `regq` until it is applied. -/

namespace Sys2Proof.Machine

/-- The little-endian word of four bytes, and its bytes (R4). -/
def word4 (a b c d : Byte) : Word := d ++ c ++ b ++ a
def byteOf (w : Word) (i : Nat) : Byte := (w >>> (8 * i)).setWidth 8
def wordBytes4 (w : Word) : List Byte := [byteOf w 0, byteOf w 1, byteOf w 2, byteOf w 3]

/-- The word with byte i replaced. -/
def setByteOf (w : Word) (i : Nat) (b : Byte) : Word :=
  (w &&& ~~~((0xFF : Word) <<< (8 * i))) ||| (b.setWidth 32 <<< (8 * i))

/-- n bytes of a memory from an address, and a run of bytes stored. -/
def Memory.read (m : Memory) (a : Nat) : Nat → List Byte
  | 0 => []
  | n + 1 => Memory.get m a :: Memory.read m (a + 1) n
def Memory.write (m : Memory) (a : Nat) : List Byte → Memory
  | [] => m
  | b :: r => Memory.write (Memory.set m a b) (a + 1) r

/-- The 32-bit word at a byte address of a memory. -/
def Memory.word (m : Memory) (a : Nat) : Word :=
  word4 (Memory.get m a) (Memory.get m (a + 1)) (Memory.get m (a + 2)) (Memory.get m (a + 3))
def Memory.setWord (m : Memory) (a : Nat) (w : Word) : Memory := Memory.write m a (wordBytes4 w)

/-- The unsigned number of a run of bytes, lowest first (R4), and the bytes of a number. -/
def natOf : List Byte → Nat
  | [] => 0
  | b :: r => b.toNat + 256 * natOf r
def bytesOf : Nat → Nat → List Byte
  | 0, _ => []
  | n + 1, x => BitVec.ofNat 8 x :: bytesOf n (x / 256)

/-! ## Homes (R1, R3, R279) -/

/-- The home L2 slice of a line, 0 to 23, and the two cores that a slice serves (R1, R279). -/
def l2Slice (line : Nat) : Nat := line % 24
def sliceCores (n : Nat) : List Nat := [2 * n, 2 * n + 1]

/-- The home SLC slice of a physical address, 0 to 31 (R279). -/
def slcSlice (pa : Nat) : Nat := (pa / 2 ^ 8 % 32) ^^^ (pa / 2 ^ 13 % 32)

/-- Lines of a core's L1 (320 KiB), of an L2 slice (48 MiB in 24) and of an SLC slice (64 MiB in 32) (R3, R280). -/
def l1Lines : Nat := 320 * 1024 / 256
def l2Lines : Nat := 48 * 2 ^ 20 / 24 / 256
def slcLines : Nat := 64 * 2 ^ 20 / 32 / 256

/-- The ways of a set of an SLC slice, and the sets of a slice (R3, R280). -/
def slcWayCount : Nat := 16
def slcSets : Nat := slcLines / slcWayCount

/-- The keys of a core's L1 word and of its dirty sector. -/
def l1Key (c w : Nat) : Nat := c * 2 ^ 46 + w
def secKey (c x : Nat) : Nat := c * 2 ^ 41 + x

/-- The lines that a core's words stand in. -/
def MemSys.linesOf (m : MemSys) (c : Nat) : List Nat :=
  ((m.l1.filter (fun e => e.1 / 2 ^ 46 == c)).map (fun e => e.1 % 2 ^ 46 / 64)).dedup

/-- A line written by a notifying write: its waiters are evaluated once the write is visible (R160). -/
def MemSys.note (m : MemSys) (line : Nat) : MemSys :=
  if m.notify.contains line then m else { m with notify := m.notify ++ [line] }

/-- An entry joins a list that does not hold it. -/
def addNew (l : List Nat) (x : Nat) : List Nat := if l.contains x then l else l ++ [x]

/-! ## A word at its home (R281) -/

/-- A word as the SLC holds it, and a sector of 32. -/
def MemSys.slcWord (m : MemSys) (w : Nat) : Word := Memory.word m.cells (4 * w)
def MemSys.slcSector (m : MemSys) (x : Nat) : List Word := (List.range 32).map (fun i => m.slcWord (32 * x + i))

/-- A word as its L2 slice answers it: the slice's sector, or the SLC's word on a miss (R280, R281). -/
def MemSys.l2Word (m : MemSys) (w : Nat) : Word :=
  match SMap.find m.l2 (w / 32) with
  | some e => e.data.getD (w % 32) 0
  | none => m.slcWord w

/-- The recall of a word from a displaced owner: it clears the word, unless it holds a newer store whose registration
is still in flight (R281; log 14). -/
def MemSys.recallFrom (m : MemSys) (d w : Nat) : MemSys :=
  if m.regq.contains (d, w) then m else { m with l1 := SMap.erase m.l1 (l1Key d w) }

/-- A registration reaches the slice: another owner is recalled, and c becomes the owner (R281). Beyond the physical address
space no slice has the word. -/
def MemSys.register (m : MemSys) (c w : Nat) : MemSys :=
  let m := { m with regq := m.regq.erase (c, w) }
  let m := match SMap.find m.registry w with
    | some o => if o.core = c then m else m.recallFrom o.core w
    | none => m
  if w < 2 ^ 46 then { m with registry := SMap.put m.registry w ⟨c, false⟩ } else m

/-- Applies registrations in order. -/
def MemSys.registerAll (m : MemSys) : List (Nat × Nat) → MemSys
  | [] => m
  | (c, w) :: r => MemSys.registerAll (m.register c w) r

/-- A core's registration of a word is acknowledged: it is applied after those of the word that stand before it
(R281, R294). Registrations of a word so reach its slice in the order in which they were sent (log 165). -/
def MemSys.ackWord (m : MemSys) (c w : Nat) : MemSys :=
  if m.regq.contains (c, w) then
    m.registerAll ((m.regq.filter (fun e => e.2 == w)).takeWhile (fun e => e != (c, w)) ++ [(c, w)])
  else m

/-- The other word of an aligned pair. -/
def sibling (w : Nat) : Nat := if w % 2 = 0 then w + 1 else w - 1

/-- The registrations of a wide store's aligned pair reach the slice together (R385; log 141). -/
def MemSys.ack (m : MemSys) (c w : Nat) : MemSys :=
  if m.regq.contains (c, w) then (m.ackWord c w).ackWord c (sibling w) else m

/-- Every registration of a core in flight is acknowledged (R282). -/
def MemSys.drainCore (m : MemSys) (c : Nat) : MemSys :=
  (m.regq.filter (fun e => e.1 == c)).foldl (fun m e => m.ack c e.2) m

/-- A forwarded read waits at an owner that holds an unacknowledged registration of the word (R281, R295). -/
def MemSys.settle (m : MemSys) (w : Nat) : MemSys :=
  match SMap.find m.registry w with
  | some o => if o.current then m else m.ack o.core w
  | none => m

/-- The same for k words. -/
def MemSys.settleRun (m : MemSys) (w : Nat) : Nat → MemSys
  | 0 => m
  | k + 1 => MemSys.settleRun (m.settle w) (w + 1) k

/-- A forwarded read of an aligned 8-byte word waits at the owners of both halves (R385; log 141). -/
def MemSys.settlePair (m : MemSys) (a : Nat) : MemSys := (m.settle (a / 4)).settle (a / 4 + 1)

/-- The slice's answer for a word: its owner's value by forwarding where the slice's copy is not current (R281). -/
def MemSys.sliceWord (m : MemSys) (w : Nat) : Word :=
  match SMap.find m.registry w with
  | some o =>
    if o.current then m.l2Word w
    else match SMap.find m.l1 (l1Key o.core w) with
      | some e => e.val
      | none => m.l2Word w
  | none => m.l2Word w

/-- The value that a read at the home slice returns, once an owner's registration in flight has been acknowledged. -/
def MemSys.readWord (m : MemSys) (w : Nat) : Word := (m.settle w).sliceWord w

/-- The value a path-L read of core c returns: its own valid copy, else the slice's answer (R281). -/
def MemSys.coreWord (m : MemSys) (c w : Nat) : Word :=
  match SMap.find m.l1 (l1Key c w) with
  | some e => e.val
  | none => m.readWord w

/-- The owner of a word is recalled and no owner stands (R284, R285). -/
def MemSys.disown (m : MemSys) (w : Nat) : MemSys :=
  match SMap.find m.registry w with
  | some o =>
    let m := m.recallFrom o.core w
    { m with registry := SMap.erase m.registry w }
  | none => m
def MemSys.disownRun (m : MemSys) (w : Nat) : Nat → MemSys
  | 0 => m
  | k + 1 => MemSys.disownRun (m.disown w) (w + 1) k

/-! ## The SLC, its directory and the sectors of the L2 slices -/

/-- What is kept of a line leaves the SLC and the slices; where a copy of it was newer than memory, its bytes go to memory
and its writes become visible (R160, R280). -/
def MemSys.lineGone (m : MemSys) (line : Nat) (held : Bool) (d : List Byte) : MemSys :=
  let m := { m with
    l2 := SMap.erase (SMap.erase m.l2 (2 * line)) (2 * line + 1)
    cells := if held then Memory.write m.cells (256 * line) d else m.cells
    slc := SMap.erase m.slc line }
  if held then m.note line else m

/-- A line leaves its SLC slice: the device ownership of its words is recalled with their values, the L2 slice's copy goes,
and its dirty sectors are written back to LPDDR (R280, R284). What leaves L1 or L2 dirty becomes visible with it (R160). -/
def MemSys.slcDrop (m : MemSys) (line : Nat) : MemSys :=
  let m := m.settleRun (64 * line) 64
  let ws := (List.range 64).map (fun i => m.sliceWord (64 * line + i))
  let held := [2 * line, 2 * line + 1].any (fun x => ((SMap.find m.l2 x).map (fun e => e.dirty)).getD false)
    || (List.range 64).any (fun i => ((SMap.find m.registry (64 * line + i)).map (fun o => !o.current)).getD false)
  (m.disownRun (64 * line) 64).lineGone line held (ws.flatMap wordBytes4)

/-- The set of an SLC slice that a line belongs to, of sets of 16 ways (R3, R280; log 140). -/
def slcSet (line : Nat) : Nat := slcSlice (256 * line) * slcSets + line / 32 % slcSets

/-- The lines of a line's set in the ways that it may use: the reserved ones hold class D's, the others the rest, and
without a reservation one pool of 16 ways serves all (R260, R280). -/
def MemSys.slcPool (m : MemSys) (line : Nat) : SMap SlcLine :=
  m.slc.filter (fun e => slcSet e.1 == slcSet line && (m.slcWays == 0 || e.2.forD == m.slcD))
def MemSys.slcCap (m : MemSys) : Nat := if m.slcWays = 0 then slcWayCount else if m.slcD then m.slcWays else slcWayCount - m.slcWays

/-- A line is allocated in its SLC slice by an access; a full set loses its lowest line (R3, R280; log 140). -/
def MemSys.slcAlloc (m : MemSys) (line : Nat) : MemSys :=
  match SMap.find m.slc line with
  | some _ => m
  | none =>
    let pool := m.slcPool line
    let m := (pool.take (pool.length + 1 - m.slcCap)).foldl (fun m e => m.slcDrop e.1) m
    { m with slc := SMap.put m.slc line { forD := m.slcD && m.slcWays != 0 } }

/-- A line's directory entry changes (R284). -/
def MemSys.dir (m : MemSys) (line : Nat) (f : SlcLine → SlcLine) : MemSys :=
  let m := m.slcAlloc line
  { m with slc := SMap.put m.slc line (f (SMap.getD m.slc line {})) }

/-- A sector is read in the SLC, filled from LPDDR where it is not valid; and one is written there (R280). -/
def MemSys.slcRead (m : MemSys) (x : Nat) : MemSys := m.dir (x / 2) (fun d => { d with valid := addNew d.valid x })
def MemSys.slcWrote (m : MemSys) (x : Nat) : MemSys :=
  m.dir (x / 2) (fun d => { d with valid := addNew d.valid x, dirty := addNew d.dirty x })

/-- A dirty sector of a slice goes to the SLC, which records the slice's copy (R280, R282, R284); its writes become visible
to waiters of scope sys and to the host (R160). -/
def MemSys.pushSector (m : MemSys) (x : Nat) : MemSys :=
  match SMap.find m.l2 x with
  | some e =>
    if e.dirty then
      let m := m.slcWrote x
      ({ m with
        cells := Memory.write m.cells (128 * x) (e.data.flatMap wordBytes4)
        l2 := SMap.put m.l2 x { e with dirty := false } }.dir (x / 2) (fun d => { d with l2 := true, owned := true, hosts := [] })).note (x / 2)
    else m
  | none => m
def MemSys.pushSectors (m : MemSys) : List Nat → MemSys
  | [] => m
  | x :: r => MemSys.pushSectors (m.pushSector x) r

/-- A sector leaves its slice, written back if dirty; the SLC then records the slice's copy of the line only for its other
sector (R284). -/
def MemSys.dropSector (m : MemSys) (x : Nat) : MemSys :=
  let m := m.pushSector x
  match SMap.find m.l2 x with
  | none => m
  | some _ =>
    let m := { m with l2 := SMap.erase m.l2 x }
    if (SMap.find m.l2 (sibling x)).isSome then m else m.dir (x / 2) (fun d => { d with l2 := false })

/-- Room for a sector in its home slice: a full slice loses a sector (R3, R280; log 140). -/
def MemSys.l2Room (m : MemSys) (x : Nat) : MemSys :=
  let own := m.l2.filter (fun e => l2Slice (e.1 / 2) == l2Slice (x / 2))
  if own.length < 2 * l2Lines then m else match own.head? with
  | some e => m.dropSector e.1
  | none => m

/-- A sector is filled from the SLC on a miss (R280). -/
def MemSys.l2Fill (m : MemSys) (x : Nat) : MemSys :=
  match SMap.find m.l2 x with
  | some _ => m
  | none =>
    let m := ((m.l2Room x).slcRead x).dir (x / 2) (fun d => { d with l2 := true })
    { m with l2 := SMap.put m.l2 x ⟨m.slcSector x, false⟩ }

/-- A word of a slice's copy changes; its sector becomes dirty. -/
def MemSys.l2Put (m : MemSys) (w : Nat) (v : Word) : MemSys :=
  let m := m.l2Fill (w / 32)
  { m with l2 := SMap.put m.l2 (w / 32) ⟨((SMap.getD m.l2 (w / 32) ⟨[], true⟩).data).set (w % 32) v, true⟩ }

/-! ## Path L -/

/-- A reply fills a word into a core's L1, under a word that the core owns (R281). -/
def MemSys.fillWord (m : MemSys) (c w : Nat) : MemSys :=
  if ((SMap.find m.l1 (l1Key c w)).map (fun e => e.owned)).getD false then m
  else
    let m := m.settle w
    { m with l1 := SMap.put m.l1 (l1Key c w) ⟨m.sliceWord w, false⟩ }

/-- A read miss fills the whole sector, k words from w on (R280, R281). -/
def MemSys.fillWords (m : MemSys) (c w : Nat) : Nat → MemSys
  | 0 => m
  | k + 1 => MemSys.fillWords (m.fillWord c w) c (w + 1) k
def MemSys.fillSector (m : MemSys) (c x : Nat) : MemSys := (m.l2Fill x).fillWords c (32 * x) 32

/-- A path-L load of a word: a miss fills the sector first. -/
def MemSys.touch (m : MemSys) (c w : Nat) : MemSys :=
  match SMap.find m.l1 (l1Key c w) with
  | some _ => m
  | none => m.fillSector c (w / 32)

/-- A run of bytes holds a word that an uncorrectable error has poisoned (R464). -/
def poisoned (l : List Nat) (a n : Nat) : Bool := l.any (fun w => decide (a / 8 ≤ w ∧ w ≤ (a + n - 1) / 8))

/-- The 8-byte word of a written word holds no error any longer (R464). -/
def unpoison (l : List Nat) (w : Nat) : List Nat := l.filter (fun x => x != w / 2)

/-- A path-L store of a word: owned, dirty, and its registration sent (R281). One to a line that another core's window holds
is no exception: the window's word is recalled as any other owner's is (R277; log 181). -/
def MemSys.store (m : MemSys) (c w : Nat) (v : Word) : MemSys :=
  { m with
    poison := unpoison m.poison w
    l1 := SMap.put m.l1 (l1Key c w) ⟨v, true⟩
    dirty := SMap.put m.dirty (secKey c (w / 32)) ()
    regq := if m.regq.contains (c, w) then m.regq else m.regq ++ [(c, w)] }

/-- A write-back of one word: taken only from the owner (R281). -/
def MemSys.backWord (m : MemSys) (c w : Nat) : MemSys :=
  match SMap.find m.l1 (l1Key c w), SMap.find m.registry w with
  | some e, some o =>
    if e.owned && o.core == c then
      let m := m.l2Put w e.val
      { m with registry := SMap.put m.registry w ⟨c, true⟩ }
    else m
  | _, _ => m
def MemSys.backWords (m : MemSys) (c w : Nat) : Nat → MemSys
  | 0 => m
  | k + 1 => MemSys.backWords ((m.ack c w).backWord c w) c (w + 1) k

/-- A core writes a dirty sector back to its slice, its registrations acknowledged first (R280, R281). -/
def MemSys.backSector (m : MemSys) (c x : Nat) : MemSys :=
  let m := m.backWords c (32 * x) 32
  { m with dirty := SMap.erase m.dirty (secKey c x) }
def MemSys.backSectors (m : MemSys) (c : Nat) : List Nat → MemSys
  | [] => m
  | x :: r => MemSys.backSectors (m.backSector c x) c r

/-- The dirty sectors of a core. -/
def MemSys.dirtyOf (m : MemSys) (c : Nat) : List Nat :=
  (m.dirty.filter (fun e => e.1 / 2 ^ 41 == c)).map (fun e => e.1 % 2 ^ 41)

/-- The dirty sectors of the slices go to the SLC; their writes become visible to waiters of scope sys and to the host
(R160, R282). -/
def MemSys.dirtyL2 (m : MemSys) : List Nat := (m.l2.filter (fun e => e.2.dirty)).map Prod.fst
def MemSys.push (m : MemSys) : MemSys := m.pushSectors m.dirtyL2

/-- A release of path L by threads of core c at a scope (R282): 0 grp, 1 team, 2 clu, 3 dev, 4 sys. Every
dirty sector of the core is written back, which a release may do (log 15). -/
def MemSys.release (m : MemSys) (c scope : Nat) : MemSys :=
  if scope < 2 then m
  else
    let m := m.drainCore c
    let xs := m.dirtyOf c
    let m := xs.foldl (fun m x => m.note (x / 2)) (m.backSectors c xs)
    if scope < 4 then m else m.push

/-- An acquire of path L at a scope: the core's words that it does not own become invalid (R283). -/
def MemSys.acquire (m : MemSys) (c scope : Nat) : MemSys :=
  if scope < 2 then m
  else { m with l1 := m.l1.filter (fun e => e.1 / 2 ^ 46 != c || e.2.owned) }

/-! ## Engines, atomics and the host -/

/-- A copy's or an engine's write of a word at the slice (R285). -/
def MemSys.engineStore (m : MemSys) (w : Nat) (v : Word) : MemSys :=
  let m := ((m.settle w).disown w).l2Put w v
  { m with poison := unpoison m.poison w }

/-- A byte as paths C, T, X and W read it, and as path L of a core reads it. -/
def MemSys.sliceByte (m : MemSys) (a : Nat) : Byte := byteOf (m.readWord (a / 4)) (a % 4)
def MemSys.coreByte (m : MemSys) (c a : Nat) : Byte := byteOf (m.coreWord c (a / 4)) (a % 4)

/-- An engine's write of one byte. -/
def MemSys.engineByte (m : MemSys) (a : Nat) (b : Byte) : MemSys :=
  m.engineStore (a / 4) (setByteOf (m.readWord (a / 4)) (a % 4) b)
def MemSys.engineWrite (m : MemSys) (a : Nat) : List Byte → MemSys
  | [] => m
  | b :: r => MemSys.engineWrite (m.engineByte a b) (a + 1) r

/-- n bytes as an engine reads them at the slices (R285). -/
def MemSys.engineRead (m : MemSys) (a : Nat) : Nat → List Byte
  | 0 => []
  | n + 1 => m.sliceByte a :: MemSys.engineRead m (a + 1) n

/-- A byte through path T of a core's tensor engine, whose read cache may hold the sector (R285). -/
def MemSys.tensorByte (m : MemSys) (c a : Nat) : Byte :=
  match SMap.find m.reads (secKey c (a / 128)) with
  | some l => byteOf (l.getD (a / 4 % 32) 0) (a % 4)
  | none => m.sliceByte a

/-- The read cache of a core's tensor engine takes a sector that it does not hold, and gives up those of some cores
(R285, R302). -/
def MemSys.keepRead (m : MemSys) (c x : Nat) : MemSys :=
  match SMap.find m.reads (secKey c x) with
  | some _ => m
  | none => { m with reads := SMap.put m.reads (secKey c x) ((List.range 32).map (fun i => m.readWord (32 * x + i))) }
def MemSys.dropReads (m : MemSys) (f : Nat → Bool) : MemSys := { m with reads := m.reads.filter (fun e => !f (e.1 / 2 ^ 41)) }

/-- A sector as an engine reads it at its home slice: the slice fills it, and the owners' registrations that the read waits
for are acknowledged (R280, R281, R285). -/
def MemSys.sliceRead (m : MemSys) (x : Nat) : MemSys := (m.l2Fill x).settleRun (32 * x) 32

/-- A host or path-H read of a byte: forwarded where the SLC has recorded device ownership (R284). -/
def MemSys.hostByte (m : MemSys) (a : Nat) : Byte :=
  if (SMap.getD m.slc (a / 256) {}).owned then m.sliceByte a else Memory.get m.cells a
def MemSys.hostRead (m : MemSys) (a : Nat) : Nat → List Byte
  | 0 => []
  | n + 1 => m.hostByte a :: MemSys.hostRead m (a + 1) n

/-- What a host or path-H read of n bytes leaves: the SLC holds their sectors, and the owners' registrations that a
forwarded read waits for are acknowledged (R280, R281, R284). -/
def MemSys.hostReads (m : MemSys) (a n : Nat) : MemSys :=
  if n = 0 then m
  else
    let run := fun (k : Nat) => (List.range ((a + n - 1) / k - a / k + 1)).map (fun i => a / k + i)
    let m := (run 4).foldl (fun (m : MemSys) w => if (SMap.getD m.slc (w / 64) {}).owned then m.settle w else m) m
    (run 128).foldl MemSys.slcRead m

/-- A line leaves its L2 slice: written back where dirty, then invalidated (R284). -/
def MemSys.linePush (m : MemSys) (line : Nat) : MemSys :=
  ((m.dropSector (2 * line)).dropSector (2 * line + 1)).dir line (fun d => { d with l2 := false, owned := false })

/-- A host or path-H write first recalls the device ownership of its words and invalidates the slice's
copy of the line, whose dirty sectors go to the SLC (R284). -/
def MemSys.hostWords (m : MemSys) (w : Nat) : Nat → MemSys
  | 0 => m
  | k + 1 => MemSys.hostWords (m.engineStore w (m.readWord w)) (w + 1) k
def MemSys.hostLines (m : MemSys) (line : Nat) : Nat → MemSys
  | 0 => m
  | k + 1 => MemSys.hostLines ((m.linePush line).note line) (line + 1) k
def MemSys.hostWrite (m : MemSys) (a : Nat) (d : List Byte) : MemSys :=
  if d.isEmpty then m
  else
    let last := a + d.length - 1
    let m := m.hostWords (a / 4) (last / 4 - a / 4 + 1)
    let m := m.hostLines (a / 256) (last / 256 - a / 256 + 1)
    let m := (List.range (last / 128 - a / 128 + 1)).foldl (fun (m : MemSys) i => m.slcWrote (a / 128 + i)) m
    { m with cells := Memory.write m.cells a d }

/-- A copy that a core does not own leaves its L1: the core's later loads read at the slice (R294). -/
def MemSys.refresh (m : MemSys) (c w : Nat) : MemSys :=
  match SMap.find m.l1 (l1Key c w) with
  | some e => if e.owned then m else { m with l1 := SMap.erase m.l1 (l1Key c w) }
  | none => m

/-- An atomic performed at the SLC: device ownership of the word is recalled with its value through the slice, whose
copy of the line goes, and the old value is returned (R139, R288). -/
def MemSys.atomicSys (m : MemSys) (w : Nat) (f : Word → Word) : MemSys × Word :=
  let old := m.readWord w
  let m := ((m.engineStore w old).linePush (w / 64)).slcWrote (w / 32)
  ({ (m.dir (w / 64) (fun d => { d with hosts := [] })) with cells := Memory.setWord m.cells (4 * w) (f old) }, old)

/-- The same for a thread of a core, after the core's own stores to the word; the core keeps no older copy (R294). -/
def MemSys.atomicSysOf (m : MemSys) (c w : Nat) (f : Word → Word) : MemSys × Word :=
  let (m, old) := (m.ack c w).atomicSys w f
  (m.refresh c w, old)

/-- A read at the home slice by a thread of a core, after the core's own store to the word (R277, R281, R294). -/
def MemSys.homeRead (m : MemSys) (c w : Nat) : MemSys × Word :=
  let m := (m.ack c w).settle w
  (m, m.sliceWord w)

/-- A read of scope sys by a thread of a core, performed at the SLC with forwarding (R137, R284, R294). -/
def MemSys.readSys (m : MemSys) (c w : Nat) : MemSys × Word :=
  let (m, v) := m.homeRead c w
  ((m.slcRead (w / 32)).refresh c w, v)

/-- An owned word of a core changes in its L1, with no message: the slice's copy is no longer its owner's latest value,
unless a store of the core in flight says so when it is registered (R280, R281, R288). -/
def MemSys.ownedPut (m : MemSys) (c w : Nat) (v : Word) : MemSys :=
  { m with
    l1 := SMap.put m.l1 (l1Key c w) ⟨v, true⟩
    dirty := SMap.put m.dirty (secKey c (w / 32)) ()
    registry := match SMap.find m.registry w with
      | some o => if o.core = c && !m.regq.contains (c, w) then SMap.put m.registry w ⟨c, false⟩ else m.registry
      | none => m.registry }

/-- An atomic of scope dev or below in core c (R288): at once on a word that the core owns; else the slice recalls the
word from its owner with its value, and records the core as owner. -/
def MemSys.atomicCore (m : MemSys) (c w : Nat) (f : Word → Word) : MemSys × Word :=
  match (SMap.find m.l1 (l1Key c w)).filter (fun e => e.owned) with
  | some e => (m.ownedPut c w (f e.val), e.val)
  | none =>
    let m := m.settle w
    let old := m.sliceWord w
    let m := m.register c w
    ({ m with l1 := SMap.put m.l1 (l1Key c w) ⟨f old, true⟩, dirty := SMap.put m.dirty (secKey c (w / 32)) () }, old)

/-- A 64-bit atomic add at scope sys, a notifying write (R150, R153, R160): carry into the upper word. -/
def MemSys.addSys (m : MemSys) (a n : Nat) : MemSys :=
  let (m, lo) := m.atomicSys (a / 4) (fun w => w + BitVec.ofNat 32 n)
  let carry := (lo.toNat + n % 2 ^ 64) / 2 ^ 32
  let (m, _) := m.atomicSys (a / 4 + 1) (fun w => w + BitVec.ofNat 32 carry)
  { (m.note (a / 256)) with adds := if m.adds.contains a then m.adds else m.adds ++ [a] }

/-- The same for a thread of a core, after the core's own stores to the counter; the core keeps no older copy (R153, R294). -/
def MemSys.addSysOf (m : MemSys) (c a n : Nat) : MemSys :=
  let m := ((m.ack c (a / 4)).ack c (a / 4 + 1)).addSys a n
  (m.refresh c (a / 4)).refresh c (a / 4 + 1)

/-- An L1 eviction: dirty sectors written back, then owned words released and the line dropped (R281). -/
def MemSys.dropWords (m : MemSys) (c w : Nat) : Nat → MemSys
  | 0 => m
  | k + 1 =>
    let m := match SMap.find m.l1 (l1Key c w), SMap.find m.registry w with
      | some e, some o =>
        if e.owned && o.core == c then { m with registry := SMap.erase m.registry w } else m
      | _, _ => m
    MemSys.dropWords { m with l1 := SMap.erase m.l1 (l1Key c w) } c (w + 1) k
def MemSys.evictLine (m : MemSys) (c line : Nat) : MemSys :=
  let m := (m.backSector c (2 * line)).backSector c (2 * line + 1)
  (m.dropWords c (64 * line) 64).note line

/-- A line's words discarded from a core without write-back (STASH.INV, R144). -/
def MemSys.discardLine (m : MemSys) (c line : Nat) : MemSys :=
  let m := m.dropWords c (64 * line) 64
  { m with
    dirty := SMap.erase (SMap.erase m.dirty (secKey c (2 * line))) (secKey c (2 * line + 1))
    regq := m.regq.filter (fun e => e.1 != c || e.2 / 64 != line) }

end Sys2Proof.Machine
end

