-- ==== Sys2Proof/Machine/Translate.lean ====
section
/-! DEFINITION. Address translation (19, R381 to R394): table entries, the walk in one or two stages, the
translation caches, and the checker of carve-outs (R456), which judges every translated access. -/

namespace Sys2Proof.Machine

/-- What an access does to a page (R384). -/
inductive Access where
  | read
  | write
  | fetch
  deriving DecidableEq, Repr

/-- A request for a translation: the cache that serves it, the context and mode it is made for. -/
structure TransReq where
  cache : Cache
  ctx : Nat
  super : Bool
  acc : Access
  deriving DecidableEq, Repr

/-- A translation's outcome (R392): the leaf in use, or how it failed; `soft`, by a table entry that an uncorrectable error
has poisoned, whose reader is the access that needed the walk (R292, R464; log 166). -/
inductive Xlat where
  | ok (pa : Nat) (leaf : TlbEntry)
  | absent
  | denied
  | soft
  | stage2 (gpa : Nat)
  deriving DecidableEq, Repr

/-- The core whose walk cache serves a translation cache, if any (R388). -/
def Cache.coreOf : Cache → Option Nat
  | .core c => some c
  | .ahead c => some c
  | .sampler c => some c
  | .frontEnd => none
  | .copyEngine => none
  | .streaming => none

/-- Leaves a cache holds (R388). -/
def Cache.capacity : Cache → Nat
  | .core _ => 2048
  | .ahead _ => 256
  | .sampler _ => 128
  | .frontEnd => 512
  | .copyEngine => 512
  | .streaming => 512

/-- A translated address lies in an enabled carve-out of another context (R456). -/
def Service.barred (v : Service) (ctx pa : Nat) : Bool :=
  v.carves.any (fun e => e.2.en && e.2.owner != ctx && e.2.base ≤ pa && pa < e.2.base + e.2.size)

/-- An 8-byte table entry at a physical address, read whole through path W at its slice (R385; log 141). -/
def State.tableEntry (s : State) (pa : Nat) : Nat :=
  let m := s.mem.settlePair pa
  (m.sliceWord (pa / 4)).toNat + 2 ^ 32 * (m.sliceWord (pa / 4 + 1)).toNat

/-- The kinds of a table entry (R381, R383), with one that an uncorrectable error has poisoned (R464). -/
inductive Pte where
  | none
  | bad
  | soft
  | table (addr : Nat)
  | leaf (addr : Nat) (bits : Nat) (x : Bool) (w : Bool) (u : Bool)
  deriving DecidableEq, Repr

/-- An entry read at a level (R381 to R383). -/
def pteAt (level e : Nat) : Pte :=
  let kind := bits e 1 0
  let addr := bits e 47 12 * 4096
  let cont := flagBit e 3
  let zeros := bits e 63 56 != 0 || bits e 52 48 != 0 || flagBit e 2
  if kind = 0 then .none
  else if kind = 3 || zeros then .bad
  else if kind = 1 then
    if level = 3 || cont || bits e 55 53 != 0 then .bad else .table addr
  else if level = 2 then
    if cont || bits e 20 12 != 0 then .bad else .leaf addr 21 (flagBit e 55) (flagBit e 54) (flagBit e 53)
  else if level = 3 then
    if cont then
      (if bits e 15 12 != 0 then .bad else .leaf addr 16 (flagBit e 55) (flagBit e 54) (flagBit e 53))
    else .leaf addr 12 (flagBit e 55) (flagBit e 54) (flagBit e 53)
  else .bad

/-- The entry at a physical address as a walk finds it at a level. -/
def State.pteOf (s : State) (level pa : Nat) : Pte :=
  if poisoned s.mem.poison pa 8 then .soft else pteAt level (s.tableEntry pa)

/-- The table index of an address at a level (R382). -/
def vaIndex (va level : Nat) : Nat := va / 2 ^ (39 - 9 * level) % 512

/-- What a walk of one stage found: a leaf, or its failure. -/
inductive WalkEnd where
  | leaf (pa : Nat) (bits : Nat) (x : Bool) (w : Bool) (u : Bool)
  | absent
  | denied
  | soft
  | stage2 (gpa : Nat)
  deriving DecidableEq, Repr

/-- A walk: what it found, the table pointers it read, and the physical addresses of the entries that it read. -/
structure Walk where
  found : WalkEnd
  ptrs : List PtrEntry := []
  reads : List Nat := []
  deriving DecidableEq, Repr

/-- A walk preceded by the pointers and the reads of an earlier one. -/
def Walk.after (v w : Walk) : Walk := { w with ptrs := v.ptrs ++ w.ptrs, reads := v.reads ++ w.reads }

/-- The cached pointer of a core's walk cache for a stage, level and address prefix. -/
def State.cachedPtr (s : State) (k cid : Nat) (st2 : Bool) (level key : Nat) : Option PtrEntry :=
  s.trans.ptrs.find? (fun (p : PtrEntry) =>
    p.core == k && p.ctxid == cid && p.stage2 == st2 && p.level == level && p.pfx == key)

/-- Who walks: the core whose walk cache the walk fills, whether it may go through the cached pointers, the context and
its identifier (R388, R389). -/
structure Walker where
  core : Option Nat
  cached : Bool
  ctx : Ctx
  cid : Nat

/-- The pointer that a walker takes from its cache, and one that it has read. -/
def State.walkHit (s : State) (k : Walker) (st2 : Bool) (level key : Nat) : Option PtrEntry :=
  if k.cached then k.core.bind (fun n => s.cachedPtr n k.ctx.tag st2 level key) else none
def Walker.ptr (k : Walker) (st2 : Bool) (level key addr : Nat) : List PtrEntry :=
  match k.core with
  | some n => [⟨n, k.ctx.tag, k.ctx.vmid, k.ctx.pasid, st2, level, key, addr⟩]
  | none => []

/-- A stage-2 walk, `n` levels left (R387, R388). -/
def State.walk2 (s : State) (k : Walker) (gpa : Nat) : Nat → Nat → Walk
  | 0, _ => ⟨.denied, [], []⟩
  | n + 1, table =>
    let level := 3 - n
    let key := gpa / 2 ^ (39 - 9 * level)
    match s.walkHit k true level key with
    | some p => s.walk2 k gpa n p.addr
    | none =>
      let at_ := table + 8 * vaIndex gpa level
      if s.svc.barred k.cid table then ⟨.denied, [], []⟩
      else match s.pteOf level at_ with
      | .soft => ⟨.soft, [], [at_]⟩
      | .none => ⟨.absent, [], [at_]⟩
      | .bad => ⟨.denied, [], [at_]⟩
      | .leaf a b x w u => ⟨.leaf (a + gpa % 2 ^ b) b x w u, [], [at_]⟩
      | .table a => Walk.after ⟨.absent, k.ptr true level key a, [at_]⟩ (s.walk2 k gpa n a)

/-- A guest physical address through stage 2, or unchanged in one stage (R387). -/
def State.stage2Of (s : State) (k : Walker) (gpa : Nat) : Walk :=
  if k.ctx.s2en then s.walk2 k gpa 4 k.ctx.s2root else ⟨.leaf gpa 48 true true true, [], []⟩

/-- A stage-1 walk, `n` levels left, from a table at a (guest) physical address (R382, R387). -/
def State.walk1 (s : State) (k : Walker) (va : Nat) : Nat → Nat → Walk
  | 0, _ => ⟨.denied, [], []⟩
  | n + 1, table =>
    let level := 3 - n
    let key := va / 2 ^ (39 - 9 * level)
    match s.walkHit k false level key with
    | some p => s.walk1 k va n p.addr
    | none =>
      let at_ := table + 8 * vaIndex va level
      let v := s.stage2Of k at_
      match v.found with
      | .leaf pa _ _ _ _ =>
        if s.svc.barred k.cid pa then Walk.after v ⟨.denied, [], []⟩
        else match s.pteOf level pa with
        | .soft => Walk.after v ⟨.soft, [], [pa]⟩
        | .none => Walk.after v ⟨.absent, [], [pa]⟩
        | .bad => Walk.after v ⟨.denied, [], [pa]⟩
        | .leaf a b x w u => Walk.after v ⟨.leaf (a + va % 2 ^ b) b x w u, [], [pa]⟩
        | .table a => Walk.after (Walk.after v ⟨.absent, k.ptr false level key a, [pa]⟩) (s.walk1 k va n a)
      | .soft => Walk.after v ⟨.soft, [], []⟩
      | _ => Walk.after v ⟨.stage2 at_, [], []⟩

/-- A leaf allows an access (R384). -/
def leafAllows (q : TransReq) (x w u : Bool) : Bool :=
  (match q.acc with
    | .read => true
    | .write => w
    | .fetch => x) && (q.super || u)

/-- A translation with the pointers and the entries that its walk read. -/
structure Walked where
  out : Xlat
  ptrs : List PtrEntry := []
  reads : List Nat := []

/-- A whole walk of an address, through the cached pointers or from the root. -/
def State.walkAll (s : State) (cached : Bool) (q : TransReq) (va : Nat) : Walked :=
  let c := SMap.getD s.ctxs q.ctx {}
  let k : Walker := ⟨q.cache.coreOf, cached, c, q.ctx⟩
  let v := s.walk1 k va 4 c.s1root
  match v.found with
  | .leaf gpa b x w u =>
    if leafAllows q x w u then
      let y := s.stage2Of k gpa
      let all := Walk.after v y
      match y.found with
      | .leaf pa b2 x2 w2 _ =>
        if leafAllows { q with super := true } x2 w2 true then
          if q.cache.coreOf.isSome && s.svc.barred q.ctx pa then ⟨.denied, all.ptrs, all.reads⟩
          else
            let n := min b b2
            ⟨.ok pa ⟨q.cache, c.tag, c.vmid, c.pasid, va / 2 ^ n * 2 ^ n, n, pa / 2 ^ n * 2 ^ n,
              w && w2, u, x && x2, c.s2en⟩, all.ptrs, all.reads⟩
        else ⟨.stage2 gpa, all.ptrs, all.reads⟩
      | .soft => ⟨.soft, all.ptrs, all.reads⟩
      | _ => ⟨.stage2 gpa, all.ptrs, all.reads⟩
    else ⟨.denied, v.ptrs, v.reads⟩
  | .absent => ⟨.absent, v.ptrs, v.reads⟩
  | .denied => ⟨.denied, v.ptrs, v.reads⟩
  | .soft => ⟨.soft, v.ptrs, v.reads⟩
  | .stage2 g => ⟨.stage2 g, v.ptrs, v.reads⟩

/-- The cached leaf that serves an access (R388). -/
def State.tlbHit (s : State) (q : TransReq) (va : Nat) : Option TlbEntry :=
  s.trans.tlb.find? (fun t => t.cache == q.cache && t.ctxid == (SMap.getD s.ctxs q.ctx {}).tag && t.va == va / 2 ^ t.bits * 2 ^ t.bits)

/-- A walk through cached pointers that fails is made once afresh from the root (R389). -/
def State.freshWalk (s : State) (q : TransReq) (va : Nat) : Walked :=
  let w := s.walkAll true q va
  match w.out with
  | .ok _ _ => w
  | _ => s.walkAll false q va

/-- The translation of an access: a cached leaf that allows it, else a walk. Carve-outs are checked on every hit (R456). -/
def State.translateFull (s : State) (q : TransReq) (va : Nat) : Walked :=
  match s.tlbHit q va with
  | some t =>
    let pa := t.pa + va % 2 ^ t.bits
    if leafAllows q t.x t.w t.u then
      (if q.cache.coreOf.isSome && s.svc.barred q.ctx pa then ⟨.denied, [], []⟩ else ⟨.ok pa t, [], []⟩)
    else s.freshWalk q va
  | none => s.freshWalk q va

/-- The outcome alone. -/
def State.translate (s : State) (q : TransReq) (va : Nat) : Xlat := (s.translateFull q va).out

/-- Keep at most n entries, the newest. -/
def keepLast {α : Type} (n : Nat) (l : List α) : List α := l.drop (l.length - n)

/-- A leaf put into its cache, the oldest entry of a full cache leaving (log 13). -/
def addLeaf (l : List TlbEntry) (t : TlbEntry) : List TlbEntry :=
  if l.contains t then l
  else
    let own := l.filter (fun e => e.cache == t.cache)
    let rest := l.filter (fun e => e.cache != t.cache)
    rest ++ keepLast (t.cache.capacity - 1) own ++ [t]

/-- A pointer put into its core's walk cache. -/
def addPtr (l : List PtrEntry) (p : PtrEntry) : List PtrEntry :=
  if l.contains p then l
  else
    let own := l.filter (fun e => e.core == p.core)
    let rest := l.filter (fun e => e.core != p.core)
    rest ++ keepLast 127 own ++ [p]

/-- The caches take what a successful translation read; no cache takes a failure (R388, R389). The entries read stand in
their slices, answered by their owners (R280, R281, R385). -/
def State.cacheXlat (s : State) (q : TransReq) (va : Nat) : State :=
  let w := s.translateFull q va
  match w.out with
  | .ok _ t =>
    { s with
      mem := w.reads.foldl (fun m a => (m.l2Fill (a / 128)).settlePair a) s.mem
      trans := { s.trans with tlb := addLeaf s.trans.tlb t, ptrs := w.ptrs.foldl addPtr s.trans.ptrs } }
  | _ => s

/-- A retry walks from the root (R394): the walk cache's pointers of the core and context, and the leaf of the page, go. -/
def State.forget (s : State) (cache : Cache) (ctx va : Nat) : State :=
  let tag := (SMap.getD s.ctxs ctx {}).tag
  { s with trans := { s.trans with
      ptrs := s.trans.ptrs.filter (fun p => !(some p.core == cache.coreOf && p.ctxid == tag))
      tlb := s.trans.tlb.filter (fun t => !(t.cache == cache && t.ctxid == tag && t.va == va / 2 ^ t.bits * 2 ^ t.bits)) } }

/-- What a TLBI of a kind removes (R222): 0 all, 1 context, 2 address, 3 PASID, 4 guest. -/
def tlbiHits (kind va id : Nat) (t : TlbEntry) : Bool :=
  match kind with
  | 0 => true
  | 1 => t.ctxid == id % 2 ^ 16
  | 2 => t.ctxid == id % 2 ^ 16 && t.va == va / 2 ^ t.bits * 2 ^ t.bits
  | 3 => t.pasid == id % 2 ^ 20
  | _ => t.s2 && t.vmid == id % 2 ^ 16
def tlbiPtr (kind va id : Nat) (p : PtrEntry) : Bool :=
  match kind with
  | 0 => true
  | 1 => p.ctxid == id % 2 ^ 16
  | 2 => p.ctxid == id % 2 ^ 16 && (p.stage2 || p.pfx == va / 2 ^ (39 - 9 * p.level))
  | 3 => p.pasid == id % 2 ^ 20
  | _ => p.stage2 && p.vmid == id % 2 ^ 16

/-- The caches without what a TLBI removes. -/
def Trans.invalidate (t : Trans) (kind va id : Nat) : Trans :=
  { t with
    tlb := t.tlb.filter (fun e => !tlbiHits kind va id e)
    ptrs := t.ptrs.filter (fun e => !tlbiPtr kind va id e) }

end Sys2Proof.Machine
end

