-- ==== Sys2Proof/Machine/Pool.lean ====
section
/-! DEFINITION. The counted pools (15): handles, Kennel tiles and their counts (R165 to R176, R317 to R330),
the grant rule (R320), and the Mire's granules (R334 to R336). -/

namespace Sys2Proof.Machine

/-- Fields of a tile handle (R165). -/
def hGen (h : DWord) : Nat := bits h.toNat 63 48
def hSlot (h : DWord) : Nat := bits h.toNat 47 16
def hCore (h : DWord) : Nat := bits h.toNat 15 10
def hPart (h : DWord) : Nat := bits h.toNat 9 6
def hValid (h : DWord) : Bool := flagBit h.toNat 5
def mkHandle (gen slot core part : Nat) : DWord :=
  BitVec.ofNat 64 (gen % 2 ^ 16 * 2 ^ 48 + slot * 2 ^ 16 + core * 2 ^ 10 + part * 2 ^ 6 + 32)

/-- The present generation of a slot (R165, R317). -/
def Kennel.gen (k : Kennel) (core slot : Nat) : Nat := SMap.getD k.gens (core * 32768 + slot) 0

/-- The allocated tile whose first unit is a slot, and the one that holds a slot. -/
def Kennel.tileAt (k : Kennel) (core slot : Nat) : Option Tile := k.tiles.find? (fun t => t.core == core && t.slot == slot)
def Kennel.tileOver (k : Kennel) (core slot : Nat) : Option Tile :=
  k.tiles.find? (fun t => t.core == core && t.slot ≤ slot && slot < t.slot + t.units)

/-- A tile replaced by its changed self, found by core and slot. -/
def Kennel.setTile (k : Kennel) (t : Tile) : Kennel :=
  { k with tiles := k.tiles.map (fun u => if u.core = t.core ∧ u.slot = t.slot then t else u) }

/-- Generations of a run of slots advance (R165, R323). -/
def Kennel.bumpGens (k : Kennel) (core slot : Nat) : Nat → Kennel
  | 0 => k
  | n + 1 =>
    Kennel.bumpGens { k with gens := SMap.put k.gens (core * 32768 + slot) ((k.gen core slot + 1) % 2 ^ 16) } core (slot + 1) n

/-- The key of a space (R319, R331): a grid's share, or the common space of a context's partition, on a core. -/
def spaceKey (ctx core part : Nat) (share : Option Nat) : Nat :=
  (((match share with
    | some g => g + 1
    | none => 0) * 2 ^ 16 + ctx) * 16 + part) * 48 + core

/-- A unit of a tile's space has been freed, or the tile sealed (R331). -/
def Kennel.stirred (k : Kennel) (t : Tile) : Kennel :=
  let x := spaceKey (if t.share.isSome then 0 else t.ctx) t.core t.part t.share
  { k with stir := SMap.put k.stir x (SMap.getD k.stir x 0 + 1) }

/-- A tile is freed: units, slots and generation (R323). -/
def Kennel.free (k : Kennel) (t : Tile) : Kennel :=
  (({ k with tiles := k.tiles.filter (fun u => !(u.core == t.core && u.slot == t.slot)) }).bumpGens t.core t.slot t.units).stirred t

/-- The free test after counts or a seal (R170, R176). -/
def Kennel.settleTile (k : Kennel) (t : Tile) : Kennel :=
  if t.sealed && t.remain == 0 then k.free t else k.setTile t

/-- Claims of a tile count down at its controller: n of REMAIN and o of OUTST (R170, R172, R326). -/
def Kennel.countDown (k : Kennel) (core slot gen n o : Nat) : Kennel :=
  match k.tileAt core slot with
  | some t => if k.gen core slot = gen then k.settleTile { t with remain := t.remain - n, outst := t.outst - o } else k
  | none => k

/-- n claims are undone without a count-down (R170). -/
def Kennel.unclaim (k : Kennel) (core slot gen n : Nat) : Kennel :=
  match k.tileAt core slot with
  | some t => if k.gen core slot = gen then k.setTile { t with taken := t.taken - n, outst := t.outst - n } else k
  | none => k

/-- A tile is sealed at its controller; a seal that reaches a sealed tile has no effect (R168). -/
def Kennel.seal (k : Kennel) (core slot gen : Nat) : Kennel :=
  match k.tileAt core slot with
  | some t => if k.gen core slot = gen ∧ t.sealed = false then (k.stirred t).settleTile { t with sealed := true } else k
  | none => k

/-- A partition entry of a pool. -/
def Pool.part (p : Pool) (q : Nat) : Part := p.parts.getD q {}

/-- Units of a context's partition in use on a core: tiles of its common space, and shares (R320). -/
def Kennel.used (k : Kennel) (ctx core q : Nat) : Nat :=
  (k.tiles.filter (fun t => t.ctx == ctx && t.core == core && t.part == q && t.share.isNone)).foldl (fun a t => a + t.units) 0
  + (k.shares.filter (fun h => h.ctx == ctx && h.core == core && h.part == q)).foldl (fun a h => a + h.units) 0

/-- Units a grid's tiles hold in its share on a core. -/
def Kennel.shareUsed (k : Kennel) (grid core : Nat) : Nat :=
  (k.tiles.filter (fun t => t.core == core && t.share == some grid)).foldl (fun a t => a + t.units) 0

/-- headroom, and CanGrant, of R320 over a `used` count per partition. -/
def Pool.headroom (p : Pool) (used : Nat → Nat) : Int :=
  (p.size : Int) - (((List.range 16).filter (fun q => (p.part q).en)).foldl (fun a q => a + max (used q) (p.part q).floor) 0 : Nat)
def Pool.canGrant (p : Pool) (used : Nat → Nat) (q g : Nat) : Bool :=
  let e := p.part q
  e.en && used q + g ≤ e.ceil &&
    decide (((max (used q + g) e.floor : Nat) : Int) - (max (used q) e.floor : Nat) ≤ p.headroom used)

/-- Slots of a core that no tile holds, u of them from a slot on. -/
def Kennel.runFree (k : Kennel) (core slot u : Nat) : Bool :=
  decide (slot + u ≤ 32768) &&
    k.tiles.all (fun t => t.core != core || slot + u ≤ t.slot || t.slot + t.units ≤ slot)

/-- The lowest free run of u slots: it starts at 0 or just behind a tile (R317). -/
def Kennel.freeRun (k : Kennel) (core u : Nat) : Option Nat :=
  let starts := 0 :: (k.tiles.filter (fun t => t.core == core)).map (fun t => t.slot + t.units)
  (starts.filter (fun x => k.runFree core x u)).min?

/-- Slots in use on a core (R317: at most 24,576). -/
def Kennel.slotsUsed (k : Kennel) (core : Nat) : Nat :=
  (k.tiles.filter (fun t => t.core == core)).foldl (fun a t => a + t.units) 0

/-- The share of a grid on a core, if it has one. -/
def Kennel.shareOf (k : Kennel) (grid core : Nat) : Option Share :=
  k.shares.find? (fun h => h.grid == grid && h.core == core)

/-- The class of a grid: 0 D, 1 I, 2 B; and the accesses of a step made for one, whose lines class D allocates in the
reserved ways (R260). -/
def State.gridClass (s : State) (grid : Nat) : Nat := ((SMap.find s.grids grid).map (fun r => r.lpb.cls)).getD 2
def State.forGrid (s : State) (grid : Nat) : State := { s with mem := { s.mem with slcD := s.gridClass grid == 0 } }

/-- A recovery has stopped packet reads, launches, placement and grants (R467). -/
def State.frozen (s : State) : Bool := s.svc.rstat == 1

/-- Under the reservation a class D partition of the Kennel serves class D alone (R260, R318). -/
def State.reservedPart (s : State) (gid hi lo q : Nat) : Bool :=
  flagBit s.host.dres 63 && bits s.host.dres hi lo == q && s.gridClass gid != 0

/-- Whether a request of u units by a grid in a partition is granted now, and where (R319, R320). -/
def State.kennelFit (s : State) (gid ctx core q u : Nat) : Option Nat :=
  let k := s.kennel
  let cfg := (SMap.getD s.ctxs ctx {}).kcfg
  let common := cfg.canGrant (k.used ctx core) q u && !s.reservedPart gid 58 55 q
  let fits := match k.shareOf gid core with
    | some h => if h.part = q then decide (k.shareUsed gid core + u ≤ h.units) else common
    | none => common
  if fits && !s.frozen && k.slotsUsed core + u ≤ 24576 then k.freeRun core u else none

/-- The partitions a grid may name in TALLOC (R319), and the ceiling there (0: not in the list). -/
def State.kennelCeiling (s : State) (gid core q : Nat) : Nat :=
  match SMap.find s.grids gid with
  | none => 0
  | some r =>
    let cfg := (SMap.getD s.ctxs r.ctx {}).kcfg
    let e := cfg.part q
    let common := e.en && !s.reservedPart gid 58 55 q
    match s.kennel.shareOf gid core with
    | some h => if h.part = q then h.units else if common && e.sh then e.ceil else 0
    | none => if common && (r.lpb.kpart == q || e.sh) then e.ceil else 0

/-- The bytes of a tile from an offset. -/
def Tile.read (t : Tile) (o n : Nat) : List Byte := Memory.read t.bytes o n

/-- Bytes written to a tile hold no error any longer (R464). -/
def Tile.write (t : Tile) (o : Nat) (d : List Byte) : Tile :=
  { t with
    bytes := Memory.write t.bytes o d
    poison := t.poison.filter (fun x => decide (x < o / 8 ∨ (o + d.length - 1) / 8 < x)) }

/-- Granules of a context's Mire partition in use (R334, R335). -/
def mireUsed (bs : List MireBlock) (ctx q : Nat) : Nat :=
  (bs.filter (fun b => b.ctx == ctx && b.part == q)).foldl (fun a b => a + b.count) 0

/-- Granules that a grid's node, or its task queue (node none), holds. -/
def mireHeld (bs : List MireBlock) (grid : Nat) (node : Option Nat) : Nat :=
  (bs.filter (fun b => b.grid == grid && b.node == node)).foldl (fun a b => a + b.count) 0

/-- The lowest free run of n granules of a context's Mire. -/
def mireRun (bs : List MireBlock) (ctx size n : Nat) : Option Nat :=
  let own := bs.filter (fun b => b.ctx == ctx)
  let starts := 0 :: own.map (fun b => b.granule + b.count)
  (starts.filter (fun x => decide (x + n ≤ size) &&
    own.all (fun b => decide (x + n ≤ b.granule ∨ b.granule + b.count ≤ x)))).min?

/-- A grid's Mire share in granules: FLOOR records of a node, or min(TCEIL, 64) task entries (R335). -/
def taskGranules (r : Grid) : Nat := 1 + r.taskTable.foldl (fun a t => max a (t.arg / 16)) 0
def Grid.mireShare (r : Grid) : Option Nat → Nat
  | some n => match r.nodes[n]? with
    | some d => d.floor * (d.recsz / 16)
    | none => 0
  | none => min r.lpb.tceil 64 * taskGranules r
def Grid.mirePart (r : Grid) : Option Nat → Nat
  | some n => match r.nodes[n]? with
    | some d => d.mpart
    | none => 0
  | none => r.lpb.tpart

/-- Granules of a partition set aside: shares of the running grids, and what their nodes hold beyond (R335). -/
def State.mireTaken (s : State) (ctx q : Nat) : Nat :=
  s.grids.foldl (fun a e =>
    if e.2.ctx = ctx ∧ e.2.started = true then
      ((List.range e.2.nodes.length).map some ++ [none]).foldl (fun a n =>
        if e.2.mirePart n = q then a + max (e.2.mireShare n) (mireHeld s.mire e.1 n) else a) a
    else a) 0

/-- Whether a grid's node or task queue may take n granules more (R335, R336): within its share, or what lies beyond it
in the partition's common space. -/
def State.mireAllows (s : State) (gid : Nat) (node : Option Nat) (n : Nat) : Bool :=
  match SMap.find s.grids gid with
  | none => false
  | some r =>
    let cfg := (SMap.getD s.ctxs r.ctx {}).mcfg
    let held := mireHeld s.mire gid node
    let share := r.mireShare node
    !s.frozen && (decide (held + n ≤ share)
      || (cfg.canGrant (s.mireTaken r.ctx) (r.mirePart node) (held + n - max held share) && !s.reservedPart gid 62 59 (r.mirePart node)))

/-- Where a run of n granules of a node is granted now: one run, whose records lie at consecutive addresses (R98, R335). -/
def State.mireFit (s : State) (gid : Nat) (node : Option Nat) (n : Nat) : Option Nat :=
  match SMap.find s.grids gid with
  | some r => if s.mireAllows gid node n then mireRun s.mire r.ctx (SMap.getD s.ctxs r.ctx {}).mcfg.size n else none
  | none => none

/-- Whether a context's Mire has k free runs of n granules, which task entries take one by one (R94). -/
def mireRuns (bs : List MireBlock) (ctx size n : Nat) : Nat → Bool
  | 0 => true
  | k + 1 => match mireRun bs ctx size n with
    | some a => mireRuns (bs ++ [⟨ctx, 0, none, 0, a, n⟩]) ctx size n k
    | none => false

end Sys2Proof.Machine
end

