-- ==== Sys2Proof/Machine/Registers.lean ====
section
/-! DEFINITION. Reading and writing the registers of a group (R10 to R14, R24), its lane bitmaps, and the
block bitmap table (R236 to R239). -/

namespace Sys2Proof.Machine

/-- %grid of a grid: the identifier that the scheduler assigned to it (R14; log 29). -/
def gridNumber (id : Nat) : Nat := Config.gridName id % 2 ^ 32

/-- Lane i is in a bitmap. -/
def Lanes.has (m : Lanes) (i : Nat) : Bool := m.getLsbD i

/-- The lanes of a bitmap below n, ascending. -/
def Lanes.list (m : Lanes) (n : Nat) : List Nat := (List.range n).filter (fun i => m.getLsbD i)

/-- A bitmap of one lane, of a list of lanes, of the lanes below n. -/
def Lanes.one (i : Nat) : Lanes := (1 : Lanes) <<< i
def Lanes.of (l : List Nat) : Lanes := l.foldl (fun m i => m ||| Lanes.one i) 0
def Lanes.below (n : Nat) : Lanes := if 64 ≤ n then BitVec.allOnes 64 else BitVec.ofNat 64 (2 ^ n - 1)

/-- How many lanes a bitmap holds, and its lowest lane. -/
def Lanes.count (m : Lanes) : Nat := (m.list 64).length
def Lanes.low (m : Lanes) : Nat := (m.list 64).headD 0

/-- Vector registers (R10). -/
def Regs.getV (r : Regs) (lane n : Nat) : Word := SMap.getD r.v (lane * 64 + n) 0
def Regs.setV (r : Regs) (lane n : Nat) (w : Word) : Regs := { r with v := SMap.put r.v (lane * 64 + n) w }

/-- Scalar registers. -/
def Regs.getS (r : Regs) (n : Nat) : Word := SMap.getD r.s n 0
def Regs.setS (r : Regs) (n : Nat) (w : Word) : Regs := { r with s := SMap.put r.s n w }

/-- Pairs (R4): the even register holds bits [31:0]. -/
def Regs.pairV (r : Regs) (lane n : Nat) : DWord := joinPair (r.getV lane n) (r.getV lane (n + 1))
def Regs.setPairV (r : Regs) (lane n : Nat) (x : DWord) : Regs := (r.setV lane n (lowWord x)).setV lane (n + 1) (highWord x)
def Regs.pairS (r : Regs) (n : Nat) : DWord := joinPair (r.getS n) (r.getS (n + 1))
def Regs.setPairS (r : Regs) (n : Nat) (x : DWord) : Regs := (r.setS n (lowWord x)).setS (n + 1) (highWord x)

/-- A predicate over the lanes; p0 reads true everywhere (R11). -/
def Regs.getP (r : Regs) (n : Nat) : Lanes := if n = 0 then BitVec.allOnes 64 else SMap.getD r.p n 0

/-- A predicate written in the lanes of `m`; a write to p0 is discarded (R11). -/
def Regs.setP (r : Regs) (n : Nat) (m v : Lanes) : Regs :=
  if n = 0 then r else { r with p := SMap.put r.p n ((r.getP n &&& ~~~m) ||| (v &&& m)) }

/-- Tile handles and their claim entries (R165, R170). -/
def Regs.getH (r : Regs) (n : Nat) : DWord := SMap.getD r.h n 0
def Regs.setH (r : Regs) (n : Nat) (h : DWord) : Regs := { r with h := SMap.put r.h n h }
def Regs.claim (r : Regs) (n : Nat) : Lanes × DWord := SMap.getD r.claims n (0, 0)
def Regs.setClaim (r : Regs) (n : Nat) (m : Lanes) (h : DWord) : Regs := { r with claims := SMap.put r.claims n (m, h) }

/-- Status bits accumulate in %fstat (R67, R68). -/
def Regs.raiseStat (r : Regs) (f : Stat) : Regs := { r with fstat := r.fstat ||| (f &&& 0x3F) }

/-- A register written in each lane of a list. -/
def Regs.writeLanes (r : Regs) (n : Nat) (f : Nat → Word) : List Nat → Regs
  | [] => r
  | t :: ts => Regs.writeLanes (r.setV t n (f t)) n f ts
def Regs.writePairs (r : Regs) (n : Nat) (f : Nat → DWord) : List Nat → Regs
  | [] => r
  | t :: ts => Regs.writePairs (r.setPairV t n (f t)) n f ts

/-- Words written to consecutive registers of a lane from n on. -/
def Regs.writeRun (r : Regs) (lane n : Nat) : List Word → Regs
  | [] => r
  | w :: ws => Regs.writeRun (r.setV lane n w) lane (n + 1) ws

/-- The bitmap of the lanes of a list where a condition holds. -/
def Lanes.where (f : Nat → Bool) (l : List Nat) : Lanes := Lanes.of (l.filter f)

/-- A group and its replacement in the state. -/
def State.setGroup (s : State) (id : Nat) (g : Group) : State := { s with groups := SMap.put s.groups id g }
def State.modGroup (s : State) (id : Nat) (f : Group → Group) : State :=
  match SMap.find s.groups id with
  | some g => s.setGroup id (f g)
  | none => s
def State.setTeam (s : State) (id : Nat) (t : Team) : State := { s with teams := SMap.put s.teams id t }
def State.modTeam (s : State) (id : Nat) (f : Team → Team) : State :=
  match SMap.find s.teams id with
  | some t => s.setTeam id (f t)
  | none => s
def State.modGrid (s : State) (id : Nat) (f : Grid → Grid) : State :=
  match SMap.find s.grids id with
  | some r => { s with grids := SMap.put s.grids id (f r) }
  | none => s
def State.modCtx (s : State) (id : Nat) (f : Ctx → Ctx) : State :=
  { s with ctxs := SMap.put s.ctxs id (f (SMap.getD s.ctxs id {})) }
def State.ctx (s : State) (id : Nat) : Ctx := SMap.getD s.ctxs id {}
def State.pairCtl (s : State) (core pair : Nat) : PairCtl := SMap.getD s.pairs (core * 3 + pair) {}
def State.modPair (s : State) (core pair : Nat) (f : PairCtl → PairCtl) : State :=
  { s with pairs := SMap.put s.pairs (core * 3 + pair) (f (s.pairCtl core pair)) }

/-- The order of BBT entries: packet address, then slot (R236). -/
def BbtEntry.key (e : BbtEntry) : Nat := e.pc * 4 + e.slot

/-- Threads enter the BBT: they merge with the entry of the same place and wait, or start one (R237). A merged entry is
held off by YIELD only where both were, until the earlier of their ends (log 146). -/
def bbtEnter (l : List BbtEntry) (e : BbtEntry) : List BbtEntry :=
  match l with
  | [] => [e]
  | f :: r =>
    if f.pc = e.pc ∧ f.slot = e.slot ∧ f.wait = e.wait then
      { f with map := f.map ||| e.map, age := max f.age e.age, held := min f.held e.held } :: r
    else if e.key < f.key then e :: f :: r
    else f :: bbtEnter r e

/-- Runnable threads enter at a packet and slot with age 0. -/
def Group.enter (g : Group) (m : Lanes) (pc slot : Nat) : Group :=
  if m = 0 then g else { g with bbt := bbtEnter g.bbt ⟨m, pc, slot, .runnable, 0, 0⟩ }

/-- Threads leave every entry and every wait; empty entries go. -/
def Group.removeThreads (g : Group) (m : Lanes) : Group :=
  { g with
    bbt := (g.bbt.map (fun e => { e with map := e.map &&& ~~~m })).filter (fun e => e.map != 0)
    parked := (g.parked.map (fun p => { p with map := p.map &&& ~~~m })).filter (fun p => p.map != 0)
    blk := match g.blk with
      | some b => if b.map &&& ~~~m = 0 then none else some { b with map := b.map &&& ~~~m }
      | none => none
    firsts := (g.firsts.map (fun f => { f with map := f.map &&& ~~~m })).filter (fun f => f.map != 0) }

/-- The entries without the holds that have ended (R84). -/
def Group.unheld (g : Group) (now : Nat) : Group :=
  { g with bbt := g.bbt.map (fun e => if e.held ≤ now then { e with held := 0 } else e) }

/-- The entry a selection takes (R238): the lowest aged one, else the lowest not held by YIELD. A hold lasts while another
entry is runnable (R84): where every runnable entry is held, the lowest is taken at once (log 147). -/
def Group.selected (g : Group) : Option BbtEntry :=
  let run := g.bbt.filter (fun e => e.wait = .runnable)
  match run.find? (fun e => e.age == 256) with
  | some e => some e
  | none => match run.find? (fun e => e.held == 0) with
    | some e => some e
    | none => run.head?

/-- The table after a selection: the entry leaves it for its block, and the others age (R238). -/
def ageEntries (e : BbtEntry) (l : List BbtEntry) : List BbtEntry :=
  (l.filter (fun f => f != e)).map (fun f =>
    if f.wait = .runnable ∧ f.held = 0 then { f with age := min 256 (f.age + 1) } else f)

/-- The threads of the group's entries in one wait. -/
def Group.waiting (g : Group) (w : BbtWait) : Lanes :=
  (g.bbt.filter (fun e => e.wait = w)).foldl (fun m e => m ||| e.map) 0

/-- The threads parked outside the BBT. -/
def Group.parkedMap (g : Group) : Lanes := g.parked.foldl (fun m p => m ||| p.map) 0

/-- Whether every live thread is parked (R364). -/
def Group.allParked (g : Group) : Bool :=
  g.blk.isNone && (g.bbt.all (fun e => e.wait != .runnable))

/-- Parked threads of one wait resume at their own word: they re-enter the BBT there (R18). -/
def Group.resume (g : Group) (p : Parked) : Group :=
  ({ g with parked := g.parked.erase p }).enter p.map p.pc p.slot

/-- They resume at their word, which issues again with the age of its first issue (R75, R265). -/
def Group.again (g : Group) (p : Parked) : Group :=
  { (g.resume p) with firsts := g.firsts ++ [⟨p.map, p.pc, p.slot, p.born, .none⟩] }

/-- They go on to the next packet. -/
def Group.resumeNext (g : Group) (p : Parked) : Group :=
  ({ g with parked := g.parked.erase p }).enter p.map (p.pc + 12) 0

/-- Every wait that satisfies a condition resumes at its word. -/
def Group.resumeWhere (g : Group) (f : Park → Bool) : Group :=
  (g.parked.filter (fun p => f p.why)).foldl (fun g p => g.resume p) g

/-- The same over every group. -/
def State.resumeWhere (s : State) (f : Park → Bool) : State :=
  { s with groups := s.groups.map (fun e => (e.1, if e.2.parked.any (fun p => f p.why) then e.2.resumeWhere f else e.2)) }

/-- What the first issue of a word by some of its threads has left, where one is kept that may issue (R265, R365). -/
def Group.firstOf (g : Group) (m : Lanes) (pc slot : Nat) : Option Nat :=
  ((g.firsts.filter (fun f => f.frame == .none && f.pc == pc && f.slot == slot && f.map &&& m != 0)).map (fun f => f.age)).min?

/-- The age of a wait of some threads at a word: that of its first issue where one is kept. -/
def Group.firstAge (g : Group) (m : Lanes) (pc slot now : Nat) : Nat := (g.firstOf m pc slot).getD now

/-- Threads leave the first issues of a word; those left empty go. -/
def FirstIssue.without (m : Lanes) (l : List FirstIssue) : List FirstIssue :=
  (l.map (fun f => { f with map := f.map &&& ~~~m })).filter (fun f => f.map != 0)

/-- The word of some threads has issued, or parked anew. -/
def Group.issuedFirst (g : Group) (m : Lanes) (pc slot : Nat) : List FirstIssue :=
  let here := fun (f : FirstIssue) => f.frame == .none && f.pc == pc && f.slot == slot
  g.firsts.filter (fun f => !here f) ++ FirstIssue.without m (g.firsts.filter here)

/-- Threads park at a word outside the BBT. -/
def Group.park (g : Group) (m : Lanes) (pc slot : Nat) (why : Park) (now : Nat) : Group :=
  if m = 0 then g
  else
    { g with
      parked := g.parked ++ [⟨m, pc, slot, why, g.firstAge m pc slot now, now⟩]
      firsts := g.issuedFirst m pc slot }

end Sys2Proof.Machine
end

