-- ==== Sys2Proof/Machine/Frames.lean ====
section
/-! DEFINITION. The saved forms of a group: format-record images (R185), BBT images (R239), step records
(R373), the control word and claim entries (R370), and the 8 KiB trap frame (R371, R372), each to the bit. -/

namespace Sys2Proof.Machine

/-- k words of a number, lowest first. -/
def natWords : Nat → Nat → List Word
  | 0, _ => []
  | k + 1, x => BitVec.ofNat 32 x :: natWords k (x / 2 ^ 32)

/-- The number of a list of words. -/
def wordsNat : List Word → Nat
  | [] => 0
  | w :: r => w.toNat + 2 ^ 32 * wordsNat r

/-- A list made exactly n words long. -/
def padTo (n : Nat) (l : List Word) : List Word := l.take n ++ List.replicate (n - l.length) 0

def b2n (b : Bool) : Nat := if b then 1 else 0

/-- The 40-bit history entries of a record as one number. -/
def histNat : List Nat → Nat
  | [] => 0
  | h :: r => h % 2 ^ 40 + 2 ^ 40 * histNat r

/-- A history list of n entries from a number. -/
def histOf : Nat → Nat → List Nat
  | 0, _ => []
  | n + 1, x => x % 2 ^ 40 :: histOf n (x / 2 ^ 40)

/-- A format record's 128-byte image (R185). -/
def FormatRec.image (f : FormatRec) : Nat :=
  b2n f.nochg * 2 ^ 14 + f.margin * 2 ^ 15 + b2n f.osat * 2 ^ 17 + f.omode * 2 ^ 18 + f.otype * 2 ^ 20
  + f.typeb * 2 ^ 24 + f.typea * 2 ^ 28 + b2n f.zablk * 2 ^ 32 + b2n f.zbblk * 2 ^ 33 + f.dxreg * 2 ^ 34
  + f.hcnt * 2 ^ 55 + f.hpos * 2 ^ 60 + f.za * 2 ^ 136 + f.zb * 2 ^ 144 + codeOf 8 f.sexp * 2 ^ 152
  + f.ssta * 2 ^ 160 + f.sstb * 2 ^ 192 + f.satcnt * 2 ^ 224 + f.uflcnt * 2 ^ 256 + f.sca * 2 ^ 288
  + f.scb * 2 ^ 336 + histNat (f.hist ++ List.replicate (16 - f.hist.length) 0) * 2 ^ 384

/-- The record of an image; none where a code is refused, a zero field is set or HCNT exceeds 16 (R187). -/
def formatOf (x : Nat) : Option FormatRec :=
  if bits x 13 0 != 0 || bits x 54 40 != 0 || bits x 135 64 != 0 || bits x 31 28 == 15 || bits x 27 24 == 15
      || 5 < bits x 23 20 || 16 < bits x 59 55 then none
  else some
    { hist := histOf 16 (x / 2 ^ 384), scb := bits x 383 336, sca := bits x 335 288, uflcnt := bits x 287 256,
      satcnt := bits x 255 224, sstb := bits x 223 192, ssta := bits x 191 160, sexp := signedOf 8 (bits x 159 152),
      zb := bits x 151 144, za := bits x 143 136, hpos := bits x 63 60, hcnt := bits x 59 55, dxreg := bits x 39 34,
      zbblk := flagBit x 33, zablk := flagBit x 32, typea := bits x 31 28, typeb := bits x 27 24,
      otype := bits x 23 20, omode := bits x 19 18, osat := flagBit x 17, margin := bits x 16 15, nochg := flagBit x 14 }

/-- A BBT image (R239), for a code base. -/
def waitCode : BbtWait → Nat
  | .runnable => 0
  | .converge => 1
  | .barG => 2
  | .barT => 3
def waitOf (n : Nat) : Option BbtWait :=
  match n with
  | 0 => some .runnable
  | 1 => some .converge
  | 2 => some .barG
  | 3 => some .barT
  | _ => none
def BbtEntry.image (base : Nat) (e : BbtEntry) : Nat :=
  e.age * 2 ^ 18 + waitCode e.wait * 2 ^ 27 + e.slot * 2 ^ 30 + (e.pc - base) % 2 ^ 32 * 2 ^ 32 + e.map.toNat * 2 ^ 64

/-- The entry of an image; none where its SLOT, WAIT, AGE, OFF or a zero field breaks R239. -/
def bbtOf (base x : Nat) : Option BbtEntry :=
  match waitOf (bits x 29 27) with
  | some w =>
    if bits x 31 30 == 3 || 256 < bits x 26 18 || bits x 63 32 % 12 != 0 || bits x 17 0 != 0 then none
    else some ⟨BitVec.ofNat 64 (bits x 127 64), base + bits x 63 32, bits x 31 30, w, bits x 26 18, 0⟩
  | none => none

/-- A step record's 576 words (R373). -/
def kindCode : StepKind → Nat
  | .tmma => 0
  | .tmmaQ => 1
  | .rbox => 2
def QStep.words (q : QStep) : List Word :=
  natWords 2 (q.frec * 4 + b2n q.fb * 2 ^ 4 + b2n q.fa * 2 ^ 5 + q.block * 2 ^ 6 + kindCode q.kind * 2 ^ 12
    + q.slot * 2 ^ 14 + q.pc % 2 ^ 48 * 2 ^ 16)
  ++ [q.dx, 0] ++ padTo 8 q.ops ++ List.replicate 20 0 ++ natWords 32 q.fmt.image
  ++ padTo 256 q.fragA ++ padTo 256 q.fragB

/-- The step of a record; none where it breaks R373. -/
def stepOf (map : Lanes) (born : Nat) (w : List Word) : Option QStep :=
  let d := wordsNat (w.take 2)
  match formatOf (wordsNat ((w.drop 32).take 32)) with
  | some f =>
    if bits d 1 0 != 0 || bits d 15 14 == 3 || bits d 13 12 == 3 || (w.drop 3).headD 0 != 0
        || ((w.drop 12).take 20).any (fun x => x != 0)
        || (bits d 13 12 == 2 && ((w.drop 4).take 8).any (fun x => x != 0))
        || (bits d 13 12 != 2 && ((!flagBit d 5 && ((w.drop 64).take 256).any (fun x => x != 0))
          || (!flagBit d 4 && ((w.drop 320).take 256).any (fun x => x != 0)))) then none
    else
      let k := if bits d 13 12 = 0 then StepKind.tmma else if bits d 13 12 = 1 then .tmmaQ else .rbox
      some ⟨k, bits d 63 16, bits d 15 14, bits d 11 6, flagBit d 5, flagBit d 4, bits d 3 2, (w.drop 2).headD 0,
        (w.drop 4).take 8, f, (w.drop 64).take 256, (w.drop 320).take 256, map, born, false, [], none, none⟩
  | none => none

/-- What a frame's header records (R372). -/
structure Header where
  fmap : Lanes
  faddr : Nat
  pc : Nat
  stepno : Nat
  nent : Nat
  nstep : Nat
  slot : Nat
  async : Bool
  pmode : Bool
  cause : Nat
  deriving DecidableEq, Repr

def Header.image (h : Header) : Nat :=
  h.cause * 2 ^ 256 + b2n h.pmode * 2 ^ 269 + b2n h.async * 2 ^ 270 + h.slot * 2 ^ 271 + h.nstep * 2 ^ 273
  + h.nent * 2 ^ 275 + h.stepno * 2 ^ 304 + h.pc % 2 ^ 48 * 2 ^ 320 + h.faddr % 2 ^ 64 * 2 ^ 384 + h.fmap.toNat * 2 ^ 448

def headerOf (x : Nat) : Header :=
  ⟨BitVec.ofNat 64 (bits x 511 448), bits x 447 384, bits x 367 320, bits x 319 304, bits x 281 275, bits x 274 273,
    bits x 272 271, flagBit x 270, flagBit x 269, bits x 261 256⟩

/-- One register over lanes 0 to 63, zero at or above the width (R371). -/
def Group.laneWords (g : Group) (n : Nat) : List Word :=
  (List.range 64).map (fun i => if i < g.width then g.regs.getV i n else 0)

/-- The frame's 2048 words (R371). -/
def frameWords (g : Group) (h : Header) (bbt : List BbtEntry) (steps : List QStep) : List Word :=
  natWords 16 h.image ++ List.replicate 16 0 ++ (List.range 8).map g.regs.getS
  ++ (List.range 7).flatMap (fun i => natWords 2 (g.regs.getP (i + 1) &&& Lanes.below g.width).toNat)
  ++ List.replicate 10 0 ++ g.laneWords 0 ++ g.laneWords 1
  ++ padTo 256 (bbt.flatMap (fun e => natWords 4 (e.image g.base)))
  ++ padTo 576 ((steps.map QStep.words).getD 0 []) ++ padTo 576 ((steps.map QStep.words).getD 1 [])
  ++ List.replicate 448 0

/-- Widths as codes (R249, R370). -/
def widthCode (w : Nat) : Nat := if w = 8 then 0 else if w = 16 then 1 else if w = 32 then 2 else 3

def levelCode : Level → Nat
  | .none => 0
  | .user => 1
  | .super => 2

/-- The GCB's control word (R370). -/
def Group.control (g : Group) : Nat :=
  g.leash.pair * 2 ^ 4 + g.leash.state * 2 ^ 6 + g.leash.core * 2 ^ 9
  + (match g.tile with
    | some t => b2n t.leader * 2 ^ 15 + b2n t.paired * 2 ^ 16 + b2n t.int * 2 ^ 17 + (t.n - 1) * 2 ^ 18 + 2 ^ 24
    | none => 0)
  + b2n g.trap.uipend * 2 ^ 25 + b2n g.trap.uien * 2 ^ 26 + b2n g.trap.lmode * 2 ^ 27 + b2n g.trap.mode * 2 ^ 28
  + levelCode g.trap.level * 2 ^ 29 + widthCode g.width * 2 ^ 31 + g.scount * 2 ^ 33 + g.vdecl * 2 ^ 41
  + g.regs.cwIdx * 2 ^ 48 + g.regs.cwBank * 2 ^ 56 + (g.regs.fstat.toNat % 64) * 2 ^ 60 + g.gcn * 2 ^ 72
  + g.trap.safecnt % 2 ^ 16 * 2 ^ 80 + g.trap.uhvec.toNat * 2 ^ 96

/-- A claim entry (R370): MAP, then the tile's GEN, SLOT and CORE in their handle places. -/
def claimImage (c : Lanes × DWord) : Nat := c.1.toNat * 2 ^ 64 + c.2.toNat / 2 ^ 10 * 2 ^ 10

/-- The GCB's first 512 bytes: control word, zeros, handles and claim entries (R369). -/
def Group.gcbWords (g : Group) : List Word :=
  natWords 4 g.control ++ List.replicate 28 0
  ++ (List.range 16).flatMap (fun i => natWords 2 (g.regs.getH i).toNat)
  ++ (List.range 16).flatMap (fun i => natWords 4 (claimImage (g.regs.claim i)))

end Sys2Proof.Machine
end

