-- ==== Sys2Proof/Machine/Access.lean ====
section
/-! DEFINITION. What an address of a lane reaches (R132, R133, R142, R143, R166, R274, R391) and the reading
and writing of generic memory, the Kennel aperture, team-local storage and constants by a group. -/

namespace Sys2Proof.Machine

/-- A cause raised by a word (R363): the threads that incur it and the faulting address. -/
structure Raise where
  cause : Nat
  fmap : Lanes
  faddr : Nat
  deriving DecidableEq, Repr

/-- How a word fails to take effect: a trap, a wait of its issue set at the word, a wait for a page request
posted for a stage-2 failure of a path at a guest physical address, with the threads and the address (R392), or
a wait at issue without parking (R193). -/
inductive Stop where
  | trap (r : Raise)
  /-- Cause 0x05 with the address of each of its threads, by which aborted tasks wait for their own pages (R95). -/
  | traps (r : Raise) (own : List (Nat × Nat))
  | park (why : Park)
  | page (path : Nat) (fmap : Lanes) (va : Nat) (gpa : Nat) (wr : Bool)
  | wait
  /-- A follower's word on its own blocks, from one on and so many, sends its request to its leader and waits at issue (R348). -/
  | ask (x : Nat) (m : Nat)
  deriving DecidableEq, Repr

/-- What a generic address reaches for a path-L access. -/
inductive Spot where
  | mem (pa : Nat)
  | tile (core : Nat) (slot : Nat) (off : Nat)
  | park (why : Park)
  | page (gpa : Nat)
  | fail (cause : Nat)
  deriving DecidableEq, Repr

/-- The translation request of a group's access. -/
def Group.req (g : Group) (cache : Cache) (acc : Access) : TransReq := ⟨cache, g.ctx, g.trap.mode, acc⟩

/-- Element address of a tensor (R147): the byte offset of (i0, i1, i2, i3). -/
def TensorRec.ebits (t : TensorRec) : Nat := 4 * 2 ^ t.esz
def TensorRec.addr (t : TensorRec) (i : List Int) : Int :=
  (t.base : Int) + i.getD 1 0 * t.strides.getD 0 0 + i.getD 2 0 * t.strides.getD 1 0 + i.getD 3 0 * t.strides.getD 2 0
    + (i.getD 0 0 * t.ebits) / 8

/-- Whether an element lies inside the record's sizes. -/
def TensorRec.inside (t : TensorRec) (i : List Int) : Bool :=
  (List.range 4).all (fun d => decide (0 ≤ i.getD d 0 ∧ i.getD d 0 < (t.sizes.getD d 1 : Int)))

/-- The bytes of one dim0 run of a box, and of the box (R147). -/
def boxRun (t : TensorRec) (extent : List Nat) : Nat := extent.getD 0 1 * t.ebits / 8
def boxBytes (t : TensorRec) (extent : List Nat) : Nat :=
  boxRun t extent * extent.getD 1 1 * extent.getD 2 1 * extent.getD 3 1

/-- The coordinates at a dense byte of a box: the first element that the byte holds. -/
def boxCoord (t : TensorRec) (origin : List Int) (extent : List Nat) (b : Nat) : List Int :=
  let run := boxRun t extent
  let r := b / run
  [origin.getD 0 0 + (b % run * 8 / t.ebits : Nat), origin.getD 1 0 + (r % extent.getD 1 1 : Nat),
   origin.getD 2 0 + (r / extent.getD 1 1 % extent.getD 2 1 : Nat),
   origin.getD 3 0 + (r / extent.getD 1 1 / extent.getD 2 1 % extent.getD 3 1 : Nat)]

/-- The generic address of a window line (R142): of 256 bytes of the dense box, or of the linear range. -/
def Window.lineAddr (w : Window) (line : Nat) : Nat :=
  match w.trec with
  | some t => (t.addr (boxCoord t w.origin w.extent (256 * line))).toNat
  | none => w.gbase + 256 * line

/-- The window line that holds a generic address, if any: a linear range, or a line of the box. -/
def Window.lineOf (w : Window) (va : Nat) : Option Nat :=
  if w.tensor then (List.range (w.len / 256)).find? (fun l => w.lineAddr l == va / 256 * 256)
  else if w.gbase ≤ va && va < w.gbase + w.len then some ((va - w.gbase) / 256) else none
def Team.windowOf (t : Team) (va : Nat) : Option (Nat × Nat) :=
  t.windows.findSome? (fun e => (e.2.lineOf va).map (fun l => (e.1, l)))

/-- Whether a generic address lies in a context's Kennel aperture (R166). -/
def Ctx.inAperture (c : Ctx) (va : Nat) : Bool := decide (0 < c.kcfg.size) && c.kab ≤ va && decide (va < c.kab + 384 * 2 ^ 20)

/-- An aperture address in a tile of the context: core, first slot and offset (R166). -/
def State.apertureTile (s : State) (ctx va : Nat) : Option (Tile × Nat) :=
  let o := va - (s.ctx ctx).kab
  match s.kennel.tileOver (o / 2 ^ 23) (o % 2 ^ 23 / 256) with
  | some t => if t.ctx = ctx then some (t, o % 2 ^ 23 - 256 * t.slot) else none
  | none => none

/-- Copies pending into a line of a team's storage, or of a tile, keep it absent (R150). -/
def Copy.covers (c : Copy) (team off len : Nat) : Bool :=
  !c.out && match c.near with
    | .tls t o => t == team && c.left.any (fun _ => o / 256 ≤ (off + len - 1) / 256 && off / 256 ≤ (o + c.bytes - 1) / 256)
    | .tile _ _ _ _ => false
def State.lineAbsent (s : State) (team off len : Nat) : Bool := s.copies.any (fun e => e.2.covers team off len)
def Copy.coversTile (c : Copy) (core slot gen off len : Nat) : Bool :=
  !c.out && match c.near with
    | .tile k n g o => k == core && n == slot && g == gen
        && c.left.any (fun _ => o / 256 ≤ (off + len - 1) / 256 && off / 256 ≤ (o + c.bytes - 1) / 256)
    | .tls _ _ => false
def State.tileAbsent (s : State) (core slot off len : Nat) : Bool :=
  s.copies.any (fun e => e.2.coversTile core slot (s.kennel.gen core slot) off len)

/-- What an access of a window line reaches (R143, R277, R391): a present line's byte under the rights of its page, which the
checker of carve-outs judges at every hit (R456), the cause of a fill that failed, or a wait for the fill. -/
def State.windowSpot (s : State) (g : Group) (t : Team) (n l : Nat) (va size : Nat) (write read : Bool) : Spot :=
  match SMap.find t.lines (n * 65536 + l) with
  | some e =>
    if e.present then
      (if (write && !e.w) || (!g.trap.mode && !e.u) || s.svc.barred g.ctx e.pa then .fail 0x06
       else if read && poisoned s.mem.poison (e.pa + va % 256) size then .fail 0x15
       else .mem (e.pa + va % 256))
    else if e.cause ≠ 0 then .fail e.cause
    else .park (.window g.team n l)
  | none => .park (.window g.team n l)

/-- The team's window line that holds a generic address. -/
def State.windowAt (s : State) (g : Group) (va : Nat) : Option (Team × Nat × Nat) :=
  (SMap.find s.teams g.team).bind (fun t => (t.windowOf va).map (fun w => (t, w)))

/-- What a path-L access of a group at a generic address reaches, or the cause it incurs, in the order of
R133; `atomic` marks the words that the aperture refuses (R166). A reader of a poisoned word takes cause 0x15 (R464). -/
def State.spot (s : State) (g : Group) (va size : Nat) (acc : Access) (atomic : Bool) : Spot :=
  if va % size ≠ 0 then .fail 0x04
  else if 2 ^ 48 ≤ va then .fail 0x06
  else match s.windowAt g va with
  | some (t, (n, l)) => s.windowSpot g t n l va size (acc == .write) (acc == .read || atomic)
  | none =>
    if (s.ctx g.ctx).inAperture va then
      match s.apertureTile g.ctx va with
      | some (t, o) =>
        if atomic then .fail 0x06
        else if t.sealed then .fail (if acc == .write then 0x06 else 0x08)
        else if s.tileAbsent t.core t.slot o size then .park (.tileLine t.core t.slot (o / 256))
        else if acc == .read && poisoned t.poison o size then .fail 0x15
        else .tile t.core t.slot o
      | none => .fail 0x06
    else match s.translate (g.req (.core g.core) acc) va with
    | .ok pa _ => if (acc == .read || atomic) && poisoned s.mem.poison pa size then .fail 0x15 else .mem pa
    | .absent => .fail 0x05
    | .denied => .fail 0x06
    | .soft => .fail 0x15
    | .stage2 gpa => .page gpa

/-- The order in which causes are looked for (R133, R178, R375). -/
def causeOrder : List Nat := [0x15, 0x01, 0x09, 0x0B, 0x0E, 0x04, 0x13, 0x07, 0x08, 0x06, 0x05]

/-- The first cause in an order that some thread incurs, with its threads and the lowest one's address. -/
def firstCause (order : List Nat) (fails : List (Nat × Nat × Nat)) : Option Raise :=
  match order.find? (fun c => fails.any (fun f => f.2.1 == c)) with
  | some c =>
    let own := fails.filter (fun f => f.2.1 == c)
    some ⟨c, Lanes.of (own.map (fun f => f.1)), (own.head?.map (fun f => f.2.2)).getD 0⟩
  | none => none

/-- Fills the caches with the translation of an access that reached memory. -/
def State.noteXlat (s : State) (g : Group) (va : Nat) (acc : Access) : State :=
  match s.windowAt g va with
  | some _ => s
  | none =>
    if (s.ctx g.ctx).inAperture va then s else s.cacheXlat (g.req (.core g.core) acc) va

/-- Where a tentative byte belongs: a physical address, or beyond 2^48 a place in the Kennel aperture, with the generation
of the tile that holds it (R165, R243). -/
def State.keyOf (s : State) : Spot → Nat
  | .mem pa => pa
  | .tile c k o => s.kennel.gen c k * 2 ^ 56 + 2 ^ 48 + c * 2 ^ 23 + k * 256 + o
  | _ => 0

/-- A lane's tentative bytes merged over a word it loads (R243). -/
def Task.merge (t : Task) (key : Nat) (w : Word) : Word :=
  (List.range 4).foldl (fun w i => match SMap.find t.stores (key + i) with
    | some b => setByteOf w i b
    | none => w) w
def Group.merged (g : Group) (lane key : Nat) (w : Word) : Word :=
  match SMap.find g.tasks lane with
  | some t => if t.replay then t.merge key w else w
  | none => w

/-- A physical line lies in a window of another team of a core, whose L1 does not allocate it (R277). -/
def State.windowed (s : State) (core team line : Nat) : Bool :=
  s.teams.any (fun e => e.1 != team && e.2.core == core && e.2.life == .resident
    && e.2.lines.any (fun l => l.2.present && l.2.pa / 256 == line))

/-- A physical line lies in a window of a team of a core, present. -/
def State.lineHere (s : State) (core line : Nat) : Bool :=
  s.teams.any (fun e => e.2.core == core && e.2.life == .resident && e.2.lines.any (fun l => l.2.present && l.2.pa / 256 == line))

/-- A word of memory read on path L for a team of a core. Where the line lies in another team's window, the read travels to
the home slice and is forwarded, after the core's own store (R277, R294); else a miss fills the sector (R281). -/
def State.pathRead (s : State) (core team w : Nat) : MemSys × Word :=
  if s.windowed core team (w / 64) then s.mem.homeRead core w
  else
    let m := s.mem.touch core w
    (m, m.coreWord core w)

/-- A word read on path L at a spot, and the state after the read. -/
def State.loadSpot (s : State) (g : Group) (lane : Nat) (p : Spot) : State × Word :=
  match p with
  | .mem pa =>
    let (m, v) := s.pathRead g.core g.team (pa / 4)
    ({ s with mem := m }, g.merged lane pa v)
  | .tile c k o => (s, g.merged lane (s.keyOf p) (match s.kennel.tileAt c k with
      | some t => Memory.word t.bytes o
      | none => 0))
  | _ => (s, 0)

/-- A word written on path L at a spot. -/
def State.storeSpot (s : State) (g : Group) (v : Word) : Spot → State
  | .mem pa => { s with mem := s.mem.store g.core (pa / 4) v }
  | .tile c k o => match s.kennel.tileAt c k with
      | some t => { s with kennel := s.kennel.setTile { t with bytes := Memory.setWord t.bytes o v, poison := unpoison t.poison (o / 4) } }
      | none => s
  | _ => s

/-- The spot of the word i words further on. -/
def Spot.plus (i : Nat) : Spot → Spot
  | .mem pa => .mem (pa + 4 * i)
  | .tile c k o => .tile c k (o + 4 * i)
  | p => p

/-- k words read from a spot on. -/
def State.loadWords (s : State) (g : Group) (lane : Nat) (p : Spot) : Nat → State × List Word
  | 0 => (s, [])
  | k + 1 =>
    let (s, w) := s.loadSpot g lane p
    let (s, ws) := State.loadWords s g lane (p.plus 1) k
    (s, w :: ws)
def State.storeWords (s : State) (g : Group) (p : Spot) : List Word → State
  | [] => s
  | w :: ws => State.storeWords (s.storeSpot g w p) g (p.plus 1) ws

/-- The first touch of a window line starts its fill (R143, R277). -/
def State.startFill (s : State) : Park → State
  | .window team n l => s.modTeam team (fun t => match SMap.find t.lines (n * 65536 + l) with
      | some _ => t
      | none => { t with lines := SMap.put t.lines (n * 65536 + l) ⟨false, 0, false, false, 12, 0⟩ })
  | _ => s

/-! ## Path H -/

/-- Some byte of a physical run lies in an enabled carve-out (R456). -/
def Service.covers (v : Service) (a n : Nat) : Bool :=
  v.carves.any (fun e => e.2.en && decide (a < e.2.base + e.2.size) && decide (e.2.base < a + n))

/-- Accesses of hosts and of path H; the checker refuses those that touch a carve-out (R456). -/
def State.violate (s : State) : State := { s with svc := { s.svc with viol := min (s.svc.viol + 1) (2 ^ 32 - 1) } }
def State.hWrite (s : State) (a : Nat) (d : List Byte) : State :=
  if s.svc.covers a d.length then s.violate else { s with mem := s.mem.hostWrite a d }
def State.hRead (s : State) (a n : Nat) : State × List Byte :=
  if s.svc.covers a n then (s.violate, List.replicate n 0)
  else
    let m := s.mem.hostReads a n
    ({ s with mem := m }, m.hostRead a n)

/-! ## Page requests -/

/-- A page request posted by an engine, or the one of that engine already standing for the page (R393): the record
is written at the ring's TAIL where there is room. -/
def State.postPage (s : State) (engine : Cache) (ctx path : Nat) (st2 wr : Bool) (addr : Nat) : State × Nat :=
  match s.trans.reqs.find? (fun e => e.2.engine == engine && e.2.ctx == ctx && e.2.path == path && e.2.stage2 == st2 && e.2.addr / 4096 == addr / 4096) with
  | some e => (s, e.1)
  | none =>
    let c := s.ctx ctx
    let k := s.trans.nextReq
    let ring := 2 ^ (c.prqsz + 4)
    let (s, d) := s.hRead (c.tdesc + 24) 8
    let tail := natOf (d.take 4)
    let head := natOf (d.drop 4)
    let full := (tail + 2 ^ 32 - head) % 2 ^ 32 ≥ ring
    let at_ := c.prqb + 32 * (tail % ring)
    let img := addr % 2 ^ 48 + b2n wr * 2 ^ 135 + b2n st2 * 2 ^ 136 + path * 2 ^ 137 + c.pasid * 2 ^ 140
      + c.vmid * 2 ^ 160 + ctx * 2 ^ 176
    let s := if full then s else (s.hWrite at_ (bytesOf 32 img)).hWrite (c.tdesc + 24) (bytesOf 4 ((tail + 1) % 2 ^ 32))
    let q : PageReq := ⟨engine, ctx, c.pasid, path, st2, addr, wr, if full then none else some at_⟩
    ({ s with trans := { s.trans with reqs := SMap.put s.trans.reqs k q, nextReq := k + 1 } }, k)

/-- Dword n of a group's constant window, read on path L for the threads of m (what the read leaves in the caches is
`readConst`); or the stop that the bank or its memory gives; R104 has no 0x08, and a bank in a sealed tile faults with 0x06 as the
tile's other refusals do (R15, R92, R104; log 149). -/
def State.constWord (s : State) (g : Group) (m : Lanes) (n : Nat) : Except Stop Word :=
  let off := 256 * g.regs.cwIdx + 4 * n
  match (SMap.find s.grids g.grid).bind (fun r => r.banks[g.regs.cwBank]?) with
  | some base =>
    if base = 0 then .error (.trap ⟨0x06, m, off⟩)
    else match s.spot g (base + off) 4 .read false with
    | .mem pa => .ok (s.pathRead g.core g.team (pa / 4)).2
    | .tile c k o => .ok (match s.kennel.tileAt c k with
        | some t => Memory.word t.bytes o
        | none => 0)
    | .park w => .error (.park w)
    | .page gpa => .error (.page 0 m (base + off) gpa false)
    | .fail c => .error (.trap ⟨if c = 0x08 then 0x06 else c, m, base + off⟩)
  | none => .error (.trap ⟨0x06, m, off⟩)

/-- What the read of dword n of the constant window leaves: its sector in the L1, and its translation (R15, R281, R388). -/
def State.readConst (s : State) (g : Group) (n : Nat) : State :=
  match (SMap.find s.grids g.grid).bind (fun r => r.banks[g.regs.cwBank]?) with
  | some base =>
    let va := base + (256 * g.regs.cwIdx + 4 * n)
    if base = 0 then s
    else match s.spot g va 4 .read false with
    | .mem pa =>
      let s := s.noteXlat g va .read
      { s with mem := (s.pathRead g.core g.team (pa / 4)).1 }
    | _ => s
  | none => s

/-- What dword n of the constant window reaches, as an access of every lane. -/
def State.constSpot (s : State) (g : Group) (n : Nat) : List (Nat × Spot) :=
  match (SMap.find s.grids g.grid).bind (fun r => r.banks[g.regs.cwBank]?) with
  | some base =>
    let p := s.spot g (base + (256 * g.regs.cwIdx + 4 * n)) 4 .read false
    (List.range g.width).map (fun t => (t, p))
  | none => []

/-- The team a rank of a group's cluster names (R140). -/
def State.rankTeam (s : State) (g : Group) (rank : Nat) : Option Nat :=
  match SMap.find s.teams g.team with
  | some t => (s.teams.find? (fun e => e.2.grid == t.grid && e.2.cluster == t.cluster && e.2.rank == rank && e.2.life != .ended)).map Prod.fst
  | none => none

/-- A stash address word's rank and offset; none where a zero field is set or the rank names no team of
the cluster (R140, R245). -/
def State.stashWord (s : State) (g : Group) (w : Word) : Option (Nat × Nat) :=
  let n := w.toNat
  if bits n 31 28 != 0 || flagBit n 23 then none
  else (s.rankTeam g (bits n 27 24)).map (fun t => (t, bits n 22 0))

end Sys2Proof.Machine
end

