-- ==== Sys2Proof/Machine/Waiters.lean ====
section
/-! DEFINITION. Waiting requests of groups and their order (R321), acquires of a group, and phase barriers: their words,
the completion test, and the release of their waiters (R155, R156). -/

namespace Sys2Proof.Machine

/-- A parked request with its group. -/
structure Waiter where
  id : Nat
  g : Group
  p : Parked

/-- The order of requests: age, then group context number (R321). Two of one clock and number, of different cores, stand
before neither (log 180). -/
def Waiter.before (a b : Waiter) : Bool := a.p.born < b.p.born || (a.p.born == b.p.born && a.g.gcn < b.g.gcn)

/-- The waiting requests that satisfy a condition, of resident and of saved groups. -/
def State.waiters (s : State) (f : Group → Park → Bool) : List Waiter :=
  s.groups.flatMap (fun e => (e.2.parked.filter (fun p => f e.2 p.why)).map (fun p => ⟨e.1, e.2, p⟩))

/-- The oldest of some requests, and the youngest. -/
def oldest (l : List Waiter) : Option Waiter :=
  l.foldl (fun b e => match b with
    | some h => if e.before h then some e else b
    | none => some e) none
def youngest (l : List Waiter) : Option Waiter :=
  l.foldl (fun b e => match b with
    | some h => if h.before e then some e else b
    | none => some e) none

/-- Some waiting request stands before one of a group made at a time. -/
def State.olderWaits (s : State) (f : Group → Park → Bool) (born gcn : Nat) : Bool :=
  (s.waiters f).any (fun w => w.p.born < born || (w.p.born == born && w.g.gcn < gcn))

/-- A group's request leaves its waits; its threads go on at a place. -/
def State.granted (s : State) (id : Nat) (p : Parked) (pc slot : Nat) : State :=
  s.modGroup id (fun g => ({ g with parked := g.parked.erase p }).enter p.map pc slot)

/-- The live groups of a team. -/
def State.liveGroups (s : State) (id : Nat) : List (Nat × Group) := s.groups.filter (fun e => e.2.team == id && e.2.live != 0)

/-- The teams that hold the partners of a team's paired tiles (R184). -/
def State.partnerTeams (s : State) (id : Nat) : List Nat :=
  (s.groups.filter (fun e => e.2.team == id)).filterMap (fun e => match e.2.tile with
    | some t => if t.paired then (SMap.find s.groups t.partner).map (fun h => h.team) else none
    | none => none)

/-- A team with every team that pairing joins to it. -/
def State.joined (s : State) : Nat → List Nat → List Nat
  | 0, l => l
  | k + 1, l => State.joined s k ((l ++ l.flatMap s.partnerTeams).dedup)
def State.companions (s : State) (id : Nat) : List Nat := s.joined 8 [id]

/-- A saved team is queued for its restore, with those that pairing joins to it (R184, R265). -/
def State.wantTeams (s : State) (id : Nat) : State :=
  (s.companions id).foldl (fun (s : State) t => s.modTeam t (fun t => { t with wanted := true })) s

/-- The team of a saved group whose wait has ended is queued for relaunch (R265). -/
def State.wantTeam (s : State) (g : Group) : State := if g.life = .saved then s.wantTeams g.team else s

/-- An acquire of path L at a scope by a group (R283, R299). -/
def State.acquireBy (s : State) (id : Nat) (scope : Nat) : State :=
  match SMap.find s.groups id with
  | some g => { s with mem := s.mem.acquire g.core scope }
  | none => s

/-! ## Phase barriers -/

/-- The words of a barrier: PHASE, ARRIVED, EXPECTED, PEND (R155). -/
def Team.pb (t : Team) (off i : Nat) : Word := Memory.word t.tls (off + 4 * i)
def State.setPb (s : State) (team off i : Nat) (w : Word) : State :=
  s.modTeam team (fun t => { t with tls := Memory.setWord t.tls (off + 4 * i) w })

/-- Waiters of a barrier whose tokens satisfy a condition resume at the next packet with the value given;
true acquires at scope clu (R156). Those of a saved team resume in its saved state. -/
def State.pbWake (s : State) (team off : Nat) (ok : Bool) (f : Word → Bool) : State :=
  let ws := s.waiters (fun _ w => match w with
    | .pbWait t o k _ => t == team && o == off && f k
    | _ => false)
  ws.foldl (fun (s : State) w =>
    let p := match w.p.why with
      | .pbWait _ _ _ p => p
      | _ => 0
    let s := (s.modGroup w.id (fun g =>
      { g with regs := g.regs.setP p w.p.map (if ok then BitVec.allOnes 64 else 0) }.resumeNext w.p)).wantTeam w.g
    if ok then s.acquireBy w.id 2 else s) s

/-- The completion test of a barrier (R156). -/
def State.pbTest (s : State) (team off : Nat) : State :=
  match SMap.find s.teams team with
  | some t =>
    if t.pb off 2 ≠ 0 ∧ t.pb off 1 = t.pb off 2 ∧ t.pb off 3 = 0 then
      let phase := t.pb off 0 + 1
      ((s.setPb team off 0 phase).setPb team off 1 0).pbWake team off true (fun k => k != phase)
    else s
  | none => s

/-- The barriers of a team that a waiter or a copy in flight names. -/
def State.barriers (s : State) (team : Nat) : List Nat :=
  (s.groups.flatMap (fun e => e.2.parked.filterMap (fun p => match p.why with
    | .pbWait t o _ _ => if t = team then some o else none
    | _ => none))
  ++ s.copies.filterMap (fun e => match e.2.compl with
    | .pb t o => if t = team then some o else none
    | .ctr _ => none)).dedup

/-- A barrier in use takes the contents that plain stores give it (R155; log 152): it is tested, and the waiters whose tokens
its PHASE no longer equals go on. -/
def State.pbStored (s : State) (team off n : Nat) : State :=
  ((s.barriers team).filter (fun o => decide (o < off + n ∧ off < o + 16))).foldl (fun (s : State) o =>
    let s := s.pbTest team o
    let phase := ((SMap.find s.teams team).map (fun t => t.pb o 0)).getD 0
    s.pbWake team o true (fun k => k != phase)) s

end Sys2Proof.Machine
end

