-- ==== Sys2Proof/Machine/Targets.lean ====
section
/-! DEFINITION. Render-target words at their slices: the modes and codings of a tile (R425 to R427), and what RTST, RTCLR
and RTDC do to a tile when they reach it, whole and one at a time (R215, R216, R218). A word that has issued waits in
`targets`: it is ordered like a store, by a release, and before a later access of one of its own threads to the bytes that it
writes (R218, R292, R294; log 79). -/

namespace Sys2Proof.Machine

/-- Slot bytes that a mode reads and writes (R425). -/
def modeBytes (m : Nat) : Nat :=
  match m with
  | 0x01 => 0
  | 0x02 => 4
  | 0x12 => 68
  | 0x14 => 132
  | 0x16 => 196
  | _ => 256

/-- A listed mode other than 0x00 (R425). -/
def modeListed (m : Nat) : Bool := modeBytes m != 256

/-- A channel of a pixel word. -/
def channel (p c : Nat) : Nat := p / 2 ^ (8 * c) % 256

/-- The pixels of a slot under a mode (R425, R426). -/
def decodePixels (mode clear : Nat) (slot : List Byte) : List Nat :=
  let x := natOf slot
  match mode with
  | 0x01 => List.replicate 64 clear
  | 0x02 => List.replicate 64 (x % 2 ^ 32)
  | _ =>
    if !modeListed mode then (List.range 64).map (fun m => x / 2 ^ (32 * m) % 2 ^ 32)
    else
      let w := mode % 16
      (List.range 64).map (fun m => (List.range 4).foldl (fun (a : Nat) c =>
        let z := x / 2 ^ (32 + (4 * m + c) * w) % 2 ^ w
        let d : Int := if z % 2 = 0 then (z / 2 : Nat) else -(((z + 1) / 2 : Nat) : Int)
        a + (((channel x c : Int) + d) % 256).toNat * 2 ^ (8 * c)) 0)

/-- The least and the greatest value of a channel. -/
def channelMin (l : List Nat) (c : Nat) : Nat := l.foldl (fun a p => min a (channel p c)) 255
def channelMax (l : List Nat) (c : Nat) : Nat := l.foldl (fun a p => max a (channel p c)) 0

/-- The mode that RTST chooses (R215, R427). -/
def chooseMode (l : List Nat) : Nat :=
  let fits := fun w => (List.range 4).all (fun c => channelMax l c - channelMin l c ≤ 2 ^ w - 1)
  if l.all (fun p => p == l.headD 0) then 0x02
  else if fits 2 then 0x12 else if fits 4 then 0x14 else if fits 6 then 0x16 else 0x00

/-- The slot bytes of 64 pixels under the mode chosen (R425 to R427). -/
def encodePixels (mode : Nat) (l : List Nat) : List Byte :=
  match mode with
  | 0x02 => bytesOf 4 (l.headD 0)
  | 0x00 => l.flatMap (bytesOf 4)
  | _ =>
    let w := mode % 16
    let base := (List.range 4).foldl (fun a c => a + (channelMin l c + 2 ^ (w - 1)) % 256 * 2 ^ (8 * c)) 0
    let deltas := (l.zipIdx).foldl (fun a e => (List.range 4).foldl (fun a c =>
      let d : Int := (channel e.1 c : Int) - channelMin l c - 2 ^ (w - 1)
      let z := (if 0 ≤ d then 2 * d else -2 * d - 1).toNat
      a + z * 2 ^ ((4 * e.2 + c) * w)) a) 0
    bytesOf (modeBytes mode) (base + deltas * 2 ^ 32)

/-- The Kennel tile of a place, while it stands. -/
def State.placeTile (s : State) (c k n : Nat) : Option Tile := if s.kennel.gen c k = n then s.kennel.tileAt c k else none

/-- A byte of a render target as its slice holds it, after the earlier stores of the word's own core (R218). -/
def State.placeByte (s : State) (core : Nat) : Place → Byte
  | .mem pa => (s.mem.ack core (pa / 4)).sliceByte pa
  | .tile c k n o => match s.placeTile c k n with
      | some t => Memory.get t.bytes o
      | none => 0

/-- A byte written there, a notifying write; the core keeps no older copy of its word. -/
def State.placeWrite (s : State) (core : Nat) (p : Place) (b : Byte) : State :=
  match p with
  | .mem pa =>
    let m := ((s.mem.ack core (pa / 4)).engineByte pa b).refresh core (pa / 4)
    { s with mem := m.note (pa / 256) }
  | .tile c k n o => match s.placeTile c k n with
      | some t => if t.sealed then s
        else { s with kennel := s.kennel.setTile { t with bytes := Memory.set t.bytes o b, poison := unpoison t.poison (o / 4) } }
      | none => s

/-- The place i bytes further on, and a run of bytes written from a place on. -/
def Place.plus (p : Place) (i : Nat) : Place :=
  match p with
  | .mem pa => .mem (pa + i)
  | .tile c k n o => .tile c k n (o + i)
def State.placeStore (s : State) (core : Nat) (p : Place) : List Byte → State
  | [] => s
  | b :: r => State.placeStore (s.placeWrite core p b) core (p.plus 1) r

/-- Two runs of bytes meet. -/
def Place.meets (p : Place) (n : Nat) (q : Place) (m : Nat) : Bool :=
  match p, q with
  | .mem a, .mem b => decide (a < b + m ∧ b < a + n)
  | .tile c k x a, .tile c' k' x' b => c == c' && k == k' && x == x' && decide (a < b + m ∧ b < a + n)
  | _, _ => false

/-- The place of a byte that path L reaches. -/
def Spot.place (n : Kennel) : Spot → Option Place
  | .mem pa => some (.mem pa)
  | .tile c k o => some (.tile c k (n.gen c k) o)
  | _ => none

/-- A run of n bytes meets the mode byte or the slot of a word. -/
def TargetWord.touches (u : TargetWord) (p : Place) (n : Nat) : Bool :=
  p.meets n u.mode 1 || (u.slot.map (fun q => p.meets n q 256)).getD false

/-- A word stands before a later one: they share a thread and bytes (R294). -/
def TargetWord.before (u t : TargetWord) : Bool :=
  u.group == t.group && u.map &&& t.map != 0
    && (u.touches t.mode 1 || (t.slot.map (fun q => u.touches q 256)).getD false)

/-- A run of bytes of a render target holds an uncorrectable error (R464). -/
def State.placePoisoned (s : State) (p : Place) (n : Nat) : Bool :=
  n != 0 && (match p with
    | .mem pa => poisoned s.mem.poison pa n
    | .tile c k x o => (s.placeTile c k x).any (fun t => poisoned t.poison o n))

/-- The generic address of a poisoned byte that a word would read (R215, R216, R464): the mode byte, or the bytes of the slot
that the mode stands for. -/
def State.targetHurt (s : State) (t : TargetWord) : Option Nat :=
  match t.op with
  | .clear => none
  | _ =>
    if s.placePoisoned t.mode 1 then some t.modeVa
    else
      let mode := (s.placeByte t.core t.mode).toNat
      let n := match t.op with
        | .expand => if modeListed mode then modeBytes mode else 0
        | _ => modeBytes mode
      if (t.slot.map (fun p => s.placePoisoned p n)).getD false then some t.slotVa else none

/-- A word takes effect on its tile (R215, R216). One that meets an error there has none: its group takes cause 0x15 at its next
boundary (R464; log 185). -/
def State.applyTarget (s : State) (t : TargetWord) : State :=
  match s.targetHurt t with
  | some va => s.modGroup t.group (fun g => { g with trap := { g.trap with pendSoft := some (g.trap.pendSoft.getD va) } })
  | none =>
    let mode := (s.placeByte t.core t.mode).toNat
    let old := fun p => decodePixels mode t.clear ((List.range 256).map (fun i => s.placeByte t.core (Place.plus p i)))
    match t.op, t.slot with
    | .clear, _ => s.placeWrite t.core t.mode 0x01
    | .pixels l, some p =>
      let px := l.foldl (fun px e => px.set e.1 e.2) (old p)
      (s.placeStore t.core p (encodePixels (chooseMode px) px)).placeWrite t.core t.mode (BitVec.ofNat 8 (chooseMode px))
    | .expand, some p =>
      if mode = 0 then s
      else if !modeListed mode then s.placeWrite t.core t.mode 0
      else (s.placeStore t.core p ((old p).flatMap (bytesOf 4))).placeWrite t.core t.mode 0
    | _, none => s

/-- The k-th word in flight arrives, unless one that stands before it has not (R292, R294). -/
def State.arriveTarget (s : State) (k : Nat) : State :=
  match s.targets[k]? with
  | some t =>
    if (s.targets.take k).any (fun u => u.before t) then s
    else ({ s with targets := s.targets.eraseIdx k }).applyTarget t
  | none => s

/-- The words in flight, each marked where it satisfies a condition or stands before one that is marked. -/
def markTargets (f : TargetWord → Bool) : List TargetWord → List (TargetWord × Bool)
  | [] => []
  | u :: r =>
    let l := markTargets f r
    (u, f u || l.any (fun e => e.2 && u.before e.1)) :: l

/-- The words in flight that satisfy a condition arrive, with those that stand before them, in the order of their issue. -/
def State.settleTargets (s : State) (f : TargetWord → Bool) : State :=
  if s.targets.any f then
    let l := markTargets f s.targets
    ((l.filter Prod.snd).map Prod.fst).foldl State.applyTarget
      { s with targets := (l.filter (fun e => !e.2)).map Prod.fst }
  else s

/-- Before some lanes access runs of n bytes, their own words in flight to those bytes arrive (R294). -/
def State.ownTargets (s : State) (id n : Nat) (l : List (Nat × Spot)) : State :=
  s.settleTargets (fun u => u.group == id && l.any (fun e => u.map.has e.1
    && ((e.2.place s.kennel).map (fun p => u.touches p n)).getD false))

end Sys2Proof.Machine
end

