-- ==== Sys2Proof/Machine/Ops.lean ====
section
/-! DEFINITION. The shared operations of the words: path-H accesses and the error log, operations on a tile
from any core, threads that cease to be live (R80, R368), completion of waits (R81, R82, R76), taking a trap
(R365 to R368) and returning from one (R374), and the issue of one word of a block (R17, R22, R266). -/

namespace Sys2Proof.Machine

/-- The part of a table at or above a key. -/
def SMap.above {α : Type} (n : Nat) : SMap α → SMap α
  | [] => []
  | (k, w) :: r => if k < n then SMap.above n r else (k, w) :: r

/-- A key above every key of the table. -/
def SMap.fresh {α : Type} (m : SMap α) : Nat := m.foldl (fun a e => max a (e.1 + 1)) 0

/-- Values numbered from a key. -/
def SMap.number {α : Type} (n : Nat) : List α → SMap α
  | [] => []
  | v :: r => (n, v) :: SMap.number (n + 1) r

/-- Values put at consecutive keys, in one pass. -/
def SMap.putRun {α : Type} : SMap α → Nat → List α → SMap α
  | [], n, vs => SMap.number n vs
  | (k, w) :: r, n, vs =>
    if k < n then (k, w) :: SMap.putRun r n vs else SMap.number n vs ++ SMap.above (n + vs.length) ((k, w) :: r)

/-- Path-L stores of consecutive words: as `MemSys.store` of each. -/
def MemSys.storeRun (m : MemSys) (c w : Nat) (vs : List Word) : MemSys :=
  let secs := (w + vs.length + 31) / 32 - w / 32
  { m with
    poison := m.poison.filter (fun x => decide (x < w / 2 ∨ (w + vs.length - 1) / 2 < x))
    l1 := SMap.putRun m.l1 (l1Key c w) (vs.map (fun v => ⟨v, true⟩))
    dirty := SMap.putRun m.dirty (secKey c (w / 32)) (List.replicate secs ())
    regq := m.regq ++ ((List.range vs.length).map (fun i => (c, w + i))).filter (fun e => !m.regq.contains e) }

/-- A byte stored on path L. -/
def MemSys.storeByte (m : MemSys) (c a : Nat) (b : Byte) : MemSys :=
  m.store c (a / 4) (setByteOf (m.coreWord c (a / 4)) (a % 4) b)

/-! ## The error log -/

/-- A 16-byte record to a context's error log (R447). -/
def State.logError (s : State) (ctx img : Nat) : State :=
  let c := s.ctx ctx
  let n := 2 ^ (c.elogsz + 4)
  if !c.bound then s
  else
  let (s, d) := s.hRead c.elog 12
  let tail := natOf (d.take 4)
  let head := natOf ((d.drop 4).take 4)
  let dropped := natOf (d.drop 8)
  if (tail + 2 ^ 32 - head) % 2 ^ 32 = n - 1 then s.hWrite (c.elog + 8) (bytesOf 4 (min (dropped + 1) (2 ^ 32 - 1)))
  else (s.hWrite (c.elog + 16 * (1 + tail % (n - 1))) (bytesOf 16 img)).hWrite c.elog (bytesOf 4 ((tail + 1) % 2 ^ 32))

/-! ## Operations on tiles and stashes of other cores -/

/-- The group that queued a word on the mesh, and the tile it concerns. -/
def MeshOp.group : MeshOp → Nat
  | .stash g .. => g
  | .seal g .. => g
  | .countDown g .. => g
  | .unclaim g .. => g
def MeshOp.tile : MeshOp → Option (Nat × Nat)
  | .stash .. => none
  | .seal _ c k _ => some (c, k)
  | .countDown _ c k .. => some (c, k)
  | .unclaim _ c k _ _ => some (c, k)
def MeshOp.onTile (core slot : Nat) (o : MeshOp) : Bool := o.tile == some (core, slot)

/-- Bytes written to a team's local storage hold no error any longer (R464). -/
def Team.write (t : Team) (off : Nat) (d : List Byte) : Team :=
  { t with
    tls := Memory.write t.tls off d
    poison := t.poison.filter (fun x => decide (x < off / 8 ∨ (off + d.length - 1) / 8 < x)) }

/-- A mesh word takes effect where it arrives (R176, R287, R327); a store into a barrier in use acts on it (R155). -/
def State.applyMesh (s : State) : MeshOp → State
  | .stash _ team off d => (s.modTeam team (fun t => t.write off d)).pbStored team off d.length
  | .seal _ c k n => { s with kennel := s.kennel.seal c k n }
  | .countDown _ c k n q o => { s with kennel := s.kennel.countDown c k n q o }
  | .unclaim _ c k n q => { s with kennel := s.kennel.unclaim c k n q }

/-- The groups' stash stores on the mesh, by group. -/
def MeshOp.stashOf (id : Nat) : MeshOp → Bool
  | .stash g _ _ _ => g == id
  | _ => false

/-- Some remote stash store of a group stands before an absent line, where it waits (R141, R287). -/
def State.stashStuck (s : State) (id : Nat) : Bool :=
  s.mesh.any (fun o => match o with
    | .stash g t off d => g == id && s.lineAbsent t off d.length
    | _ => false)

/-- A release of path L at a scope by the issue set of a word: every participant's, guarded or not (R299). The core's
render-target words reach their slices (R218, R282). A release of scope clu or beyond also performs the group's remote stash
stores (R287). -/
def State.releaseBy (s : State) (id : Nat) (scope : Nat) : State :=
  match SMap.find s.groups id with
  | some g =>
    let s := s.settleTargets (fun t => t.core == g.core)
    let s := if scope < 2 then s
      else (s.mesh.filter (MeshOp.stashOf id)).foldl State.applyMesh { s with mesh := s.mesh.filter (fun o => !o.stashOf id) }
    { s with mem := s.mem.release g.core scope }
  | none => s

/-- A wait on a tile: for its seal, or for a line of it. -/
def Park.onTile (core slot : Nat) : Park → Bool
  | .tile c k => c == core && k == slot
  | .tileLine c k _ => c == core && k == slot
  | _ => false

/-- Sealing a tile wakes its readers and whatever waits for it to be sealed (R171). -/
def State.wakeTile (s : State) (core slot : Nat) : State :=
  match s.kennel.tileAt core slot with
  | some t => if t.sealed then s.resumeWhere (Park.onTile core slot) else s
  | none => s.resumeWhere (Park.onTile core slot)

/-- An operation of a group on a tile: at once on its own core, over the mesh to another (R327). -/
def State.tileOp (s : State) (own core slot : Nat) (op : MeshOp) : State :=
  if core = own then (s.applyMesh op).wakeTile core slot else { s with mesh := s.mesh ++ [op] }

/-- A word of the mesh has arrived: it acts, and a sealed tile's readers wake. -/
def State.landMesh (s : State) (o : MeshOp) : State :=
  match o.tile with
  | some (c, k) => (s.applyMesh o).wakeTile c k
  | none => s.applyMesh o

/-- A group's operations on a tile that are still on the mesh arrive before a later one acts (R327). -/
def State.meshFlush (s : State) (id core slot : Nat) : State :=
  let mine := s.mesh.filter (fun o => o.group == id && o.onTile core slot)
  (mine.foldl State.applyMesh { s with mesh := s.mesh.filter (fun o => !(o.group == id && o.onTile core slot)) }).wakeTile
    core slot

/-! ## The Mire -/

/-- The parts of an allocation that lie outside a run of granules. -/
def MireBlock.cut (b : MireBlock) (ctx g n : Nat) : List MireBlock :=
  if b.ctx ≠ ctx || g + n ≤ b.granule || b.granule + b.count ≤ g then [b]
  else
    (if b.granule < g then [{ b with count := g - b.granule }] else [])
    ++ (if g + n < b.granule + b.count then [{ b with granule := g + n, count := b.granule + b.count - (g + n) }] else [])

/-- Granules of a context's Mire partition have returned, or been committed (R336). -/
def State.stirMire (s : State) (ctx q : Nat) : State :=
  { s with mireStir := SMap.put s.mireStir (ctx * 16 + q) (SMap.getD s.mireStir (ctx * 16 + q) 0 + 1) }

/-- Granules return to a context's Mire (R336). -/
def State.mireFree (s : State) (ctx g n : Nat) : State :=
  let parts := ((s.mire.filter (fun b => b.cut ctx g n != [b])).map (fun b => b.part)).dedup
  parts.foldl (fun (s : State) q => s.stirMire ctx q) { s with mire := s.mire.flatMap (fun b => b.cut ctx g n) }

/-- Records of a node at a generic address return. -/
def State.recordFree (s : State) (ctx grid node addr n : Nat) : State :=
  match (SMap.find s.grids grid).bind (fun r => r.nodes[node]?) with
  | some d => s.mireFree ctx ((addr - (s.ctx ctx).mcfg.base) / 16) (n * (d.recsz / 16))
  | none => s

/-! ## Tasks -/

/-- A tentative byte is stored where it belongs; one whose tile has been sealed or freed is lost (R165, R317). -/
def State.commitByte (s : State) (core key : Nat) (b : Byte) : State :=
  if key < 2 ^ 48 then { s with mem := s.mem.storeByte core key b }
  else
    let o := key % 2 ^ 48
    match s.kennel.tileOver (o / 2 ^ 23) (o % 2 ^ 23 / 256) with
    | some t => if t.sealed || s.kennel.gen t.core t.slot != key / 2 ^ 56 then s
      else { s with kennel := s.kennel.setTile { t with bytes := Memory.set t.bytes (o % 2 ^ 23 - 256 * t.slot) b } }
    | none => s

/-- A task's tentative stores become the core's own (R95, R96). -/
def State.commitTask (s : State) (core : Nat) (t : Task) : State :=
  t.stores.foldl (fun s e => s.commitByte core e.1 e.2) s

/-- The tasks of some lanes commit, in ascending lane order, as one release of scope dev; they hold no
replay afterwards (R95, R96, R134, R177, R243). -/
def State.commitTasks (s : State) (id : Nat) (m : Lanes) : State :=
  match SMap.find s.groups id with
  | some g =>
    let mine := g.tasks.filter (fun e => m.has e.1 && e.2.replay)
    if mine.isEmpty then s
    else
      let s := mine.foldl (fun s e => s.commitTask g.core e.2) s
      let s := { s with mem := s.mem.release g.core 3 }
      s.setGroup id { g with tasks := g.tasks.map (fun e =>
        (e.1, if m.has e.1 then { e.2 with replay := false, stores := [] } else e.2)) }
  | none => s

/-- Tasks end: their Mire entries return (R336). -/
def State.endTasks (s : State) (id : Nat) (m : Lanes) : State :=
  match SMap.find s.groups id with
  | some g =>
    let n := match SMap.find s.grids g.grid with
      | some r => taskGranules r
      | none => 0
    let mine := g.tasks.filter (fun e => m.has e.1)
    (mine.foldl (fun (s : State) e => s.mireFree g.ctx e.2.entry n) s).modGroup id (fun g =>
      { g with tasks := g.tasks.filter (fun e => !m.has e.1) })
  | none => s

/-! ## Claims, reservations, tiles and leashes -/

/-- Claims of some threads through one handle register leave it: with a count-down, or undone (R170, R328). -/
def State.dropClaim (s : State) (id h : Nat) (m : Lanes) (down : Bool) : State :=
  match SMap.find s.groups id with
  | some g =>
    let c := g.regs.claim h
    let n := Lanes.count (c.1 &&& m)
    if n = 0 then s
    else
      let t := c.2
      (s.setGroup id { g with regs := g.regs.setClaim h (c.1 &&& ~~~m) t }).tileOp g.core (hCore t) (hSlot t)
        (if down then .countDown id (hCore t) (hSlot t) (hGen t) n n else .unclaim id (hCore t) (hSlot t) (hGen t) n)
  | none => s
def State.dropClaims (s : State) (id : Nat) (m : Lanes) (down : Bool) : State :=
  (List.range 16).foldl (fun s h => s.dropClaim id h m down) s

/-- Records that some lanes reserved and did not commit return (R80, R95). -/
def State.dropResvs (s : State) (id : Nat) (m : Lanes) : State :=
  match SMap.find s.groups id with
  | some g =>
    ((g.resvs.filter (fun r => m.has r.lane)).foldl (fun (s : State) r => s.recordFree g.ctx g.grid r.node r.addr r.count) s).modGroup
      id (fun g => { g with resvs := g.resvs.filter (fun r => !m.has r.lane) })
  | none => s

/-- What SPAWN_GRANT set aside for some lanes returns: their words will not take effect (R336). -/
def State.dropGrants (s : State) (id : Nat) (f : SpawnGrant → Bool) : State :=
  match SMap.find s.groups id with
  | some g =>
    let n := ((SMap.find s.grids g.grid).map taskGranules).getD 0
    ((g.grants.filter f).foldl (fun (s : State) x => s.mireFree g.ctx x.entry n) s).modGroup id (fun g =>
      { g with grants := g.grants.filter (fun x => !f x) })
  | none => s

/-- The same at a return to level none, for the lanes that do not stand at their word (R365). -/
def State.sweepGrants (s : State) (id : Nat) : State :=
  match SMap.find s.groups id with
  | some g =>
    if g.trap.level = .none then
      s.dropGrants id (fun x => !g.bbt.any (fun e => e.map.has x.lane && e.pc == x.pc && e.slot == x.slot))
    else s
  | none => s

/-- The grids that run a group's step run none: the leader's pair and, in a paired step, the follower's (R347). -/
def State.freeGrid (s : State) (id : Nat) : State :=
  { s with pairs := s.pairs.map (fun e => (e.1, if e.2.running = some id then { e.2 with running := none, idle := s.clock } else e.2)) }

/-- A step that had begun is discarded with its working copies, and stays queued (R195, R349). -/
def QStep.undo (q : QStep) : QStep := { q with started := false, work := [] }
def State.undoSteps (s : State) (id : Nat) : State :=
  (s.freeGrid id).modGroup id (fun g => { g with tile := g.tile.map (fun t => { t with queue := t.queue.map QStep.undo }) })

/-- A group's tile stops at a step boundary, with its partner's (R184, R349). -/
def State.drainTile (s : State) (id : Nat) : State :=
  match (SMap.find s.groups id).bind (fun g => g.tile) with
  | some t => if t.paired then (s.undoSteps id).undoSteps t.partner else s.undoSteps id
  | none => s

/-- The link reserve of a core in bytes: the largest LINKRES of the grids with teams resident (R255). -/
def State.coreReserve (s : State) (core : Nat) : Nat :=
  (s.teams.filter (fun e => e.2.core == core && e.2.life == .resident)).foldl (fun a e =>
    match SMap.find s.grids e.2.grid with
    | some r => max a (r.lpb.linkres * 2048)
    | none => a) 0

/-- The pairs of a core take its link reserve; a pair with a linked tile does not shrink (R337). -/
def State.setReserve (s : State) (core : Nat) : State :=
  let l := s.coreReserve core
  (List.range 3).foldl (fun s p => s.modPair core p (fun q =>
    { q with reserve := if q.tiles.isEmpty then l else max l q.reserve })) s

/-- A tile unlinks: its blocks and records go, its grant returns, the reserve follows (R337), and pairing ends (R182,
R184). -/
def State.unlinkNow (s : State) (id : Nat) : State :=
  match SMap.find s.groups id with
  | some g => match g.tile with
    | some t =>
      let s := s.setGroup id { g with tile := none }
      let s := ((s.freeGrid id).modPair g.core t.pairNo (fun p => { p with tiles := p.tiles.erase id })).setReserve g.core
      if t.paired then
        s.modGroup t.partner (fun h => { h with tile := h.tile.map (fun u => { u with paired := false, leader := false }) })
      else s
    | none => s
  | none => s

/-- The oldest of a leash's waiters, parked or saved with their team (R202, R351). -/
def State.leashHead (s : State) (core pair : Nat) : Option (Nat × Group) :=
  (s.groups.filter (fun e => e.2.leash.state == 2 && e.2.leash.core == core && e.2.leash.pair == pair)).foldl
    (fun b e => match b with
      | some h => if e.2.leash.born < h.2.leash.born then some e else b
      | none => some e) none

/-- A leash passes to its oldest waiter, or becomes free (R202, R351). A waiter whose TAKE is to issue again, as after a
restore (R235), goes on when it does. -/
def State.leashPass (s : State) (core pair : Nat) : State :=
  match s.leashHead core pair with
  | some (w, g) =>
    let s := s.modPair core pair (fun p => { p with leashOwner := some w })
    let p := if g.life = .resident then g.parked.find? (fun p => p.why == .leash core pair) else none
    let g := { g with leash := { g.leash with state := 1, due := p.isNone } }
    s.setGroup w (match p with
      | some p => g.resumeNext p
      | none => g)
  | none => s.modPair core pair (fun p => { p with leashOwner := none })

/-- A group holds its leash no longer, or leaves its queue. -/
def State.leashLeave (s : State) (id : Nat) : State :=
  match SMap.find s.groups id with
  | some g =>
    let s1 := s.setGroup id { g with leash := {} }
    if g.leash.state = 1 then s1.leashPass g.leash.core g.leash.pair else s1
  | none => s

/-! ## Ends of groups and teams -/

/-- Copies of a group, or of a team, that have not completed. -/
def State.copiesOf (s : State) (f : Copy → Bool) : Bool := s.copies.any (fun e => f e.2)

/-- A team's storage and contexts are freed (R80, R255). -/
def State.freeTeam (s : State) (id : Nat) : State :=
  match SMap.find s.teams id with
  | some t =>
    let s := { s with groups := s.groups.filter (fun e => e.2.team != id), teams := SMap.erase s.teams id }
    s.setReserve t.core
  | none => s

/-- A team all of whose groups have ended ends; its storage stays while its copies run (R80). -/
def State.teamEnd (s : State) (id : Nat) : State :=
  if s.groups.all (fun e => e.2.team != id || e.2.life == .ended) then
    if s.copiesOf (fun c => c.team == id) then s.modTeam id (fun t => { t with life := .ended, lingering := true })
    else s.freeTeam id
  else s

/-- The steps that an unlink of a group waits for stand queued: its own, or those of its leader (R182, R184). -/
def State.stepsDue (s : State) (g : Group) : Bool :=
  match g.tile with
  | some t => !t.queue.isEmpty || (t.paired && !t.leader &&
      (((SMap.find s.groups t.partner).bind (fun h => h.tile)).map (fun u => !u.queue.isEmpty)).getD false)
  | none => false

/-- A context is freed once its group has ended and every copy that the group issued has completed (R80). -/
def State.freeContext (s : State) (id : Nat) : State :=
  match SMap.find s.groups id with
  | some g =>
    if g.life == .ended && !s.copiesOf (fun c => c.group == id) then
      s.modCtx g.ctx (fun c => { c with gcbs := c.gcbs.filter (fun b => b != g.trap.gcb) })
    else s
  | none => s

/-- The other half of the group's paired grid has no live threads and ends with the steps still queued, which a stop of the
group would hold up (R182, R184). -/
def State.runsOut (s : State) (g : Group) : Bool :=
  match g.tile with
  | some t => t.paired && (((SMap.find s.groups t.partner).map (fun h => h.live == 0 && h.life == .resident)).getD false)
  | none => false

/-- The records of a consumer batch return: all its threads have ceased to be live (R100, R336). -/
def State.returnBatch (s : State) (id : Nat) : State :=
  match SMap.find s.groups id with
  | some g => match g.batch with
    | some (n, l) => (l.foldl (fun (s : State) a => s.recordFree g.ctx g.grid n a 1) s).modGroup id (fun g => { g with batch := none })
    | none => s
  | none => s

/-- A group leaves its tile and its leash, and ends, with its team's end (R80). -/
def State.groupGone (s : State) (id : Nat) : State :=
  match SMap.find s.groups id with
  | some g =>
    let s := ((s.unlinkNow id).leashLeave id).returnBatch id
    let s := s.modGroup id (fun g => { g with life := .ended, bbt := [], parked := [], blk := none, firsts := [] })
    (s.freeContext id).teamEnd g.team
  | none => s

/-- A resident group without live threads, none of whose last steps stands queued any longer, ends (R182). -/
def State.endDrained (s : State) (id : Nat) : State :=
  match SMap.find s.groups id with
  | some g => if g.live = 0 ∧ g.life = .resident ∧ s.stepsDue g = false then s.groupGone id else s
  | none => s

/-- The other half of a group's paired tile, without live threads, ends where it waits for no step any longer (R80, R184). -/
def State.endPartner (s : State) (g : Group) : State :=
  match g.tile with
  | some t => if t.paired then s.endDrained t.partner else s
  | none => s

/-- A group without live threads ends: batch records, unlink, leash, the team's end (R80, R100). The unlink waits for the
steps that stand queued, and the group ends with the last of them (R182). -/
def State.groupEnd (s : State) (id : Nat) : State :=
  match SMap.find s.groups id with
  | some g =>
    let s := s.returnBatch id
    if s.stepsDue g then s else (s.groupGone id).endPartner g
  | none => s

/-! ## Completion of CONVERGE and the barriers -/

/-- CONVERGE completes when one entry of it holds every live thread, BAR.G when its entries do (R81, R82). -/
def Group.complete (g : Group) : Group :=
  match g.bbt.find? (fun e => e.wait == .converge && e.map == g.live && g.live != 0) with
  | some e => ({ g with bbt := g.bbt.filter (fun f => f != e) }).enter e.map (e.pc + 12) 0
  | none =>
    if g.live ≠ 0 ∧ g.waiting .barG = g.live then
      let es := g.bbt.filter (fun e => e.wait == .barG)
      es.foldl (fun g e => g.enter e.map (e.pc + 12) 0) { g with bbt := g.bbt.filter (fun e => e.wait != .barG) }
    else g

/-- BAR.G completes in a group (R82). -/
def Group.barDone (g : Group) : Bool := g.live != 0 && g.waiting .barG == g.live

/-- The arrivals of a group at BAR.T go on. -/
def Group.passBarT (g : Group) : Group :=
  let es := g.bbt.filter (fun e => e.wait == .barT)
  es.foldl (fun g e => g.enter e.map (e.pc + 12) 0) { g with bbt := g.bbt.filter (fun e => e.wait != .barT) }

/-- The completion tests of a team's groups after arrivals or ends (R82, R240): a group that is still saved while its team is
restored has threads that have not arrived. A barrier releases the threads' render-target words (R83, R218). -/
def State.complete (s : State) (team : Nat) : State :=
  let s := s.settleTargets (fun t => (SMap.find s.groups t.group).any (fun g => g.team == team && g.barDone))
  let s := { s with groups := s.groups.map (fun e => (e.1, if e.2.team = team then e.2.complete else e.2)) }
  let own := s.liveGroups team
  if own.isEmpty || own.any (fun e => e.2.life != .resident || e.2.waiting .barT != e.2.live) then s
  else
    let s := s.settleTargets (fun t => (SMap.find s.groups t.group).any (fun g => g.team == team))
    { s with groups := s.groups.map (fun e => (e.1, if e.2.team = team then e.2.passBarT else e.2)) }

/-- Some of the threads are tasks of a group. -/
def Group.tasksIn (g : Group) (m : Lanes) : Bool := g.tasks.any (fun e => m.has e.1)

/-- Threads cease to be live, as under EXIT (R80); in a task that is TASKEND, a release of scope dev (R96, R300). `commit`
is false for an aborted task (R95). -/
def State.ceaseAs (s : State) (id : Nat) (m : Lanes) (commit : Bool) : State :=
  match SMap.find s.groups id with
  | some g =>
    let m := m &&& g.live
    if m = 0 then s
    else
      let s := if commit then
          (if g.tasksIn m then (s.commitTasks id m).releaseBy id 3 else s).dropClaims id m true
        else s.dropClaims id m false
      let s := (s.dropResvs id m).dropGrants id (fun x => m.has x.lane)
      let s := if commit then s.endTasks id m
        else s.modGroup id (fun g => { g with tasks := g.tasks.filter (fun e => !m.has e.1) })
      let s := s.modGroup id (fun g => { g.removeThreads m with live := g.live &&& ~~~m })
      (if g.live &&& ~~~m = 0 then s.groupEnd id else s).complete g.team
  | none => s
def State.cease (s : State) (id : Nat) (m : Lanes) : State := s.ceaseAs id m true

/-- Tasks with replay abort: they are kept for requeue, each after its own page where pages are given (R95, R244). -/
def State.abortTasks (s : State) (id : Nat) (m : Lanes) (page : Option (Nat → Nat)) : State :=
  match SMap.find s.groups id with
  | some g =>
    let mine := g.tasks.filter (fun e => m.has e.1 && e.2.replay)
    let qs := mine.map (fun e => (e.1, (⟨e.2.index, e.2.record, e.2.entry⟩ : QTask)))
    let s := s.modGrid g.grid (fun r => match page with
      | some va => { r with aborted := r.aborted ++ qs.map (fun q => (q.2, va q.1, g.trap.mode)) }
      | none => { r with tasks := r.tasks ++ qs.map Prod.snd })
    s.ceaseAs id (Lanes.of (mine.map Prod.fst)) false
  | none => s

/-! ## Taking a trap -/

/-- Causes that always go to the supervisor (R363). -/
def causeSuper (c : Nat) : Bool := c == 0x02 || c == 0x14 || c == 0x15

/-- The physical addresses of n pages from a generic address, for the part's own accesses to a GCB; or how the first
that fails does, with its address. -/
def State.pagesOf (s : State) (g : Group) (acc : Access) (va : Nat) : Nat → Except (Nat × Xlat) (List Nat)
  | 0 => .ok []
  | n + 1 => match s.translate ⟨.core g.core, g.ctx, true, acc⟩ va with
    | .ok pa _ => (State.pagesOf s g acc (va + 4096) n).map (fun l => pa :: l)
    | x => .error (va, x)

/-- Words stored over pages of 1024 words. -/
def State.storePages (s : State) (core : Nat) : List Nat → List Word → State
  | [], _ => s
  | pa :: r, ws => State.storePages { s with mem := s.mem.storeRun core (pa / 4) (ws.take 1024) } core r (ws.drop 1024)

/-- n words as path L reads them, and words over pages. -/
def MemSys.coreWords (m : MemSys) (c w : Nat) : Nat → List Word
  | 0 => []
  | n + 1 => m.coreWord c w :: MemSys.coreWords m c (w + 1) n
def State.readPages (s : State) (core : Nat) (ps : List Nat) : List Word :=
  ps.flatMap (fun pa => s.mem.coreWords core (pa / 4) 1024)

/-- The same as a group reads it, with the tentative bytes of its tasks (R243, R366): in lane order, where two tasks have
stored to one byte (log 103). -/
def Group.tentative (g : Group) (ps : List Nat) (ws : List Word) : List Word :=
  let mine := (g.tasks.filter (fun e => e.2.replay)).flatMap (fun e => e.2.stores)
  mine.foldl (fun ws e => match ps.findIdx? (fun pa => pa ≤ e.1 && e.1 < pa + 4096) with
    | some k => ws.modify (k * 1024 + e.1 % 4096 / 4) (fun w => setByteOf w (e.1 % 4) e.2)
    | none => ws) ws

/-- The BBT as a frame saves it (R365): parked threads outside it stand runnable at their words. -/
def Group.images (g : Group) : List BbtEntry :=
  let l := g.bbt.map (fun e => { e with held := 0 })
  let l := g.parked.foldl (fun l p => bbtEnter l ⟨p.map, p.pc, p.slot, .runnable, 0, 0⟩) l
  match g.blk with
  | some b => bbtEnter l ⟨b.map, b.pc, b.slot, .runnable, 0, 0⟩
  | none => l

/-- What the first issue of a parked word leaves for its next issue: its age, or SLEEP's time left plus 1,
0 for no limit (R224, R365). A victim's word issues as a new request (R332). -/
def Parked.first (now : Nat) (frame : Level) (p : Parked) : Option FirstIssue :=
  match p.why with
  | .trap _ _ _ => none
  | .sleep u => some ⟨p.map, p.pc, p.slot, if u = 0 then 0 else u - now + 1, frame⟩
  | _ => some ⟨p.map, p.pc, p.slot, p.born, frame⟩

/-- The first issues of a group's words as a trap to a level keeps them (R365). -/
def Group.keptFirsts (g : Group) (now : Nat) (lvl : Level) : List FirstIssue :=
  g.firsts.map (fun f => if f.frame = .none then { f with frame := lvl } else f) ++ g.parked.filterMap (Parked.first now lvl)

/-- Those that the return from a level leaves: of its frame, the threads that stand at the word (R365); of the handler's own
words, none. -/
def Group.returnedFirsts (g : Group) (frm : Level) (bbt : List BbtEntry) : List FirstIssue :=
  let at_ := fun (f : FirstIssue) => (bbt.filter (fun e => e.wait == .runnable && e.pc == f.pc && e.slot == f.slot)).foldl
    (fun m e => m ||| e.map) (0 : Lanes)
  ((g.firsts.filter (fun f => f.frame != .none)).map (fun f =>
    if f.frame = frm then { f with map := f.map &&& at_ f, frame := .none } else f)).filter (fun f => f.map != 0)

/-- The address of a group's active frame, 0 when no level is active (R369). -/
def Group.frame (g : Group) : Nat :=
  match g.trap.level with
  | .none => 0
  | .user => g.trap.gcb + 0x1000
  | .super => g.trap.gcb + 0x3000

/-- The cause of the active level's frame, or 0 (R368). -/
def Group.frameCause (g : Group) : Nat :=
  match g.trap.level with
  | .none => 0
  | .user => g.trap.causeU
  | .super => g.trap.causeS

/-- A group ends by double trap, with a record in its context's error log (R368). -/
def State.doubleTrap (s : State) (id pc cause2 : Nat) : State :=
  match SMap.find s.groups id with
  | some g =>
    (s.cease id g.live).logError g.ctx (2 ^ 120 + pc % 2 ^ 48 * 2 ^ 72 + gridNumber g.grid * 2 ^ 40 + g.core * 2 ^ 34
      + g.gcn * 2 ^ 26 + g.frameCause * 2 ^ 20 + cause2 * 2 ^ 14)
  | none => s

/-- The group as its handler starts (R365, R376): one entry of every live thread at the handler, the tile
drained, the waits' requests withdrawn with their ages kept. -/
def Group.handled (g : Group) (now cause : Nat) (super : Bool) (shvec : Nat) : Group :=
  let t := g.trap
  let win := g.regs.cwBank * 256 + g.regs.cwIdx
  { g with
    base := if super then shvec else g.code
    bbt := [⟨g.live, if super then shvec else g.code + t.uhvec.toNat, 0, .runnable, 0, 0⟩]
    parked := []
    blk := none
    blockAsk := none
    firsts := g.keptFirsts now (if super then .super else .user)
    tile := g.tile.map (fun u => { u with queue := [] })
    leash := if g.leash.state = 2 then {} else g.leash
    trap := if super then { t with level := .super, mode := true, causeS := cause, winS := win, liveS := g.live }
      else { t with level := .user, mode := false, causeU := cause, winU := win, liveU := g.live, inU := true } }

/-- A trap waits for a page of its frame or header (R366, R392). -/
def State.holdTrap (s : State) (id : Nat) (g : Group) (gpa : Nat) (w : FrameWait) : State :=
  let (t, k) := s.postPage (.core g.core) g.ctx 0 true true gpa
  t.modGroup id (fun g => { g with frameWait := some { w with req := some k } })

/-- A trap is taken (R365): the frame and the group context block are written, and the group goes to its
handler; or it ends by double trap (R368), as with an active level at cause 0x14 (R451; log 118). The threads of the running
block are saved where it stands. A trap that waits for its frame keeps the group where it is (R366). -/
def State.deliver (s : State) (id cause : Nat) (fmap : Lanes) (faddr pc slot : Nat) (async : Bool) : State :=
  match SMap.find s.groups id with
  | none => s
  | some g =>
    if g.frameWait.isSome then s else
    let shvec := (s.ctx g.ctx).shvec
    let super := g.trap.mode || g.trap.level == .user || causeSuper cause || g.trap.uhvec == 0xFFFFFFFF
    let frame := g.trap.gcb + (if super then 0x3000 else 0x1000)
    if g.trap.level = .super ∨ (cause = 0x14 ∧ g.trap.level ≠ .none) then s.doubleTrap id pc cause
    else if super && shvec % 256 != 0 then s.doubleTrap id pc 0x3F
    else match s.pagesOf g .write frame 2, s.pagesOf g .write g.trap.gcb 1 with
    | .ok ps, .ok hs =>
      let steps := match g.tile with
        | some t => t.queue
        | none => []
      let stepno := match g.tile with
        | some t => if t.queue.isEmpty then 0 else (t.steps + 1) % 2 ^ 16
        | none => 0
      let bbt := g.images
      let h : Header := ⟨fmap, faddr, pc, stepno, bbt.length, steps.length, slot, async, g.trap.mode, cause⟩
      let s := (s.settleTargets (fun t => t.core == g.core)).storePages g.core ps (frameWords g h bbt steps)
      let s := s.drainTile id
      let g2 := g.handled s.clock cause super shvec
      ({ s with mem := s.mem.storeRun g.core ((hs.headD 0) / 4) g2.gcbWords }).setGroup id { g2 with ready := false }
    | .error (_, .stage2 gpa), _ => s.holdTrap id g gpa ⟨none, cause, fmap, faddr, pc, slot, async⟩
    | .ok _, .error (_, .stage2 gpa) => s.holdTrap id g gpa ⟨none, cause, fmap, faddr, pc, slot, async⟩
    | _, _ => s.doubleTrap id pc 0x3F

/-- A trap that waited for its frame is taken (R366, R392). -/
def State.redeliver (s : State) (id : Nat) : State :=
  match (SMap.find s.groups id).bind (fun g => g.frameWait) with
  | some w => (s.modGroup id (fun g => { g with frameWait := none })).deliver id w.cause w.fmap w.faddr w.pc w.slot w.async
  | none => s

/-- An asynchronous cause is taken at a word boundary (R364, R372): the frame names the lowest place among
the runnable threads, or the lowest of all where every thread waits. -/
def State.deliverAsync (s : State) (id cause faddr : Nat) : State :=
  match SMap.find s.groups id with
  | some g =>
    let l := g.images
    let e := match l.find? (fun e => e.wait == .runnable) with
      | some e => some e
      | none => l.head?
    match e with
    | some e => s.deliver id cause g.live faddr e.pc e.slot true
    | none => s
  | none => s

/-- A cause reaches parked threads at their word: it is taken at the group's next word boundary (R364). -/
def State.trapParked (s : State) (id : Nat) (p : Parked) (cause addr : Nat) (m : Lanes) : State :=
  s.modGroup id (fun g => { g with
    parked := g.parked.map (fun q => if q = p then { q with why := .trap cause m addr } else q) })

/-- The check of R76: every live thread parked in CONVERGE, BAR.G or BAR.T, with no wait that can complete. -/
def State.checkWaits (s : State) (id : Nat) : State :=
  match SMap.find s.groups id with
  | some g =>
    if g.live = 0 || g.life != .resident || !g.parked.isEmpty || !g.allParked || g.waiting .barT == g.live then s
    else
      let cause := if g.waiting .converge = g.live then 0x03 else 0x0C
      match g.bbt.head? with
      | some e => s.deliver id cause g.live 0 e.pc e.slot false
      | none => s
  | none => s

/-- The failed window lines of a team are forgotten: a word that issues again starts their fill afresh (R143, R391). -/
def State.forgetLines (s : State) (team : Nat) : State :=
  match SMap.find s.teams team with
  | some t => if t.lines.any (fun e => e.2.cause != 0) then
      s.setTeam team { t with lines := t.lines.filter (fun e => e.2.cause == 0) }
    else s
  | none => s

/-- A word raises a cause (R22, R364, R377): tasks with replay abort on a page not present, each with its own address;
any other cause, and any other thread, traps. For cause 0x0F the threads stand at the next packet. -/
def State.raiseAt (s : State) (c : Cur) (r : Raise) (own : List (Nat × Nat)) : State :=
  let s := { s with cur := none }
  match SMap.find s.groups c.gid with
  | none => s
  | some g =>
    let gone := if r.cause = 0x05 ∧ g.isTask = true then
        Lanes.of ((g.tasks.filter (fun e => r.fmap.has e.1 && e.2.replay)).map Prod.fst) else 0
    let s := s.forgetLines g.team
    let page := fun t => ((own.find? (fun e => e.1 == t)).map Prod.snd).getD r.faddr
    let s := if gone = 0 then s else (s.abortTasks c.gid gone (some page)).checkWaits c.gid
    let left := r.fmap &&& ~~~gone
    if left = 0 then s
    else
      let s := if r.cause = 0x0F then
          s.modGroup c.gid (fun g => { g with blk := g.blk.map (fun b => { b with pc := c.pc + 12, slot := 0 }) })
        else s
      s.deliver c.gid r.cause left r.faddr c.pc c.slot false

/-! ## Issuing a word -/

/-- The safe-point budget that a group's launch declares (R85). -/
def State.budgetOf (s : State) (g : Group) : Nat :=
  match SMap.find s.grids g.grid with
  | some r => r.lpb.safept
  | none => 0

/-- SAFECNT after one issued word (R266): reloaded at 0 while no request stands. -/
def TrapRegs.count (t : TrapRegs) (budget : Nat) : TrapRegs :=
  { t with safecnt := if 1 < t.safecnt then t.safecnt - 1 else if t.preempt then 0 else budget }

/-- The block after a word, for the threads that go on (R17): the next slot, or the next packet, where the
block ends if another entry names that packet or the group is chosen for pre-emption. -/
def Group.goOn (g : Group) (c : Cur) (go : Lanes) : Group :=
  let go := go &&& g.live
  let ws := match g.blk with
    | some b => b.words
    | none => []
  if go = 0 then { g with blk := none }
  else if c.slot < 2 then { g with blk := some ⟨go, c.pc, c.slot + 1, ws, !c.chain⟩ }
  else if g.trap.preempt || g.bbt.any (fun e => e.pc == c.pc + 12) then ({ g with blk := none }).enter go (c.pc + 12) 0
  else { g with blk := some ⟨go, c.pc + 12, 0, [], true⟩ }

/-- The counters of a core's partition after one word of a group at a packet (R476). -/
def Snap.issued (n : Snap) (core part gcn off : Nat) : Snap :=
  let k := core * 64 + part
  { n with counters := SMap.put (SMap.put (SMap.put n.counters k ((SMap.getD n.counters k 0 + 1) % 2 ^ 32)) (k + 6) gcn) (k + 12) off }

/-- A word has issued (R266), and the threads of `go` pass to the next one. -/
def State.advance (s : State) (c : Cur) (go : Lanes) : State :=
  match SMap.find s.groups c.gid with
  | some g =>
    { (s.setGroup c.gid (({ g with
        trap := g.trap.count (s.budgetOf g)
        ready := false
        blockAsk := none
        firsts := g.issuedFirst c.map c.pc c.slot }).goOn c go)) with
      cur := none
      snap := s.snap.issued g.core g.part g.gcn (c.pc - g.base) }
  | none => { s with cur := none }

/-- The engine whose accesses of a path a group's words make (R388, R393). -/
def Group.engineOf (g : Group) (path : Nat) : Cache :=
  if path = 2 then .ahead g.core else if path = 3 then .sampler g.core else .core g.core

/-- A word that does not take effect: it traps, or its issue set parks at it; a page request is posted for
a stage-2 failure (R392, R393). -/
def State.stopAt (s : State) (c : Cur) : Stop → State
  | .trap r => s.raiseAt c r []
  | .traps r own => s.raiseAt c r own
  | .wait => { (s.modGroup c.gid (fun g => { g with ready := false })) with cur := none }
  | .ask x m => { (s.modGroup c.gid (fun g => { g with ready := false, blockAsk := some (s.clock, x, m) })) with cur := none }
  | .park w =>
    { ((s.startFill w).modGroup c.gid (fun g => ({ g with blk := none, ready := false }).park c.map c.pc c.slot w s.clock)) with
      cur := none }
  | .page path m va gpa wr =>
    match SMap.find s.groups c.gid with
    | some g =>
      let (t, k) := s.postPage (g.engineOf path) g.ctx path true wr gpa
      { (t.modGroup c.gid (fun g => ({ g with blk := none, ready := false }).park c.map c.pc c.slot (.page k m va) s.clock)) with
        cur := none }
    | none => s

/-- The effect of a word on the issuing group: the state and the threads that go on, or how it stops. -/
abbrev Effect := Cur → Group → State → Except Stop (State × Lanes)

/-- A word with a release of scope clu or beyond waits at issue while a remote stash store of the group cannot
be performed (R282, R287). -/
def releasing (scope : Nat) (f : Effect) : Effect := fun c g s =>
  if 2 ≤ scope ∧ s.stashStuck c.gid = true then .error .wait else f c g s

/-- The outcome of a step. -/
abbrev Out := Host.Outcome State Fault Refusal

/-- One word of the current block issues. -/
def issueWord (s : State) (f : Effect) : Out :=
  match s.cur with
  | none => .next s
  | some c =>
    match SMap.find s.groups c.gid with
    | none => .next s
    | some g =>
      match f c g s with
      | .ok (t, go) => .next (t.advance c go)
      | .error r => .next (s.stopAt c r)

/-- The same for a word at which threads park or end: the completion tests and the check of R76 follow. -/
def issuePark (s : State) (f : Effect) : Out :=
  match s.cur with
  | none => .next s
  | some c =>
    match SMap.find s.groups c.gid with
    | none => .next s
    | some g =>
      match f c g s with
      | .ok (t, go) => .next (((t.advance c go).complete g.team).checkWaits c.gid)
      | .error r => .next (s.stopAt c r)

/-- A word that changes only registers of its group, in every thread of the issue set. -/
def issueRegs (s : State) (f : Cur → Group → State → Except Stop Regs) : Out :=
  issueWord s (fun c g s => match f c g s with
    | .ok r => .ok (s.setGroup c.gid { g with regs := r }, c.map)
    | .error r => .error r)

/-- Threads enter the BBT at a place, from a word. -/
def State.enterAt (s : State) (id : Nat) (m : Lanes) (pc : Nat) : State := s.modGroup id (fun g => g.enter m pc 0)

/-- A cause of every thread of the issue set, with no address. -/
def Cur.raise (c : Cur) (cause : Nat) : Stop := .trap ⟨cause, c.map, 0⟩

/-- The lanes of the issue set, ascending. -/
def Cur.lanes (c : Cur) (g : Group) : List Nat := c.map.list g.width

/-- The issue set parks at its word, whose earlier effects stand. -/
def State.parkAt (s : State) (c : Cur) (w : Park) : State × Lanes :=
  (s.modGroup c.gid (fun g => g.park c.map c.pc c.slot w s.clock), 0)

/-- A collective word needs the whole live set in its issue set (R74). -/
def Cur.whole (c : Cur) (g : Group) : Except Stop Unit := if c.map = g.live then .ok () else .error (c.raise 0x03)

/-! ## Return from a trap -/

/-- Entries of a list of images, merged (R237). -/
def mergeEntries (l : List BbtEntry) : List BbtEntry := l.foldl bbtEnter []

/-- The images at the head of a frame's list without the threads that have ended in the handler, those left empty dropped
(R374); none where one breaks R239. -/
def imagesOf (base : Nat) (gone : Lanes) (ws : List Word) : Nat → Option (List BbtEntry)
  | 0 => some []
  | n + 1 =>
    let x := wordsNat (ws.take 4)
    if BitVec.ofNat 64 (x / 2 ^ 64) &&& ~~~gone = 0 then imagesOf base gone (ws.drop 4) n
    else match bbtOf base x with
    | some e => (imagesOf base gone (ws.drop 4) n).map (fun l => { e with map := e.map &&& ~~~gone } :: l)
    | none => none

/-- No two of the images share a thread. -/
def disjoint : List BbtEntry → Bool
  | [] => true
  | e :: r => r.all (fun f => f.map &&& e.map == 0) && disjoint r

/-- Step records of a frame; none where one breaks R373. -/
def stepsOf (live : Lanes) (born : Nat) (ws : List Word) : Nat → Option (List QStep)
  | 0 => some []
  | n + 1 => match stepOf live born (ws.take 576) with
    | some q => (stepsOf live born (ws.drop 576) n).map (fun l => q :: l)
    | none => none

/-- The registers that a frame restores (R374): s0 to s7, p1 to p7, v0, v1 and the constant window. -/
def Regs.restore (r : Regs) (width win : Nat) (ws : List Word) : Regs :=
  let r := (List.range 8).foldl (fun r i => r.setS i (ws.getD (32 + i) 0)) r
  let r := (List.range 7).foldl (fun r i => r.setP (i + 1) (BitVec.allOnes 64)
    (joinPair (ws.getD (40 + 2 * i) 0) (ws.getD (41 + 2 * i) 0))) r
  let r := (List.range width).foldl (fun r i => (r.setV i 0 (ws.getD (64 + i) 0)).setV i 1 (ws.getD (128 + i) 0)) r
  { r with cwBank := win / 256, cwIdx := win % 256 }

/-- The zero fields of a frame's header, and of its other words (R7, R371, R372). -/
def frameZeros (ws : List Word) : Bool :=
  let h := wordsNat (ws.take 16)
  bits h 383 368 == 0 && bits h 303 282 == 0 && bits h 268 262 == 0 && bits h 255 0 == 0
    && ((ws.drop 16).take 16).all (fun w => w == 0) && ((ws.drop 54).take 10).all (fun w => w == 0)
    && ((ws.drop 1600).take 448).all (fun w => w == 0)

/-- The group that a frame's words return to (R374), or the cause that refuses it. Threads that ended in the handler leave
the images; the others hold every live thread that is not parked in another wait of the handler, which it stays in (R239;
log 151). Ages of requests withdrawn at the trap are kept for the threads that stand at their words (R365). -/
def Group.returned (g : Group) (now : Nat) (ws : List Word) : Except Nat Group :=
  let h := headerOf (wordsNat (ws.take 16))
  let t := g.trap
  let super := t.level == .super
  let was := if super then t.liveS else t.liveU
  if h.nent = 0 || 64 < h.nent || h.nstep = 3 || !frameZeros ws then .error 0x01
  else match imagesOf g.code (was &&& ~~~g.live) (ws.drop 192) h.nent, stepsOf g.live now (ws.drop 448) h.nstep with
  | some l, some steps =>
    let all := l.foldl (fun m e => m ||| e.map) 0
    if !disjoint l || all != g.live &&& ~~~g.parkedMap then .error 0x01
    else if h.nstep ≠ 0 ∧ g.tile.isNone then .error 0x0D
    else
      let bbt := mergeEntries l
      let below := super && t.inU
      .ok { g with
        base := g.code
        bbt := bbt
        blk := none
        firsts := g.returnedFirsts t.level bbt
        regs := g.regs.restore g.width (if super then t.winS else t.winU) ws
        tile := g.tile.map (fun u => { u with queue := steps ++ u.queue })
        trap := { t with
          mode := if super then h.pmode else false
          level := if below then .user else .none
          causeU := if below then t.causeU else 0
          causeS := 0
          inU := below } }
  | _, _ => .error 0x01

/-- How an ERET that returns recorded steps waits for the handler's own: they commit before the recorded ones (R376;
log 103). -/
def Group.stepsWait (g : Group) (ws : List Word) : Bool :=
  (headerOf (wordsNat (ws.take 16))).nstep != 0 && ((g.tile.map (fun t => !t.queue.isEmpty)).getD false)

end Sys2Proof.Machine
end

