-- ==== Sys2Proof/Machine/Operands.lean ====
section
/-! DEFINITION. The operand forms of format A, AC, AP and F words (R24 to R28): registers, constants, inline
literals and literal words, as 32-bit, packed 16-bit and 64-bit values per lane. -/

namespace Sys2Proof.Machine

/-- How an entry reads a literal: as an integer, as FP32, or as packed FP16 or BF16 (R25 to R27). -/
inductive LitKind where
  | int
  | flt
  | half (bf : Bool)
  deriving DecidableEq, Repr

/-- An inline integer literal (R25). -/
def inlineInt (n : Nat) : Int := if n < 48 then n else (n : Int) - 63

/-- The FP32 bits of the odd-numbered inline float literals (R26), by half the number above. -/
def inlineTable : List Nat :=
  [0, 0x3F000000, 0x3F800000, 0x40000000, 0x40800000, 0x41000000, 0x41800000, 0x42000000, 0x42800000,
   0x43000000, 0x43800000, 0x3E800000, 0x3E000000, 0x3D800000, 0x3B800000, 0x40400000, 0x3FC00000,
   0x3F400000, 0x41200000, 0x437F0000, 0x3B808081, 0x40490FDB, 0x3FC90FDB, 0x40C90FDB, 0x3EA2F983,
   0x3E22F983, 0x3F317218, 0x3FB8AA3B, 0x40549A78, 0x3E9A209B, 0x3FB504F3, 0x3F3504F3]

/-- An inline float literal as FP32 bits: an even number negates its odd neighbour (R26). -/
def inlineFloat (n : Nat) : Nat :=
  inlineTable.getD ((n + 1) / 2) 0 + (if n ≠ 0 ∧ n % 2 = 0 then 0x80000000 else 0)

/-- A 16-bit value in both halves of a word. -/
def both (n : Nat) : Word := BitVec.ofNat 32 (n % 2 ^ 16 * 65537)

/-- The format of a packed half. -/
def halfFmt (bf : Bool) : Fmt := if bf then .bf16 else .fp16

/-- The value of a source of kind 11, with the payload of the literal word before it (R25 to R27). -/
def litValue (k : LitKind) (payload n : Nat) : Word :=
  if n = 63 then
    match k with
    | .int => BitVec.ofNat 32 payload
    | .flt => BitVec.ofNat 32 (payload * 256)
    | .half _ => both payload
  else
    match k with
    | .int => BitVec.ofInt 32 (inlineInt n)
    | .flt => BitVec.ofNat 32 (inlineFloat n)
    | .half bf => both ((halfFmt bf).roundNE (Fmt.fp32.decode (inlineFloat n)))

/-- A 32-bit source operand, per lane (R24, R28). -/
def State.src (s : State) (c : Cur) (g : Group) (k : LitKind) : Src → Except Stop (Nat → Word)
  | .v n => .ok (fun t => g.regs.getV t n)
  | .s n => .ok (fun _ => g.regs.getS n)
  | .c n => match s.constWord g c.map n with
    | .ok w => .ok (fun _ => w)
    | .error e => .error e
  | .lit n => .ok (fun _ => litValue k c.lit n)

/-- A 64-bit source operand, per lane (R28): inline literals are sign-extended, a literal word zero-extended. -/
def State.src64 (s : State) (c : Cur) (g : Group) : Src → Except Stop (Nat → DWord)
  | .v n => .ok (fun t => g.regs.pairV t n)
  | .s n => .ok (fun _ => g.regs.pairS n)
  | .c n => match s.constWord g c.map n, s.constWord g c.map (n + 1) with
    | .ok lo, .ok hi => .ok (fun _ => joinPair lo hi)
    | .error e, _ => .error e
    | _, .error e => .error e
  | .lit n => .ok (fun _ => if n = 63 then BitVec.ofNat 64 c.lit else BitVec.ofInt 64 (inlineInt n))

/-- The 32-bit source operands of an instruction, and its 64-bit ones (R24, R28). -/
def srcsOf : Instr → List Src
  | .ret a | .iabs _ a | .inot _ a | .popc _ a | .clz _ a | .brev _ a | .isel _ _ a _ _ | .fsel _ _ a _ _ |
    .frcp _ a | .frsq _ a | .fsqrt _ a | .fexp2 _ a | .flog2 _ a | .fsin _ a | .fcos _ a | .ffrc _ a | .frnd _ a _ |
    .smov _ a | .mov _ a => [a]
  | .jmpx a b | .iadd _ a b _ | .isub _ a b _ | .imul _ a b | .imulh _ a b _ | .imad _ a b | .imin _ a b _ |
    .imax _ a b _ | .shl _ a b | .shr _ a b | .sar _ a b | .rot _ a b _ | .iand _ a b | .ior _ a b | .ixor _ a b |
    .bfe _ a b _ | .bfi _ a b | .icmp _ _ a b _ | .idot4 _ a b _ | .fadd _ a b _ | .fsub _ a b _ | .fmul _ a b _ |
    .fma _ a b _ | .fmin _ a b | .fmax _ a b | .fcmp _ _ a b | .hadd2 _ a b _ | .hmul2 _ a b _ | .hfma2 _ a b _ |
    .hmin2 _ a b _ | .hmax2 _ a b _ | .sadd _ a b | .ssub _ a b | .smul _ a b | .sand _ a b | .sor _ a b |
    .sxor _ a b | .sshl _ a b | .sshr _ a b _ | .scmp _ _ a b _ => [a, b]
  | .lea _ _ b => [b]
  | _ => []
def wideSrcsOf : Instr → List Src
  | .iadd64 _ a b => [a, b]
  | .lea _ a _ => [a]
  | _ => []

/-- The dword of the constant window that a source names (R24). -/
def srcConst : Src → Option Nat
  | .c n => some n
  | _ => none

/-- The dwords of the constant window that an instruction's operands of kind 10 read (R15, R28). -/
def constsOf (i : Instr) : List Nat :=
  (srcsOf i).filterMap srcConst ++ ((wideSrcsOf i).filterMap srcConst).flatMap (fun n => [n, n + 1])

/-- What the reads of an instruction's operands in the constant window leave (R15). -/
def State.readConsts (s : State) (id : Nat) (i : Instr) : State :=
  match SMap.find s.groups id with
  | some g => (constsOf i).foldl (fun (s : State) n => (s.ownTargets id 4 (s.constSpot g n)).readConst g n) s
  | none => s

/-- A word over one 32-bit source. -/
def State.src1 (s : State) (c : Cur) (g : Group) (k : LitKind) (a : Src) (f : (Nat → Word) → Regs) : Except Stop Regs :=
  match s.src c g k a with
  | .ok x => .ok (f x)
  | .error e => .error e

/-- A word over two 32-bit sources. -/
def State.src2 (s : State) (c : Cur) (g : Group) (k : LitKind) (a b : Src) (f : (Nat → Word) → (Nat → Word) → Regs) :
    Except Stop Regs :=
  match s.src c g k a, s.src c g k b with
  | .ok x, .ok y => .ok (f x y)
  | .error e, _ => .error e
  | _, .error e => .error e

end Sys2Proof.Machine
end

