-- ==== Sys2Proof/Machine/Flags.lean ====
section
/-! DEFINITION. Conditions and status: the compares of R30 and R112, the words that set %fstat (R67, R68), and
the arithmetic of each lane as a value with its status bits. -/

namespace Sys2Proof.Machine

/-- An integer compare by its code (R30, R112). -/
def intCond (cc : Nat) (unsigned : Bool) (a b : Word) : Bool :=
  let lt := fun (x y : Word) => if unsigned then decide (x.toNat < y.toNat) else decide (x.toInt < y.toInt)
  match cc with
  | 0 => a == b
  | 1 => a != b
  | 2 => lt a b
  | 3 => !lt b a
  | 4 => lt b a
  | _ => !lt a b

/-- The FP32 value of a word, and a word from a code. -/
def f32 (w : Word) : Num := Fmt.fp32.decode w.toNat
def ofCode (p : Nat × Stat) : Word × Stat := (BitVec.ofNat 32 p.1, p.2)

/-- An FP32 compare by its code (R30, R112); it sets no status. -/
def fltCond (cc : Nat) (a b : Word) : Bool :=
  let x := f32 a
  let y := f32 b
  let uo := x == .nan || y == .nan
  match cc with
  | 0 => x.eq y
  | 1 => !x.eq y
  | 2 => x.lt y
  | 3 => x.lt y || x.eq y
  | 4 => y.lt x
  | 5 => y.lt x || x.eq y
  | 6 => uo
  | _ => !uo

/-- A register written in each lane with a value and a status; %fstat gains the union (R68). -/
def Regs.writeStat (r : Regs) (d : Nat) (f : Nat → Word × Stat) (l : List Nat) : Regs :=
  (r.writeLanes d (fun t => (f t).1) l).raiseStat (l.foldl (fun a t => a ||| (f t).2) 0)

/-- Signed saturation of IADD and ISUB, with SF where it clamps (R107). -/
def satWord (x : Int) : Word × Stat :=
  let (v, changed) := clampInt (-2 ^ 31) (2 ^ 31 - 1) x
  (BitVec.ofInt 32 v, Stat.when changed Stat.sf)

/-- FP32 sum, difference, product and fused product-sum of words (R115). -/
def fadd32 (sat : Bool) (a b : Word) : Word × Stat := ofCode (Fmt.fp32.sum sat (f32 a) (f32 b))
def fsub32 (sat : Bool) (a b : Word) : Word × Stat := ofCode (Fmt.fp32.sum sat (f32 a) (f32 b).neg)
def fmul32 (sat : Bool) (a b : Word) : Word × Stat := ofCode (Fmt.fp32.product sat (f32 a) (f32 b))
def fma32 (sat : Bool) (a b d : Word) : Word × Stat := ofCode (Fmt.fp32.fused sat (f32 a) (f32 b) (f32 d))

/-- The lesser or greater FP32 operand (R116). -/
def fpick32 (greater : Bool) (a b : Word) : Word := BitVec.ofNat 32 (Fmt.fp32.pick greater a.toNat b.toNat)

/-- Half i of a word, and a word of two halves with the union of their status (R120). -/
def half (w : Word) (i : Nat) : Nat := w.toNat / 2 ^ (16 * i) % 2 ^ 16
def pairHalves (lo hi : Nat × Stat) : Word × Stat := (BitVec.ofNat 32 (lo.1 + hi.1 * 2 ^ 16), lo.2 ||| hi.2)

/-- A packed word computed half by half. -/
def packed2 (f : Nat → Nat → Nat × Stat) (a b : Word) : Word × Stat :=
  pairHalves (f (half a 0) (half b 0)) (f (half a 1) (half b 1))
def packed3 (f : Nat → Nat → Nat → Nat × Stat) (a b d : Word) : Word × Stat :=
  pairHalves (f (half a 0) (half b 0) (half d 0)) (f (half a 1) (half b 1) (half d 1))

/-- A unary FP32 function of a word (R117 to R119). -/
def unary32 (f : Nat → Nat × Stat) (a : Word) : Word × Stat := ofCode (f a.toNat)

/-! ## Vector words (R101, R102): one value per thread of the issue set, every source read before any write -/

/-- vD(t) := f(a), f(a, b) or f(a, b, d), without status. -/
def vec1 (s : State) (k : LitKind) (d : Nat) (a : Src) (f : Word → Word) : Out :=
  issueRegs s (fun c g s => s.src1 c g k a (fun x => g.regs.writeLanes d (fun t => f (x t)) (c.lanes g)))
def vec2 (s : State) (k : LitKind) (d : Nat) (a b : Src) (f : Word → Word → Word) : Out :=
  issueRegs s (fun c g s => s.src2 c g k a b (fun x y => g.regs.writeLanes d (fun t => f (x t) (y t)) (c.lanes g)))
def vec3 (s : State) (k : LitKind) (d : Nat) (a b : Src) (f : Word → Word → Word → Word) : Out :=
  issueRegs s (fun c g s => s.src2 c g k a b (fun x y =>
    g.regs.writeLanes d (fun t => f (x t) (y t) (g.regs.getV t d)) (c.lanes g)))

/-- The same with status bits. -/
def stat1 (s : State) (k : LitKind) (d : Nat) (a : Src) (f : Word → Word × Stat) : Out :=
  issueRegs s (fun c g s => s.src1 c g k a (fun x => g.regs.writeStat d (fun t => f (x t)) (c.lanes g)))
def stat2 (s : State) (k : LitKind) (d : Nat) (a b : Src) (f : Word → Word → Word × Stat) : Out :=
  issueRegs s (fun c g s => s.src2 c g k a b (fun x y => g.regs.writeStat d (fun t => f (x t) (y t)) (c.lanes g)))
def stat3 (s : State) (k : LitKind) (d : Nat) (a b : Src) (f : Word → Word → Word → Word × Stat) : Out :=
  issueRegs s (fun c g s => s.src2 c g k a b (fun x y =>
    g.regs.writeStat d (fun t => f (x t) (y t) (g.regs.getV t d)) (c.lanes g)))

/-- pPD(t) := a cc b (R112). -/
def cmp2 (s : State) (k : LitKind) (p : Nat) (a b : Src) (f : Word → Word → Bool) : Out :=
  issueRegs s (fun c g s => s.src2 c g k a b (fun x y =>
    g.regs.setP p c.map (Lanes.where (fun t => f (x t) (y t)) (c.lanes g))))

/-- sD := f(a, b), once per issue (R121). -/
def sca2 (s : State) (d : Nat) (a b : Src) (f : Word → Word → Word) : Out :=
  issueRegs s (fun c g s => s.src2 c g .int a b (fun x y => g.regs.setS d (f (x 0) (y 0))))

end Sys2Proof.Machine
end

