-- ==== Sys2Proof/Machine/Check.lean ====
section
/-! DEFINITION. The packet check of R37: encodings, the registers that a word names against the launch's
counts (R12), literal words (R27), chains (R19), block-ending words (R18), and the checks that are made with
them (R94, R127, R164). -/

namespace Sys2Proof.Machine

/-- One past the highest vector or scalar register that a source of k registers names. -/
def srcVHigh (k : Nat) : Src → Nat
  | .v n => n + k
  | _ => 0
def srcSHigh (k : Nat) : Src → Nat
  | .s n => n + k
  | _ => 0

/-- Data registers of a stash access (R141). -/
def stashRegs (s : Nat) : Nat := if s = 3 then 2 else if s = 4 then 4 else 1

/-- One past the highest vector register that a word names, for a group width (R12, R164). -/
def wordVHigh (width : Nat) : Instr → Nat
  | .call .. => 1
  | .ret a => srcVHigh 1 a
  | .jmpx a b => max (srcVHigh 1 a) (srcVHigh 1 b)
  | .shflIdx d s z => max (d + 1) (max (s + 1) (z + 1))
  | .shflUp d s _ => max (d + 1) (s + 1)
  | .shflDown d s _ => max (d + 1) (s + 1)
  | .shflXor d s _ => max (d + 1) (s + 1)
  | .redg d s _ => max (d + 1) (s + 1)
  | .redgScalar _ s _ => s + 1
  | .scangIncl d s _ => max (d + 1) (s + 1)
  | .scangExcl d s _ => max (d + 1) (s + 1)
  | .spawn _ y _ => y + 1
  | .rsv x y _ => max (x + 2) (y + 1)
  | .rcommit x y => max (x + 2) (y + 1)
  | .rget x => x + 2
  | .rgetCount x y => max (x + 2) (y + 1)
  | .iadd d a b _ => max (d + 1) (max (srcVHigh 1 a) (srcVHigh 1 b))
  | .isub d a b _ => max (d + 1) (max (srcVHigh 1 a) (srcVHigh 1 b))
  | .imul d a b => max (d + 1) (max (srcVHigh 1 a) (srcVHigh 1 b))
  | .imulh d a b _ => max (d + 1) (max (srcVHigh 1 a) (srcVHigh 1 b))
  | .imad d a b => max (d + 1) (max (srcVHigh 1 a) (srcVHigh 1 b))
  | .iadd64 d a b => max (d + 2) (max (srcVHigh 2 a) (srcVHigh 2 b))
  | .imin d a b _ => max (d + 1) (max (srcVHigh 1 a) (srcVHigh 1 b))
  | .imax d a b _ => max (d + 1) (max (srcVHigh 1 a) (srcVHigh 1 b))
  | .iabs d a => max (d + 1) (srcVHigh 1 a)
  | .shl d a b => max (d + 1) (max (srcVHigh 1 a) (srcVHigh 1 b))
  | .shr d a b => max (d + 1) (max (srcVHigh 1 a) (srcVHigh 1 b))
  | .sar d a b => max (d + 1) (max (srcVHigh 1 a) (srcVHigh 1 b))
  | .rot d a b _ => max (d + 1) (max (srcVHigh 1 a) (srcVHigh 1 b))
  | .iand d a b => max (d + 1) (max (srcVHigh 1 a) (srcVHigh 1 b))
  | .ior d a b => max (d + 1) (max (srcVHigh 1 a) (srcVHigh 1 b))
  | .ixor d a b => max (d + 1) (max (srcVHigh 1 a) (srcVHigh 1 b))
  | .inot d a => max (d + 1) (srcVHigh 1 a)
  | .bfe d a b _ => max (d + 1) (max (srcVHigh 1 a) (srcVHigh 1 b))
  | .bfi d a b => max (d + 1) (max (srcVHigh 1 a) (srcVHigh 1 b))
  | .popc d a => max (d + 1) (srcVHigh 1 a)
  | .clz d a => max (d + 1) (srcVHigh 1 a)
  | .brev d a => max (d + 1) (srcVHigh 1 a)
  | .lea d a b => max (d + 2) (max (srcVHigh 1 b) (srcVHigh 2 a))
  | .icmp _ _ a b _ => max (srcVHigh 1 a) (srcVHigh 1 b)
  | .isel d _ a b _ => max (d + 1) (max (b + 1) (srcVHigh 1 a))
  | .idot4 d a b _ => max (d + 1) (max (srcVHigh 1 a) (srcVHigh 1 b))
  | .fadd d a b _ => max (d + 1) (max (srcVHigh 1 a) (srcVHigh 1 b))
  | .fsub d a b _ => max (d + 1) (max (srcVHigh 1 a) (srcVHigh 1 b))
  | .fmul d a b _ => max (d + 1) (max (srcVHigh 1 a) (srcVHigh 1 b))
  | .fma d a b _ => max (d + 1) (max (srcVHigh 1 a) (srcVHigh 1 b))
  | .fmin d a b => max (d + 1) (max (srcVHigh 1 a) (srcVHigh 1 b))
  | .fmax d a b => max (d + 1) (max (srcVHigh 1 a) (srcVHigh 1 b))
  | .fcmp _ _ a b => max (srcVHigh 1 a) (srcVHigh 1 b)
  | .fsel d _ a b _ => max (d + 1) (max (b + 1) (srcVHigh 1 a))
  | .frcp d a => max (d + 1) (srcVHigh 1 a)
  | .frsq d a => max (d + 1) (srcVHigh 1 a)
  | .fsqrt d a => max (d + 1) (srcVHigh 1 a)
  | .fexp2 d a => max (d + 1) (srcVHigh 1 a)
  | .flog2 d a => max (d + 1) (srcVHigh 1 a)
  | .fsin d a => max (d + 1) (srcVHigh 1 a)
  | .fcos d a => max (d + 1) (srcVHigh 1 a)
  | .ffrc d a => max (d + 1) (srcVHigh 1 a)
  | .frnd d a _ => max (d + 1) (srcVHigh 1 a)
  | .hadd2 d a b _ => max (d + 1) (max (srcVHigh 1 a) (srcVHigh 1 b))
  | .hmul2 d a b _ => max (d + 1) (max (srcVHigh 1 a) (srcVHigh 1 b))
  | .hfma2 d a b _ => max (d + 1) (max (srcVHigh 1 a) (srcVHigh 1 b))
  | .hmin2 d a b _ => max (d + 1) (max (srcVHigh 1 a) (srcVHigh 1 b))
  | .hmax2 d a b _ => max (d + 1) (max (srcVHigh 1 a) (srcVHigh 1 b))
  | .sadd _ a b => max (srcVHigh 1 a) (srcVHigh 1 b)
  | .ssub _ a b => max (srcVHigh 1 a) (srcVHigh 1 b)
  | .smul _ a b => max (srcVHigh 1 a) (srcVHigh 1 b)
  | .sand _ a b => max (srcVHigh 1 a) (srcVHigh 1 b)
  | .sor _ a b => max (srcVHigh 1 a) (srcVHigh 1 b)
  | .sxor _ a b => max (srcVHigh 1 a) (srcVHigh 1 b)
  | .sshl _ a b => max (srcVHigh 1 a) (srcVHigh 1 b)
  | .sshr _ a b _ => max (srcVHigh 1 a) (srcVHigh 1 b)
  | .scmp _ _ a b _ => max (srcVHigh 1 a) (srcVHigh 1 b)
  | .smov _ a => srcVHigh 1 a
  | .cvt d s _ _ _ _ => max (d + 1) (s + 1)
  | .mov d a => max (d + 1) (srcVHigh 1 a)
  | .v2s _ s _ => s + 1
  | .s2v d _ => d + 1
  | .movs d _ => d + 1
  | .qpack d s _ _ y => max (d + 1) (s + packCount y)
  | .qunpk d s y => max (d + packCount y) (s + 1)
  | .ld t a s _ _ => max (t + 1) (if s then a + 1 else a + 2)
  | .ldB64 t a s _ _ => max (t + 2) (if s then a + 1 else a + 2)
  | .ldB128 t a s _ _ => max (t + 4) (if s then a + 1 else a + 2)
  | .st t a s _ _ => max (t + 1) (if s then a + 1 else a + 2)
  | .stB64 t a s _ _ => max (t + 2) (if s then a + 1 else a + 2)
  | .stB128 t a s _ _ => max (t + 4) (if s then a + 1 else a + 2)
  | .ldOrdered t a s _ _ _ => max (t + 1) (if s then a + 1 else a + 2)
  | .stOrdered t a s _ _ _ => max (t + 1) (if s then a + 1 else a + 2)
  | .atom t a s _ _ _ o => max (if o = 7 then t + 2 else t + 1) (if s then a + 1 else a + 2)
  | .atomFadd t a s _ _ _ => max (t + 1) (if s then a + 1 else a + 2)
  | .red t a s _ _ _ _ => max (t + 1) (if s then a + 1 else a + 2)
  | .lds x y _ s => max (x + stashRegs s) (y + 1)
  | .sts x y _ s => max (x + stashRegs s) (y + 1)
  | .ldx x y _ s => max (x + stashRegs s) (y + 1)
  | .stx x y _ s => max (x + stashRegs s) (y + 1)
  | .pref x _ => x + 2
  | .lcopy x y _ _ _ => max (x + 2) (y + 1)
  | .tread x f _ z => max (x + 2 ^ f) (z + 1)
  | .tpeek x f _ z => max (x + 2 ^ f) (z + 1)
  | .accLd _ y w => y + (if w then 1024 else 512) / width
  | .accMov _ y _ => y + 1
  | .accMovRaw _ y _ => y + 1024 / width
  | .rbox x y z => max (x + 8) (max (y + 6) (z + 256 / width))
  | .cover x y _ => max (x + 2) (y + 6)
  | .rtst x y _ => max (x + 1) (y + 1)
  | _ => 0

/-- One past the highest scalar register that a word names (R12). -/
def wordSHigh  : Instr → Nat
  | .ret a => srcSHigh 1 a
  | .jmpx a b => max (srcSHigh 1 a) (srcSHigh 1 b)
  | .voteBallot d _ => d + 2
  | .redgScalar d _ _ => d + 1
  | .cwinReg _ s => s + 1
  | .iadd _ a b _ => max (srcSHigh 1 a) (srcSHigh 1 b)
  | .isub _ a b _ => max (srcSHigh 1 a) (srcSHigh 1 b)
  | .imul _ a b => max (srcSHigh 1 a) (srcSHigh 1 b)
  | .imulh _ a b _ => max (srcSHigh 1 a) (srcSHigh 1 b)
  | .imad _ a b => max (srcSHigh 1 a) (srcSHigh 1 b)
  | .iadd64 _ a b => max (srcSHigh 2 a) (srcSHigh 2 b)
  | .imin _ a b _ => max (srcSHigh 1 a) (srcSHigh 1 b)
  | .imax _ a b _ => max (srcSHigh 1 a) (srcSHigh 1 b)
  | .iabs _ a => srcSHigh 1 a
  | .shl _ a b => max (srcSHigh 1 a) (srcSHigh 1 b)
  | .shr _ a b => max (srcSHigh 1 a) (srcSHigh 1 b)
  | .sar _ a b => max (srcSHigh 1 a) (srcSHigh 1 b)
  | .rot _ a b _ => max (srcSHigh 1 a) (srcSHigh 1 b)
  | .iand _ a b => max (srcSHigh 1 a) (srcSHigh 1 b)
  | .ior _ a b => max (srcSHigh 1 a) (srcSHigh 1 b)
  | .ixor _ a b => max (srcSHigh 1 a) (srcSHigh 1 b)
  | .inot _ a => srcSHigh 1 a
  | .bfe _ a b _ => max (srcSHigh 1 a) (srcSHigh 1 b)
  | .bfi _ a b => max (srcSHigh 1 a) (srcSHigh 1 b)
  | .popc _ a => srcSHigh 1 a
  | .clz _ a => srcSHigh 1 a
  | .brev _ a => srcSHigh 1 a
  | .lea _ a b => max (srcSHigh 1 b) (srcSHigh 2 a)
  | .icmp _ _ a b _ => max (srcSHigh 1 a) (srcSHigh 1 b)
  | .isel _ _ a _ _ => srcSHigh 1 a
  | .idot4 _ a b _ => max (srcSHigh 1 a) (srcSHigh 1 b)
  | .fadd _ a b _ => max (srcSHigh 1 a) (srcSHigh 1 b)
  | .fsub _ a b _ => max (srcSHigh 1 a) (srcSHigh 1 b)
  | .fmul _ a b _ => max (srcSHigh 1 a) (srcSHigh 1 b)
  | .fma _ a b _ => max (srcSHigh 1 a) (srcSHigh 1 b)
  | .fmin _ a b => max (srcSHigh 1 a) (srcSHigh 1 b)
  | .fmax _ a b => max (srcSHigh 1 a) (srcSHigh 1 b)
  | .fcmp _ _ a b => max (srcSHigh 1 a) (srcSHigh 1 b)
  | .fsel _ _ a _ _ => srcSHigh 1 a
  | .frcp _ a => srcSHigh 1 a
  | .frsq _ a => srcSHigh 1 a
  | .fsqrt _ a => srcSHigh 1 a
  | .fexp2 _ a => srcSHigh 1 a
  | .flog2 _ a => srcSHigh 1 a
  | .fsin _ a => srcSHigh 1 a
  | .fcos _ a => srcSHigh 1 a
  | .ffrc _ a => srcSHigh 1 a
  | .frnd _ a _ => srcSHigh 1 a
  | .hadd2 _ a b _ => max (srcSHigh 1 a) (srcSHigh 1 b)
  | .hmul2 _ a b _ => max (srcSHigh 1 a) (srcSHigh 1 b)
  | .hfma2 _ a b _ => max (srcSHigh 1 a) (srcSHigh 1 b)
  | .hmin2 _ a b _ => max (srcSHigh 1 a) (srcSHigh 1 b)
  | .hmax2 _ a b _ => max (srcSHigh 1 a) (srcSHigh 1 b)
  | .sadd d a b => max (d + 1) (max (srcSHigh 1 a) (srcSHigh 1 b))
  | .ssub d a b => max (d + 1) (max (srcSHigh 1 a) (srcSHigh 1 b))
  | .smul d a b => max (d + 1) (max (srcSHigh 1 a) (srcSHigh 1 b))
  | .sand d a b => max (d + 1) (max (srcSHigh 1 a) (srcSHigh 1 b))
  | .sor d a b => max (d + 1) (max (srcSHigh 1 a) (srcSHigh 1 b))
  | .sxor d a b => max (d + 1) (max (srcSHigh 1 a) (srcSHigh 1 b))
  | .sshl d a b => max (d + 1) (max (srcSHigh 1 a) (srcSHigh 1 b))
  | .sshr d a b _ => max (d + 1) (max (srcSHigh 1 a) (srcSHigh 1 b))
  | .scmp _ _ a b _ => max (srcSHigh 1 a) (srcSHigh 1 b)
  | .smov d a => max (d + 1) (srcSHigh 1 a)
  | .sli s _ => s + 1
  | .sbra s _ => s + 1
  | .mov _ a => srcSHigh 1 a
  | .v2s d _ _ => d + 1
  | .s2v _ s => s + 1
  | .ld _ a s _ _ => if s then a + 2 else 0
  | .ldB64 _ a s _ _ => if s then a + 2 else 0
  | .ldB128 _ a s _ _ => if s then a + 2 else 0
  | .st _ a s _ _ => if s then a + 2 else 0
  | .stB64 _ a s _ _ => if s then a + 2 else 0
  | .stB128 _ a s _ _ => if s then a + 2 else 0
  | .ldOrdered _ a s _ _ _ => if s then a + 2 else 0
  | .stOrdered _ a s _ _ _ => if s then a + 2 else 0
  | .atom _ a s _ _ _ _ => if s then a + 2 else 0
  | .atomFadd _ a s _ _ _ => if s then a + 2 else 0
  | .red _ a s _ _ _ _ => if s then a + 2 else 0
  | .stashMap x _ _ => x + 8
  | .lcopy _ _ z _ _ => 2 * z + 2
  | .tcopy x y _ _ _ _ => max (x + 8) (y + 2)
  | .ctrAdd x y _ => max (x + 2) (y + 1)
  | .ctrWait x y _ => max (x + 2) (y + 2)
  | .pbInit x y => max (x + 1) (y + 1)
  | .pbArrive x y => max (x + 1) (y + 1)
  | .pbArriveN x y _ => max (x + 1) (y + 1)
  | .pbExpect x y => max (x + 1) (y + 1)
  | .pbWait x y _ => max (x + 1) (y + 1)
  | .pbInval y => y + 1
  | .waitcmp x y _ _ => max (x + 2) (y + 1)
  | .wake x _ => x + 2
  | .talloc _ y z => max (y + 1) (z + 1)
  | .treadStash x _ _ => x + 8
  | .tpeekStash x _ _ => x + 8
  | .tstatInfo x _ => x + 2
  | .tstatAddr x _ => x + 2
  | .tstatGet x _ => x + 2
  | .tstatPut _ y => y + 2
  | .tstatPart x _ => x + 2
  | .tmma _ y _ _ _ => y + 8
  | .tmmaQ _ y _ _ _ => y + 8
  | .accMovTile _ y _ => y + 1
  | .fmtset x y _ => if y = 12 ∨ y = 13 then x + 2 else x + 1
  | .fmtsetGet x y _ => if y = 12 ∨ y = 13 then x + 2 else x + 1
  | .fmtsetLd x _ => x + 2
  | .fmtsetSt x _ => x + 2
  | .texSmp _ _ z => z + 4
  | .texLoad _ _ z => z + 4
  | .texGather _ _ z => z + 4
  | .rtst _ _ z => z + 4
  | .rtclr z => z + 4
  | .rtdc z => z + 4
  | .csrr _ s => s + 1
  | .csrw _ s => s + 1
  | .tlbi x t => if t = 0 then 0 else x + 3
  | .sleep s => s + 1
  | _ => 0

/-- One past the highest accumulator block that a word names (R164). -/
def wordAccHigh  : Instr → Nat
  | .tmma x _ _ _ _ => x + 1
  | .tmmaQ x _ _ _ _ => x + 1
  | .accLd x _ _ => x + 1
  | .accMov x _ _ => x + 1
  | .accMovRaw x _ _ => x + 1
  | .accMovTile x _ _ => x + 1
  | .accZero x y => x + y + 1
  | .scaleObs x y _ => x + y + 1
  | _ => 0

/-- The source operands of a word that may be literals. -/
def wordSrcs  : Instr → List Src
  | .ret a => [a]
  | .jmpx a b => [a, b]
  | .iadd _ a b _ => [a, b]
  | .isub _ a b _ => [a, b]
  | .imul _ a b => [a, b]
  | .imulh _ a b _ => [a, b]
  | .imad _ a b => [a, b]
  | .iadd64 _ a b => [a, b]
  | .imin _ a b _ => [a, b]
  | .imax _ a b _ => [a, b]
  | .iabs _ a => [a]
  | .shl _ a b => [a, b]
  | .shr _ a b => [a, b]
  | .sar _ a b => [a, b]
  | .rot _ a b _ => [a, b]
  | .iand _ a b => [a, b]
  | .ior _ a b => [a, b]
  | .ixor _ a b => [a, b]
  | .inot _ a => [a]
  | .bfe _ a b _ => [a, b]
  | .bfi _ a b => [a, b]
  | .popc _ a => [a]
  | .clz _ a => [a]
  | .brev _ a => [a]
  | .lea _ a b => [a, b]
  | .icmp _ _ a b _ => [a, b]
  | .isel _ _ a _ _ => [a]
  | .idot4 _ a b _ => [a, b]
  | .fadd _ a b _ => [a, b]
  | .fsub _ a b _ => [a, b]
  | .fmul _ a b _ => [a, b]
  | .fma _ a b _ => [a, b]
  | .fmin _ a b => [a, b]
  | .fmax _ a b => [a, b]
  | .fcmp _ _ a b => [a, b]
  | .fsel _ _ a _ _ => [a]
  | .frcp _ a => [a]
  | .frsq _ a => [a]
  | .fsqrt _ a => [a]
  | .fexp2 _ a => [a]
  | .flog2 _ a => [a]
  | .fsin _ a => [a]
  | .fcos _ a => [a]
  | .ffrc _ a => [a]
  | .frnd _ a _ => [a]
  | .hadd2 _ a b _ => [a, b]
  | .hmul2 _ a b _ => [a, b]
  | .hfma2 _ a b _ => [a, b]
  | .hmin2 _ a b _ => [a, b]
  | .hmax2 _ a b _ => [a, b]
  | .sadd _ a b => [a, b]
  | .ssub _ a b => [a, b]
  | .smul _ a b => [a, b]
  | .sand _ a b => [a, b]
  | .sor _ a b => [a, b]
  | .sxor _ a b => [a, b]
  | .sshl _ a b => [a, b]
  | .sshr _ a b _ => [a, b]
  | .scmp _ _ a b _ => [a, b]
  | .smov _ a => [a]
  | .mov _ a => [a]
  | _ => []

/-- The block-ending words (R18). -/
def wordEnds : Instr → Bool
  | .bra .. => true
  | .brc .. => true
  | .call .. => true
  | .ret .. => true
  | .jmpx .. => true
  | .sbra .. => true
  | .exit => true
  | .converge => true
  | .yield => true
  | .safept => true
  | .trap .. => true
  | .eret => true
  | .sleep .. => true
  | .barG => true
  | .barT => true
  | .taskend => true
  | .rsv .. => true
  | .pbWait .. => true
  | .waitcmp .. => true
  | .ctrWait .. => true
  | .talloc .. => true
  | .link .. => true
  | .pair .. => true
  | .leashTake => true
  | _ => false

/-- A word names kind 11 with N = 63 (R27). -/
def wordNeedsLit (i : Instr) : Bool := (wordSrcs i).any (fun x => x == .lit 63)

/-- The same of a raw word, decoded or not: by the source fields of its OP's format (R29, R35). An illegal word that names
kind 11 with N = 63 fails at its own slot, not at that of the literal before it (R27, R37). -/
def rawNeedsLit (w : Nat) : Bool :=
  let op := bits w 30 24
  let a := bits w 16 9 == 0xFF
  let b := bits w 8 1 == 0xFF
  if op == 0x28 || op == 0x37 then bits w 14 7 == 0xFF
  else if op == 0x04 || op == 0x18 || op == 0x20 || (0x23 ≤ op && op ≤ 0x25) || (0x38 ≤ op && op ≤ 0x40) || op == 0x59 || op == 0x5D then a
  else if op == 0x05 || (0x10 ≤ op && op ≤ 0x29) || (0x30 ≤ op && op ≤ 0x36) || (0x48 ≤ op && op ≤ 0x4C)
      || (0x50 ≤ op && op ≤ 0x58) then a || b
  else false
def needsLit (w : Nat) : Bool :=
  match decode w with
  | some i => wordNeedsLit i
  | none => rawNeedsLit w

/-- A word of packed 16-bit operands, decoded or not (R35, R120). -/
def rawPacked (w : Nat) : Bool := decide (0x48 ≤ bits w 30 24 ∧ bits w 30 24 ≤ 0x4C)

def isLit : Instr → Bool
  | .lit _ => true
  | _ => false

/-- What the check tests of one word against the group (R12, R94, R127, R164). -/
def wordFits (g : Group) (ntask : Nat) (i : Instr) : Bool :=
  i.legal && wordVHigh g.width i ≤ g.vcount && wordSHigh i ≤ g.scount
  && (match g.tile with
    | some t => wordAccHigh i ≤ t.n
    | none => true)
  && (match i with
    | .spawn t _ _ => t < ntask
    | .v2s _ _ n => n < g.width
    | .rbox .. => 16 ≤ g.width
    | _ => true)

/-- The tests of R18, R19 and R27 on slot i of decoded words; `first` is where the check begins. -/
def placed (ws : List Nat) (is : List Instr) (first i : Nat) : Bool :=
  let w := ws.getD i 0
  let x := is.getD i .nop
  let next := is.getD (i + 1) .nop
  let c := chainBit w && x != .nop
  let before := decide (first < i) && chainBit (ws.getD (i - 1) 0) && is.getD (i - 1) .nop != .nop
  let ended := (List.range i).any (fun j => first ≤ j && wordEnds (is.getD j .nop))
  !(ended && x != .nop)
  && !(c && (i == 2 || before || wordEnds x || isLit x || isLit next))
  && !(isLit x && (i == 2 || !needsLit (ws.getD (i + 1) 0)))
  && !(wordNeedsLit x && (i == 0 || !isLit (is.getD (i - 1) .nop)))
  && (match x with
    | .lit p => !(rawPacked (ws.getD (i + 1) 0) && needsLit (ws.getD (i + 1) 0) && p / 65536 != 0)
    | _ => true)

/-- The packet check from a slot on (R37): the slot of the first offending word. -/
def checkFrom (g : Group) (ntask : Nat) (ws : List Nat) (first : Nat) : Nat → Option Nat
  | 0 => none
  | n + 1 =>
    let i := 2 - n
    if i < first then checkFrom g ntask ws first n
    else
      match decode (ws.getD i 0) with
      | some x =>
        let is := ws.map (fun w => (decode w).getD .nop)
        if wordFits g ntask x && placed ws is first i then checkFrom g ntask ws first n else some i
      | none => some i

/-- The packet check of three words from a slot. -/
def checkPacket (g : Group) (ntask : Nat) (ws : List Nat) (first : Nat) : Option Nat := checkFrom g ntask ws first 3

end Sys2Proof.Machine
end

