-- ==== Sys2Proof/Machine/Fetch.lean ====
section
/-! DEFINITION. What a step runs: the pipes of the words (R20), the choice of a group in its partition (R262), the
selection of a BBT entry (R238), the fetch of its packet (R23) and its check (R37), causes at word boundaries (R375), and
a state in which a given word is the next to issue (`place`). -/

namespace Sys2Proof.Machine

/-- What the fetch of a word of code reads: the core's own copy, or the slice's answer, to which a line in a window sends
it too (R274, R277; log 168). -/
def State.codeWord (s : State) (core w : Nat) : Word :=
  if s.lineHere core (w / 64) then s.mem.readWord w else s.mem.coreWord core w

/-- A packet's three words through translation (R23): the words, or how the fetch fails. -/
def State.fetchWord1 (s : State) (g : Group) (pc : Nat) : Except Spot Nat :=
  match s.translate ⟨.core g.core, g.ctx, g.trap.mode, .fetch⟩ pc with
  | .ok pa _ => if poisoned s.mem.poison pa 4 then .error (.fail 0x15) else .ok (s.codeWord g.core (pa / 4)).toNat
  | .absent => .error (.fail 0x05)
  | .denied => .error (.fail 0x06)
  | .soft => .error (.fail 0x15)
  | .stage2 gpa => .error (.page gpa)
def State.fetchPacket (s : State) (g : Group) (pc : Nat) : Except Spot (List Nat) :=
  match s.fetchWord1 g pc, s.fetchWord1 g (pc + 4), s.fetchWord1 g (pc + 8) with
  | .ok a, .ok b, .ok c => .ok [a, b, c]
  | .error x, _, _ => .error x
  | _, .error x, _ => .error x
  | _, _, .error x => .error x

/-- What the fetch of a packet leaves: its translation cached, and the owners' registrations that its words waited for
acknowledged (R281, R388). -/
def State.fetched (s : State) (g : Group) (pc : Nat) : State :=
  let q : TransReq := ⟨.core g.core, g.ctx, g.trap.mode, .fetch⟩
  [pc, pc + 4, pc + 8].foldl (fun (s : State) a => match s.translate q a with
    | .ok pa _ =>
      let s := s.cacheXlat q a
      if s.lineHere g.core (pa / 256) || (SMap.find s.mem.l1 (l1Key g.core (pa / 4))).isNone then
        { s with mem := (s.mem.l2Fill (pa / 128)).settle (pa / 4) } else s
    | _ => s) s

/-! ## Pipes -/

/-- The pipe of a word (R20): 0 V, 1 X, 2 S, 3 M, 4 B, and 5 for a NOP or literal word, which uses none. -/
def wordPipe (w : Nat) : Nat :=
  let op := bits w 30 24
  let sub := bits w 5 0
  if op = 0x00 ∨ op = 0x7F then 5
  else if op ≤ 0x0B ∨ op = 0x5B ∨ op = 0x75 then 4
  else if op = 0x0E then (if sub = 2 then 2 else if sub = 3 then 3 else 4)
  else if op = 0x0F then 3
  else if 0x38 ≤ op ∧ op ≤ 0x3E then 1
  else if 0x50 ≤ op ∧ op ≤ 0x5A then 2
  else if op = 0x5E then (if sub = 2 then 0 else 2)
  else if 0x60 ≤ op ∧ op ≤ 0x74 ∨ op = 0x7A ∨ op = 0x7C then 3
  else if op = 0x78 ∨ op = 0x7D then 2
  else if op = 0x79 then (if sub = 3 then 0 else 4)
  else if op = 0x7E then (match decode w with
    | some (.tlbi _ _) => 3
    | some (.snap _) => 2
    | _ => 4)
  else 0

/-- The instructions of the linked grid on the V pipe (R189, R205). -/
def gridPipe (w : Nat) : Bool := let op := bits w 30 24; op == 0x76 || op == 0x77 || (op == 0x79 && bits w 5 0 == 3)

/-- The clocks for which a word of a group keeps the X pipe (R105, R262); the half clock of width 8 counts as one (log 177). -/
def xClocks (width : Nat) : Nat := max 1 (width / 16)

/-- The scheduler's pair of a group, which another group's link may hold (R181). -/
def Group.pairNo (g : Group) : Nat := g.part / 2
def State.pairHeld (s : State) (g : Group) : Bool := g.tile.isNone && !(s.pairCtl g.core g.pairNo).tiles.isEmpty

/-- A group stands at a word boundary (R364). -/
def Group.atBoundary (g : Group) : Bool :=
  match g.blk with
  | some b => b.boundary
  | none => true

/-- A cause that reached parked threads at their word, to be taken at the group's word boundary (R332, R364, R392). -/
def Group.dueTrap (g : Group) : Option Parked := g.parked.find? (fun p => match p.why with
  | .trap _ _ _ => true
  | _ => false)

/-- A fault of the step at the head of the tile's queue is held for its turn (R194). -/
def Group.faultDue (g : Group) : Bool :=
  match g.tile with
  | some t => !t.pending && ((t.queue.head?.bind (fun q => q.held)).isSome)
  | none => false

/-- What the group takes at its next boundary, before its next word, by the order of R375: 1 soft error, 6 a cause that
reached parked threads, 7 a step fault, 2 revocation, 3 copy error, 4 user interrupt, 5 pre-emption stop. A group without
live threads only runs out its steps. One whose trap waits for its frame takes it, 8, once the page request has been
resolved, and may be stopped before (R366, R392; log 173). -/
def Group.async (g : Group) : Option Nat :=
  match g.frameWait with
  | some w => if w.req.isNone then some 8 else if g.trap.preempt then some 5 else none
  | none =>
  if !g.atBoundary then none
  else if g.live = 0 then (if g.faultDue then some 7 else none)
  else if g.trap.pendSoft.isSome then some 1
  else if g.dueTrap.isSome then some 6
  else if g.faultDue then some 7
  else if g.trap.pendRevoke then some 2
  else if !g.trap.pendCopy.isEmpty && g.trap.level == .none then some 3
  else if g.trap.uipend && g.trap.uien && g.trap.level == .none then some 4
  else if g.trap.preempt && (g.trap.safecnt == 0 || g.tile.isSome || g.allParked) then some 5
  else none

/-- A restored team whose linked groups are not all granted their granules yet does not issue (R379). -/
def State.awaitsGrant (s : State) (team : Nat) : Bool :=
  s.groups.any (fun e => e.2.team == team && (e.2.tile.map (fun t => t.pending)) == some true)

/-- A word may touch the result registers of a queued ray-box pass: those from vZ on (R353). -/
def wordTouches (width vz : Nat) (i : Instr) : Bool :=
  decide (vz < wordVHigh width i) || (match i with
    | .tmma _ _ b a _ => b || a
    | .tmmaQ _ _ b a _ => b || a
    | .accMov .. => true
    | .accMovRaw .. => true
    | .texSmp .. => true
    | .texLoad .. => true
    | .texGather .. => true
    | .rtst .. => true
    | .eret => true
    | _ => false)

/-- The scoreboard holds a word that touches the registers of a pass not yet complete (R353). -/
def Group.passHolds (g : Group) (i : Instr) : Bool :=
  match g.tile with
  | some t => t.queue.any (fun q => q.kind == .rbox && wordTouches g.width q.block i)
  | none => false

/-- The group starts a block where it runs none (R17, R238). -/
def Group.start (g : Group) : Group :=
  match g.blk with
  | some _ => g
  | none =>
    match g.selected with
    | some e => { g with bbt := ageEntries e g.bbt, blk := some ⟨e.map, e.pc, e.slot, [], true⟩ }
    | none => g

/-- The next word of a group, where its packet can be fetched. -/
def State.nextWord (s : State) (g : Group) : Option Nat :=
  match ((g.unheld s.clock).start).blk with
  | some b =>
    if !b.words.isEmpty then b.words[b.slot]?
    else match s.fetchPacket g b.pc with
    | .ok ws => ws[b.slot]?
    | .error _ => none
  | none => none

/-- The partition of a group, and its issue slots. -/
def Group.slotKey (g : Group) : Nat := g.core * 6 + g.part
def State.slotsOf (s : State) (g : Group) : Slots := SMap.getD s.slots g.slotKey {}

/-- A linked group's words on V and X but for those of the grid wait while the grid runs; those of every group of a pair
wait while its grid ramps down (R181, R204, R343). -/
def State.gridHolds (s : State) (g : Group) (w : Nat) : Bool :=
  let p := s.pairCtl g.core ((g.tile.map (fun t => t.pairNo)).getD g.pairNo)
  wordPipe w < 2 && !gridPipe w && ((g.tile.isSome && p.running.isSome) || p.ramp == 3)

/-- The group's next word cannot issue in this clock: a pass holds its registers, the grid holds the pipe, or X is busy
(R21, R262, R343, R353). -/
def State.wordHeld (s : State) (g : Group) : Bool :=
  if g.tile.isNone && (s.slotsOf g).busyX ≤ s.clock && (s.pairCtl g.core g.pairNo).ramp != 3 then false
  else match s.nextWord g with
  | some w => s.gridHolds g w || (wordPipe w == 1 && s.clock < (s.slotsOf g).busyX)
      || ((decode w).map (fun i => g.passHolds i)).getD false
  | none => false

/-- A group holds a word that can issue, or takes a cause before it. -/
def State.candidate (s : State) (g : Group) : Bool :=
  g.life == .resident && !g.trap.stopped && !s.pwr.stoppedCores.contains g.core && !s.awaitsGrant g.team
  && (g.async.isSome || (g.frameWait.isNone && !s.pairHeld g && (g.blk.isSome || g.bbt.any (fun e => e.wait == .runnable)) && !s.wordHeld g))

/-- Every runnable entry of the group is held off by YIELD: another group takes its issue slot (R84). -/
def Group.yields (g : Group) (now : Nat) : Bool :=
  g.blk.isNone && g.async.isNone && (match (g.unheld now).selected with
    | some e => e.held != 0
    | none => false)

/-- The class of a group's grid: 0 D, 1 I, 2 B. -/
def State.classOf (s : State) (g : Group) : Nat := s.gridClass g.grid

/-- The rank of R262 within a class: the earlier issuable, then the lower group context number. -/
def earlier (a b : Group) : Bool := a.since < b.since || (a.since == b.since && a.gcn < b.gcn)
def pickGroup (l : List (Nat × Group)) : Option (Nat × Group) :=
  l.foldl (fun b e => match b with
    | some h => if earlier e.2 h.2 then some e else b
    | none => some e) none

/-- The candidates of a partition, those that YIELD holds off only where no other stands (R84). -/
def State.standing (s : State) (key : Nat) : List (Nat × Group) :=
  let l := s.groups.filter (fun e => e.2.slotKey == key && s.candidate e.2)
  let m := l.filter (fun e => !e.2.yields s.clock)
  if m.isEmpty then l else m

/-- The classes below the highest one present among some candidates. -/
def State.lowerClasses (s : State) (l : List (Nat × Group)) : List Nat :=
  let some_ := fun k => l.any (fun e => s.classOf e.2 == k)
  match (List.range 3).find? some_ with
  | some k => (List.range 3).filter (fun j => decide (k < j) && some_ j)
  | none => []

/-- The group that a partition issues first by R262: in one clock of eight a lower class is served. -/
def State.chooseIn (s : State) (key : Nat) : Option (Nat × Group) :=
  let l := s.standing key
  let of := fun k => l.filter (fun e => s.classOf e.2 == k)
  match (List.range 3).find? (fun k => !(of k).isEmpty) with
  | some k =>
    if s.clock % 8 = 7 then
      (match s.lowerClasses l with
        | [a, b] => pickGroup (of (if (SMap.getD s.slots key {}).turn then b else a))
        | [a] => pickGroup (of a)
        | _ => pickGroup (of k))
    else pickGroup (of k)
  | none => none

/-- The partitions that hold a candidate; one of them issues in a step (log 143). -/
def State.partitions (s : State) : List Nat := ((s.groups.filter (fun e => s.candidate e.2)).map (fun e => e.2.slotKey)).dedup
def State.choose (s : State) : Option (Nat × Group) :=
  match s.partitions with
  | [] => none
  | [k] => s.chooseIn k
  | ks => s.chooseIn (ks.getD (Config.nextPart s.tick % ks.length) 0)

/-- The group that takes the second issue slot of the partition that has just issued one single word: the highest ranked
of the others whose word uses a different pipe (R262). -/
def State.chooseSecond (s : State) : Option (Nat × Group) :=
  match s.second with
  | some (key, id, pipe) =>
    let l := (s.standing key).filter (fun e => e.1 != id && e.2.async.isNone && ((s.nextWord e.2).map wordPipe).getD pipe != pipe)
    match (List.range 3).find? (fun k => l.any (fun e => s.classOf e.2 == k)) with
    | some k => pickGroup (l.filter (fun e => s.classOf e.2 == k))
    | none => none
  | none => none

/-- A word may share an issue slot: on V, X or M, and not collective (R74, R164, R241). -/
def packable (w : Nat) : Bool :=
  let op := bits w 30 24
  [0, 1, 3].contains (wordPipe w) && op != 0x0C && op != 0x0D && !(op == 0x0F && bits w 5 0 ≤ 1) && !gridPipe w

/-- Another group stands with which a group's word may be packed, and is (R241; log 21): the slot is counted (R476). -/
def State.packed (s : State) (l : List (Nat × Group)) (id : Nat) (g : Group) (w : Nat) : Bool :=
  let place := fun (g : Group) => (((g.unheld s.clock).start).blk).map (fun b => (b.pc, b.slot))
  Config.packs s.tick && packable w && l.any (fun e =>
    e.1 != id && e.2.grid == g.grid && decide (e.2.width + g.width ≤ 64) && place e.2 == place g)
def Snap.packed (n : Snap) (key : Nat) : Snap :=
  let k := key / 6 * 64 + 22 + key % 6
  { n with counters := SMap.put n.counters k ((SMap.getD n.counters k 0 + 1) % 2 ^ 32) }

/-- What a group's choice leaves in its partition (R262): the turn of the lower classes, the clocks for which X is busy,
and, where another group stands beside it, the second slot that its single word opens. -/
def State.taking (s : State) (before : State) (id : Nat) (g : Group) (first : Bool) : State :=
  let key := g.slotKey
  let l := before.standing key
  let x := SMap.getD before.slots key {}
  let turn := if before.clock % 8 = 7 && (before.lowerClasses l).length == 2 then !x.turn else x.turn
  let alone := l.all (fun e => e.1 == id)
  let w := if g.async.isSome then none else before.nextWord g
  let pipe := (w.map wordPipe).getD 5
  let chained := ((w.map chainBit).getD false) && pipe != 5
  let busy := if pipe = 1 then before.clock + xClocks g.width else x.busyX
  { s.forGrid g.grid with
    snap := if (w.map (before.packed l id g)).getD false then s.snap.packed key else s.snap
    slots := if turn = x.turn ∧ busy = x.busyX then s.slots else SMap.put s.slots key ⟨turn, busy⟩
    second := if first && !alone && !chained && w.isSome then some (key, id, pipe) else none }

/-- What a group's turn comes to: a word to execute in a state, or a state in which the turn is over. -/
inductive Turn where
  | word (s : State) (i : Instr)
  | over (s : State)

/-- The word of the packet's slot, with the literal before it (R225, R27). -/
def turnWord (s : State) (id : Nat) (b : Block) : Turn :=
  let w := b.words.getD b.slot 0
  let prev := decode (b.words.getD (b.slot - 1) 0)
  let lit := match prev with
    | some (.lit p) => if 0 < b.slot then p else 0
    | _ => 0
  match decode w with
  | some i => .word { s.readConsts id i with cur := some ⟨id, b.map, b.pc, b.slot, lit, chainBit w && i != .nop⟩ } i
  | none => .word { s with cur := some ⟨id, b.map, b.pc, b.slot, lit, false⟩ } (.illegalEncoding b.slot)

/-- A group's turn (R17, R22, R23, R37): causes due at its boundary first, then its block's next word. -/
def State.turn (s : State) (id : Nat) (g : Group) : Turn :=
  match g.async with
  | some 1 =>
    let s := s.modGroup id (fun g => { g with trap := { g.trap with pendSoft := none } })
    .over (s.deliverAsync id 0x15 (g.trap.pendSoft.getD 0))
  | some 2 =>
    let s := s.modGroup id (fun g => { g with trap := { g.trap with pendRevoke := false } })
    .over (s.deliverAsync id 0x14 0)
  | some 3 => .word s (.copyErrorDelivery id)
  | some 4 => .word s (.userInterruptDelivery id)
  | some 6 =>
    match g.dueTrap with
    | some p => match p.why with
      | .trap k m a => .over ((s.modGroup id (fun g => g.resume p)).deliver id k (m &&& g.live) a p.pc p.slot false)
      | _ => .over s
    | none => .over s
  | some 7 => .word s (.stepFault id)
  | some 8 => .over (s.redeliver id)
  | some _ => .word s (.forcedSafePoint id)
  | none =>
    let g := g.start
    match g.blk with
    | none => .over s
    | some b =>
      let s := s.setGroup id g
      if !b.words.isEmpty then turnWord s id b
      else
        let c : Cur := ⟨id, b.map, b.pc, 0, 0, false⟩
        match s.fetchPacket g b.pc with
        | .ok ws =>
          let b := { b with words := ws }
          let s := (s.setGroup id { g with blk := some b }).fetched g b.pc
          let ntask := match SMap.find s.grids g.grid with
            | some r => r.taskTable.length
            | none => 0
          match checkPacket g ntask ws b.slot with
          | some i => .word { s with cur := some { c with slot := b.slot } } (.illegalEncoding i)
          | none => turnWord s id b
        | .error (.page gpa) => .over (s.stopAt { c with slot := b.slot } (.page 0 b.map b.pc gpa false))
        | .error (.fail k) => .over (s.raiseAt c ⟨k, b.map, b.pc⟩ [])
        | .error _ => .over s

/-- The part does nothing until a cold reset: it is Off, or has stopped (R464, R470). -/
def State.dead (s : State) : Bool := s.svc.stopped || s.pwr.state == .off

/-! ## A word placed where the next step fetches -/

/-- The tables and the code of a one-page program: a level-0 to level-2 walk to a 2 MiB leaf with every right
that maps address 0 upward to itself (R381 to R384), and a packet at 0x10000. -/
def placeMem (m : Memory) (a b c : Nat) : Memory :=
  let m := Memory.write m 0x1000 (bytesOf 8 (0x2000 + 1))
  let m := Memory.write m 0x2000 (bytesOf 8 (0x3000 + 1))
  let m := Memory.write m 0x3000 (bytesOf 8 (2 ^ 55 + 2 ^ 54 + 2 ^ 53 + 2))
  Memory.write m 0x10000 (bytesOf 4 a ++ bytesOf 4 b ++ bytesOf 4 c)

/-- The grid, team and group of the placed program: one group of 64 lanes in supervisor mode, every register
declared, as QOPEN, a launch and a team placement would leave them (R13, R249, R255). -/
def placeLpb : Lpb :=
  ⟨64, 0, 0, 0, 0, 0, 0, 0, 0, 0, 0, false, 0, 1, 65535, 0, 192, 0, 0, 0, 16, 16, 128, 64, 1, 1, 1, 0, 0, 0, 0, 1, 64, 0, 0x10000⟩
def placeGrid : Grid :=
  { ctx := 1, lpbAddr := 0x8000, lpb := placeLpb, banks := List.replicate 16 0x20000,
    taskTable := List.replicate 64 ⟨0, 0⟩, nodes := [], deps := [], mode := true, arrived := 0, started := true, placed := 1 }
def placeTeam : Team :=
  { ctx := 1, grid := 1, index := 0, cluster := 0, rank := 0, core := 0, home := 0, kset := [0], life := .resident, groups := [3],
    tlsSize := 4096, winSize := 4096 }
def placeGroup (slot : Nat) : Group :=
  { gcn := 0, ctx := 1, grid := 1, team := 2, grp := 0, core := 0, part := 0, life := .resident, width := 64,
    vcount := 64, vdecl := 64, scount := 128, lpb := 0x8000, code := 0x10000, base := 0x10000,
    live := BitVec.allOnes 64, bbt := [⟨BitVec.allOnes 64, 0x10000, slot, .runnable, 0, 0⟩],
    trap := { mode := true, lmode := true, safecnt := 65535, gcb := 0x40000 } }

/-- The packet for a word: a literal word takes a consumer after it, and a word that names kind 11 with
N = 63 a literal before it, which its entry passes over. -/
def placePacket (w : Nat) : Nat × Nat × Nat × Nat :=
  match decode w with
  | some (.lit _) => (w, encode (.mov 0 (.lit 63)), 0, 0)
  | some i => if wordNeedsLit i then (encode (.lit 0), w, 0, 1) else (w, 0, 0, 0)
  | none => (w, 0, 0, 0)

/-- The state with the word as the next to fetch and run. -/
def State.place (s : State) (w : Nat) : State :=
  let (a, b, c, slot) := placePacket w
  { s with
    agenda := []
    slots := []
    second := none
    targets := []
    trans := {}
    host := { s.host with ready := true }
    pwr := { s.pwr with brup := 8, rising := false, state := .run, stoppedCores := [] }
    svc := { s.svc with stopped := false }
    mem := { cells := placeMem s.mem.cells a b c }
    ctxs := SMap.put s.ctxs 1 { bound := true, tag := 1, s1root := 0x1000, shvec := 0x30000, save := 0x40000, savesz := 64 }
    grids := SMap.put s.grids 1 placeGrid
    teams := SMap.put s.teams 2 placeTeam
    groups := [(3, placeGroup slot)]
    nextId := 4 }

end Sys2Proof.Machine
end

