-- ==== Sys2Proof/Machine/Control.lean ====
section
/-! DEFINITION. NOP, branches, and the words that end, converge or hold threads (R77 to R87), with the literal
word (R225) and the packet check's failure (R37). -/

namespace Sys2Proof.Machine

/-- NOP has no effect (R77). -/
def execNop (s : State) : Out := issueWord s (fun c _ s => .ok (s, c.map))

/-- The literal word has no effect of its own and does not issue; no word boundary follows it (R27, R225). -/
def execLit (_ : Nat) (s : State) : Out :=
  match s.cur with
  | some c => .next { (s.modGroup c.gid (fun g => g.goOn { c with chain := true } c.map)) with cur := none }
  | none => .next s

/-- A packet whose word at slot i fails the check raises 0x01 at the slot where the entry began (R22, R37). -/
def execIllegalEncoding (i : Nat) (s : State) : Out :=
  match s.cur with
  | some c => .next (s.raiseAt c ⟨0x01, c.map, i⟩ [])
  | none => .next s

/-- The target of a displacement in packets (R31). -/
def branchTo (pc : Nat) (d : Int) : Nat := (((pc : Int) + 12 * d) % 2 ^ 48).toNat

/-- The threads of the issue set where predicate P, inverted by NEG, is true (R31, R78). -/
def condMap (c : Cur) (g : Group) (p : Nat) (n : Bool) : Lanes :=
  (if n then ~~~(g.regs.getP p) else g.regs.getP p) &&& c.map

/-- The taken threads go to the target, the others to the next packet. -/
def State.split (s : State) (c : Cur) (taken : Lanes) (target : Nat) : State :=
  (s.enterAt c.gid taken target).enterAt c.gid (c.map &&& ~~~taken) (c.pc + 12)

/-- BRA: each thread by its own predicate; BRC: all, when the condition holds in every thread (R78). -/
def execBra (p : Nat) (n : Bool) (e : Nat) (s : State) : Out :=
  issueWord s (fun c g s => .ok (s.split c (condMap c g p n) (branchTo c.pc (signedOf 20 e)), 0))
def execBrc (p : Nat) (n : Bool) (e : Nat) (s : State) : Out :=
  issueWord s (fun c g s =>
    .ok (s.split c (if condMap c g p n = c.map then c.map else 0) (branchTo c.pc (signedOf 20 e)), 0))

/-- CALL: as BRA, with the offset of the return packet in v0 of the threads that take it (R78). -/
def execCall (p : Nat) (n : Bool) (e : Nat) (s : State) : Out :=
  issueWord s (fun c g s =>
    let taken := condMap c g p n
    let r := g.regs.writeLanes 0 (fun _ => BitVec.ofNat 32 (c.pc + 12 - g.base)) (taken.list g.width)
    .ok ((s.setGroup c.gid { g with regs := r }).split c taken (branchTo c.pc (signedOf 20 e)), 0))

/-- Jumps to code offsets: a misaligned offset in some thread raises 0x04 there, and no thread moves (R79). -/
def jumpTo (s : State) (off : Cur → Group → State → Except Stop (Nat → Word)) : Out :=
  issueWord s (fun c g s => match off c g s with
    | .error e => .error e
    | .ok f =>
      let l := c.lanes g
      let bad := l.filter (fun t => (f t).toNat % 12 != 0)
      match bad with
      | t :: _ => .error (.trap ⟨0x04, Lanes.of bad, g.base + (f t).toNat⟩)
      | [] => .ok (l.foldl (fun s t => s.enterAt c.gid (Lanes.one t) (g.base + (f t).toNat)) s, 0))
def execRet (a : Src) (s : State) : Out := jumpTo s (fun c g s => s.src c g .int a)
def execJmpx (a b : Src) (s : State) : Out :=
  jumpTo s (fun c g s => match s.src c g .int a, s.src c g .int b with
    | .ok x, .ok y => .ok (fun t => x t + y t)
    | .error e, _ => .error e
    | _, .error e => .error e)

/-- The issue set ceases to be live (R80); of tasks, with a release of scope dev (R96). -/
def ceaseWord (s : State) : Out :=
  issuePark s (fun c g s => releasing (if g.tasksIn c.map then 3 else 0) (fun c _ s => .ok (s.cease c.gid c.map, 0)) c g s)

/-- EXIT (R80). -/
def execExit (s : State) : Out := ceaseWord s

/-- Threads park in the BBT at the word (R75). -/
def State.parkIn (s : State) (c : Cur) (w : BbtWait) : State :=
  s.modGroup c.gid (fun g => { g with bbt := bbtEnter g.bbt ⟨c.map, c.pc, c.slot, w, 0, 0⟩ })

/-- CONVERGE (R81), BAR.G and BAR.T (R82): arrival; completion and R76 follow (issuePark). -/
def execConverge (s : State) : Out := issuePark s (fun c _ s => .ok (s.parkIn c .converge, 0))
def execBarG (s : State) : Out := issuePark s (fun c _ s => .ok (s.parkIn c .barG, 0))
def execBarT (s : State) : Out := issuePark s (fun c _ s => .ok (s.parkIn c .barT, 0))

/-- YIELD: to the next packet, held back for 8 clocks (R84). -/
def execYield (s : State) : Out :=
  issueWord s (fun c _ s => .ok (s.modGroup c.gid (fun g =>
    { g with bbt := bbtEnter g.bbt ⟨c.map, c.pc + 12, 0, .runnable, 0, s.clock + 8⟩ }), 0))

/-- SAFEPT: reloads SAFECNT; with a pre-emption request standing, the group stops (R85, R266), once the other half of its
paired grid, where that only runs out its steps, has ended (R184). -/
def execSafept (s : State) : Out :=
  issueWord s (fun c g s =>
    if g.trap.preempt && s.runsOut g then .error .wait
    else .ok (((if g.trap.preempt then s.drainTile c.gid else s).modGroup c.gid (fun h =>
      { h with trap := { h.trap with
          safecnt := s.budgetOf g + 1
          stopped := h.trap.stopped || h.trap.preempt
          safept := h.trap.safept || h.trap.preempt } })).enterAt c.gid c.map (c.pc + 12), 0))

/-- TRIGGER: first triggers of threads of the team-index space, with a release of scope dev (R86). -/
def execTrigger (s : State) : Out :=
  issueWord s (releasing 3 (fun c g s =>
    if g.isTask || g.batch.isSome || (c.map &&& ~~~g.triggered) = 0 then .ok (s, c.map)
    else .ok ((s.releaseBy c.gid 3).modGroup c.gid (fun g => { g with triggered := g.triggered ||| c.map }), c.map)))

/-- TRAP: cause 0x0F with the tag (R87). -/
def execTrap (t : Nat) (s : State) : Out := issueWord s (fun c _ _ => .error (.trap ⟨0x0F, c.map, t⟩))

/-- CWIN: the constant window's bank and index (R92). -/
def execCwin (b h l : Nat) (s : State) : Out :=
  issueRegs s (fun _ g _ => .ok { g.regs with cwBank := b, cwIdx := h * 4 + l })
def execCwinReg (b y : Nat) (s : State) : Out :=
  issueRegs s (fun _ g _ => .ok { g.regs with cwBank := b, cwIdx := (g.regs.getS y).toNat % 256 })

end Sys2Proof.Machine
end

