-- ==== Sys2Proof/Machine/Convert.lean ====
section
/-! DEFINITION. Conversion and packing (R128 to R131). -/

namespace Sys2Proof.Machine

/-- The types of CVT (R36): a float format, or an integer type signed or unsigned. -/
inductive CvtType where
  | flt (f : Fmt)
  | int (signed : Bool)
  deriving DecidableEq, Repr

/-- A type code of R36. -/
def cvtType (n : Nat) : CvtType :=
  match n with
  | 0 => .flt .fp32
  | 1 => .flt .fp16
  | 2 => .flt .bf16
  | 3 => .flt .e4m3
  | 4 => .flt .e5m2
  | 5 => .flt .e2m1
  | 6 => .int true
  | _ => .int false

/-- The exact value of a source code, in the low bits of a word (R129). -/
def CvtType.value (t : CvtType) (w : Word) : Num :=
  match t with
  | .flt f => f.decode (w.toNat % 2 ^ f.width)
  | .int true => Num.ofInt w.toInt
  | .int false => Num.ofInt w.toNat

def CvtType.isFlt : CvtType → Bool
  | .flt _ => true
  | .int _ => false

/-- An exact value delivered to an integer range, as a code of w bits (R64, R65). -/
def intCode (mode : Nat) (fromFloat : Bool) (w : Nat) (signed : Bool) (x : Num) : Nat × Stat :=
  let (lo, hi) : Int × Int := if signed then (-2 ^ (w - 1), 2 ^ (w - 1) - 1) else (0, 2 ^ w - 1)
  let (v, st) := deliverInt mode fromFloat lo hi x
  (codeOf w v, st)

/-- CVT of one word (R129). -/
def cvtWord (mode : Nat) (sat : Bool) (dst src : CvtType) (w : Word) : Word × Stat :=
  match dst with
  | .flt f => ofCode (f.deliver mode sat (src.value w))
  | .int sg => ofCode (intCode mode src.isFlt 32 sg (src.value w))
def execCvt (d v r : Nat) (t : Bool) (u w : Nat) (s : State) : Out :=
  issueRegs s (fun c g _ =>
    .ok (g.regs.writeStat d (fun l => cvtWord r t (cvtType u) (cvtType w) (g.regs.getV l v)) (c.lanes g)))

/-- The elements of QPACK and QUNPK (R130): a float format, or an integer of some bits. -/
inductive PackType where
  | flt (f : Fmt)
  | int (w : Nat) (signed : Bool)
  deriving DecidableEq, Repr
def packType (n : Nat) : PackType :=
  match n with
  | 0 => .flt .fp16
  | 1 => .flt .bf16
  | 2 => .flt .e4m3
  | 3 => .flt .e5m2
  | 4 => .flt .e2m1
  | 5 => .int 8 true
  | 6 => .int 4 true
  | _ => .int 8 false

/-- One element converted from an FP32 or i32 register (R131). -/
def packElem (mode : Nat) (sat : Bool) (t : PackType) (w : Word) : Nat × Stat :=
  match t with
  | .flt f => f.deliver mode sat (f32 w)
  | .int b sg => intCode mode false b sg (Num.ofInt w.toInt)

/-- n elements packed from element i on, element i at bits 32/n × i (R49). -/
def packAll (mode : Nat) (sat : Bool) (t : PackType) (n : Nat) (x : Nat → Word) : Word × Stat :=
  (List.range n).foldl (fun p i =>
    let (e, st) := packElem mode sat t (x i)
    (p.1 + BitVec.ofNat 32 (e * 2 ^ (32 / n * i)), p.2 ||| st)) (0, 0)
def execQpack (d v r : Nat) (t : Bool) (y : Nat) (s : State) : Out :=
  issueRegs s (fun c g _ => .ok (g.regs.writeStat d (fun l =>
    packAll r t (packType y) (packCount y) (fun i => g.regs.getV l (v + i))) (c.lanes g)))

/-- One element widened: floats exactly to FP32, a NaN to the canonical one (R131). -/
def unpackElem (t : PackType) (n : Nat) (i : Nat) (w : Word) : Word :=
  let e := w.toNat / 2 ^ (32 / n * i) % 2 ^ (32 / n)
  match t with
  | .flt f => BitVec.ofNat 32 (Fmt.fp32.roundNE (f.decode e))
  | .int b true => BitVec.ofInt 32 (signedOf b e)
  | .int _ false => BitVec.ofNat 32 e
def execQunpk (d v y : Nat) (s : State) : Out :=
  issueRegs s (fun c g _ => .ok ((c.lanes g).foldl (fun r l =>
    r.writeRun l d ((List.range (packCount y)).map (fun i => unpackElem (packType y) (packCount y) i (g.regs.getV l v)))) g.regs))

end Sys2Proof.Machine
end

