-- ==== Sys2Proof/Machine/Groups.lean ====
section
/-! DEFINITION. Collectives (R74, R88 to R91, R72, R73), tasks (R93 to R96) and work-graph records (R97 to
R100), with the grant rule of the Mire (R335, R336). -/

namespace Sys2Proof.Machine

/-- A collective word that changes registers only. -/
def collective (s : State) (f : Cur → Group → Regs) : Out :=
  issueRegs s (fun c g _ => match c.whole g with
    | .ok _ => .ok (f c g)
    | .error e => .error e)

/-- A predicate over the live lanes, and a truth value in every lane. -/
def liveP (c : Cur) (g : Group) (p : Nat) : Lanes := g.regs.getP p &&& c.map
def allLanes (b : Bool) : Lanes := if b then BitVec.allOnes 64 else 0

/-- VOTE (R88). -/
def execVoteAny (d p : Nat) (s : State) : Out :=
  collective s (fun c g => g.regs.setP d c.map (allLanes (liveP c g p != 0)))
def execVoteAll (d p : Nat) (s : State) : Out :=
  collective s (fun c g => g.regs.setP d c.map (allLanes (liveP c g p == c.map)))
def execVoteEq (d p : Nat) (s : State) : Out :=
  collective s (fun c g => g.regs.setP d c.map (allLanes (liveP c g p == 0 || liveP c g p == c.map)))
def execVoteBallot (d p : Nat) (s : State) : Out :=
  collective s (fun c g => g.regs.setPairS d (liveP c g p &&& Lanes.below g.width))

/-- SHFL: lane i reads vS of lane j(i) where that lane is live, else its own (R89). -/
def shuffle (s : State) (d v : Nat) (j : Group → Nat → Option Nat) : Out :=
  collective s (fun c g => g.regs.writeLanes d (fun i => match j g i with
    | some k => if k < g.width && g.live.has k then g.regs.getV k v else g.regs.getV i v
    | none => g.regs.getV i v) (c.lanes g))
def execShflIdx (d v z : Nat) (s : State) : Out := shuffle s d v (fun g i => some (g.regs.getV i z).toNat)
def execShflUp (d v n : Nat) (s : State) : Out := shuffle s d v (fun _ i => if n ≤ i then some (i - n) else none)
def execShflDown (d v n : Nat) (s : State) : Out := shuffle s d v (fun _ i => some (i + n))
def execShflXor (d v n : Nat) (s : State) : Out := shuffle s d v (fun _ i => some (i ^^^ n))

/-- The operations of REDG and SCANG (R36, R72). -/
def redOp (o : Nat) (a b : Word) : Word × Stat :=
  match o with
  | 0 => (a + b, 0)
  | 1 => (if b.toInt < a.toInt then b else a, 0)
  | 2 => (if a.toInt < b.toInt then b else a, 0)
  | 3 => (a &&& b, 0)
  | 4 => (a ||| b, 0)
  | 5 => (a ^^^ b, 0)
  | 6 => fadd32 false a b
  | 7 => (fpick32 false a b, 0)
  | _ => (fpick32 true a b, 0)

/-- The identities of SCANG.excl (R73). -/
def redIdentity (o : Nat) : Word :=
  match o with
  | 1 => 0x7FFFFFFF
  | 2 => 0x80000000
  | 3 => 0xFFFFFFFF
  | 6 => 0x80000000
  | 7 => 0x7F800000
  | 8 => 0xFF800000
  | _ => 0

/-- Combine of R72: an absent operand passes the other unchanged; status bits gather. -/
def combine (o : Nat) (a b : Option Word × Stat) : Option Word × Stat :=
  match a.1, b.1 with
  | some x, some y => (some (redOp o x y).1, a.2 ||| b.2 ||| (redOp o x y).2)
  | some x, none => (some x, a.2 ||| b.2)
  | none, y => (y, a.2 ||| b.2)

/-- node(l, i) of the tree of R72 over the live lanes' values. -/
def redNode (o : Nat) (val : Nat → Option Word) : Nat → Nat → Option Word × Stat
  | 0, i => (val i, 0)
  | l + 1, i => combine o (redNode o val l (2 * i)) (redNode o val l (2 * i + 1))

/-- The combination of the k lanes from `start`, by powers of two, largest first (R73). -/
def scanFrom (o : Nat) (val : Nat → Option Word) (k : Nat) : Nat → Nat → Option Word × Stat → Option Word × Stat
  | 0, _, acc => acc
  | l + 1, start, acc =>
    if k / 2 ^ l % 2 = 1 then scanFrom o val k l (start + 2 ^ l) (combine o acc (redNode o val l (start / 2 ^ l)))
    else scanFrom o val k l start acc
def scanTo (o : Nat) (val : Nat → Option Word) (k : Nat) : Option Word × Stat := scanFrom o val k 7 0 (none, 0)

/-- A lane's value where it is live. -/
def liveVal (g : Group) (v i : Nat) : Option Word := if i < g.width && g.live.has i then some (g.regs.getV i v) else none

/-- REDG (R90): the tree result in every thread, or in a scalar register. -/
def redTotal (g : Group) (o v : Nat) : Word × Stat :=
  let r := redNode o (liveVal g v) (Nat.log2 g.width) 0
  (r.1.getD 0, r.2)
def execRedg (d v o : Nat) (s : State) : Out :=
  collective s (fun c g => g.regs.writeStat d (fun _ => redTotal g o v) (c.lanes g))
def execRedgScalar (d v o : Nat) (s : State) : Out :=
  collective s (fun _ g => (g.regs.setS d (redTotal g o v).1).raiseStat (redTotal g o v).2)

/-- SCANG (R73, R90). -/
def execScangIncl (d v o : Nat) (s : State) : Out :=
  collective s (fun c g => g.regs.writeStat d (fun i =>
    let r := scanTo o (liveVal g v) (i + 1)
    (r.1.getD 0, r.2)) (c.lanes g))
def execScangExcl (d v o : Nat) (s : State) : Out :=
  collective s (fun c g => g.regs.writeStat d (fun i =>
    let r := scanTo o (liveVal g v) i
    (r.1.getD (redIdentity o), r.2)) (c.lanes g))

/-! ## The Mire's grants -/

/-- The granules that a Mire request takes beyond its grid's share (R335). -/
def State.mireBeyond (s : State) (grid : Nat) (node : Option Nat) (n : Nat) : Nat :=
  match SMap.find s.grids grid with
  | some r => mireHeld s.mire grid node + n - max (mireHeld s.mire grid node) (r.mireShare node)
  | none => 0

/-- The Mire request of a wait: its grid, queue and granules. -/
def State.mireWait (s : State) (g : Group) : Park → Option (Nat × Option Nat × Nat)
  | .rsv _ _ node total =>
    match (SMap.find s.grids g.grid).bind (fun r => r.nodes[node]?) with
    | some d => some (g.grid, some node, total * (d.recsz / 16))
    | none => none
  | .spawn _ _ offer =>
    match SMap.find s.grids g.grid with
    | some r => some (g.grid, none, offer.count * taskGranules r)
    | none => none
  | _ => none

/-- Whether a Mire request of a group may be granted now (R335): the head of its own queue, within the
node's or the queue's ceiling, and, for what lies beyond its share, first in the partition's common space. The records of
an RSV form one run; the entries of a SPAWN take free slots one by one (R94). -/
def State.mireMay (s : State) (g : Group) (node : Option Nat) (n born : Nat) : Bool :=
  match SMap.find s.grids g.grid with
  | none => false
  | some r =>
    let q := r.mirePart node
    let held := mireHeld s.mire g.grid node
    let cap := match node with
      | some k => (match r.nodes[k]? with
        | some d => d.ceil * (d.recsz / 16)
        | none => 0)
      | none => r.lpb.tceil * taskGranules r
    let own := fun h w => match s.mireWait h w with
      | some (gr, k, _) => gr == g.grid && k == node
      | none => false
    let common := fun h w => match s.mireWait h w with
      | some (gr, k, m) => h.ctx == g.ctx && (match SMap.find s.grids gr with
          | some r2 => r2.mirePart k == q
          | none => false) && s.mireBeyond gr k m != 0
      | none => false
    held + n ≤ cap && !s.olderWaits own born g.gcn
    && (s.mireBeyond g.grid node n == 0 || !s.olderWaits common born g.gcn)
    && (match node with
      | some _ => (s.mireFit g.grid node n).isSome
      | none => s.mireAllows g.grid none n
          && mireRuns s.mire g.ctx (s.ctx g.ctx).mcfg.size (taskGranules r) (n / taskGranules r))

/-- A run of n granules is taken for a node or the task queue. -/
def State.mireTake (s : State) (g : Group) (node : Option Nat) (at_ n : Nat) : State :=
  let q := match SMap.find s.grids g.grid with
    | some r => r.mirePart node
    | none => 0
  { s with mire := s.mire ++ [⟨g.ctx, g.grid, node, q, at_, n⟩] }

/-! ## Tasks -/

/-- The granules of the next k task entries. -/
def State.taskRuns (s : State) (g : Group) (gran : Nat) : Nat → State × List Nat
  | 0 => (s, [])
  | k + 1 =>
    match mireRun s.mire g.ctx (s.ctx g.ctx).mcfg.size gran with
    | some a =>
      let (t, l) := State.taskRuns (s.mireTake g none a gran) g gran k
      (t, a :: l)
    | none => (s, [])

/-- A SPAWN's entries are set aside and its argument records copied, lane by lane (R94, R336). The records are read at once,
whether or not a copy in flight keeps their lines absent (log 172). -/
def State.spawnEntries (s : State) (g : Group) (pc slot task : Nat) (offer : Lanes) (y : Nat) : State × List SpawnGrant :=
  match SMap.find s.grids g.grid, SMap.find s.teams g.team with
  | some r, some t =>
    let size := (r.taskTable[task]?.map (fun e => e.arg)).getD 16
    let lanes := offer.list g.width
    let (s, es) := s.taskRuns g (taskGranules r) lanes.length
    (s, (lanes.zip es).map (fun p => ⟨p.1, pc, slot, p.2, Memory.read t.tls (g.regs.getV p.1 y).toNat size⟩))
  | _, _ => (s, [])

/-- Tasks are queued in the entries set aside for them (R94). -/
def State.queueTasks (s : State) (grid task : Nat) (l : List SpawnGrant) : State :=
  s.modGrid grid (fun r => { r with tasks := r.tasks ++ l.map (fun x => ⟨task, x.record, x.entry⟩) })

/-- SPAWN (R94): the records are copied and the tasks queued once the queue has room for every one; until then the issue
set waits at the word, which has no effect (R75; log 37). A word that issues again queues what its grant set aside. -/
def execSpawn (task y p : Nat) (s : State) : Out :=
  issueWord s (releasing 3 (fun c g s =>
    match c.whole g with
    | .error e => .error e
    | .ok _ =>
      let offer := g.regs.getP p &&& c.map
      let r := SMap.find s.grids g.grid
      let size := ((r.bind (fun r => r.taskTable[task]?)).map (fun e => e.arg)).getD 16
      let tls := ((SMap.find s.teams g.team).map (fun t => t.tlsSize)).getD 0
      let off := fun t => (g.regs.getV t y).toNat
      let fails := (offer.list g.width).flatMap (fun t =>
        (if off t % 16 ≠ 0 then [(t, 0x04, off t)] else []) ++ (if tls < off t + size then [(t, 0x07, off t)] else []))
      match firstCause causeOrder fails with
      | some e => .error (.trap e)
      | none =>
        if (r.map (fun r => r.lpb.tceil)).getD 0 < offer.count then .error (c.raise 0x0E)
        else
          let born := g.firstAge c.map c.pc c.slot s.clock
          let due := g.grants.filter (fun x => x.pc == c.pc && x.slot == c.slot)
          let effect := fun (s : State) (l : List SpawnGrant) =>
            (((s.commitTasks c.gid c.map).releaseBy c.gid 3).modGroup c.gid (fun g =>
              { g with grants := g.grants.filter (fun x => !due.contains x) })).queueTasks g.grid task l
          if offer = 0 then .ok (effect s [], c.map)
          else if !due.isEmpty then .ok (effect s due, c.map)
          else if s.mireMay g none (offer.count * (r.map taskGranules).getD 1) born then
            let (t, l) := s.spawnEntries g c.pc c.slot task offer y
            .ok (effect t l, c.map)
          else .ok (s.modGroup c.gid (fun g => g.park c.map c.pc c.slot (.spawn task y offer) s.clock), 0)))

/-- TASKEND: the tasks commit in one release and their threads end; outside a task it is EXIT (R96). -/
def execTaskend (s : State) : Out := ceaseWord s

/-! ## Work graphs -/

/-- Records granted to a group: each lane's address is a prefix sum, and its reservation is noted (R98). -/
def State.grantRecords (s : State) (id : Nat) (g : Group) (m : Lanes) (x y node : Nat) : State :=
  match (SMap.find s.grids g.grid).bind (fun r => r.nodes[node]?) with
  | none => s
  | some d =>
    let count := fun t => (g.regs.getV t y).toNat
    let lanes := m.list g.width
    let total := lanes.foldl (fun a t => a + count t) 0
    let n := total * (d.recsz / 16)
    let at_ := (s.mireFit g.grid (some node) n).getD 0
    let first := (s.ctx g.ctx).mcfg.base + 16 * at_
    let before := fun t => (lanes.filter (fun u => u < t)).foldl (fun a u => a + count u) 0
    let addr := fun t => if count t = 0 then 0 else first + before t * d.recsz
    let s := if n = 0 then s else s.mireTake g (some node) at_ n
    s.modGroup id (fun h => { h with
      regs := h.regs.writePairs x (fun t => BitVec.ofNat 64 (addr t)) lanes
      resvs := h.resvs ++ (lanes.filter (fun t => count t != 0)).map (fun t => ⟨t, node, addr t, count t⟩) })

/-- RSV (R98): refused beyond the node's limits, granted at once where it may be, else a wait. -/
def execRsv (x y node : Nat) (s : State) : Out :=
  issueWord s (fun c g s =>
    match c.whole g with
    | .error e => .error e
    | .ok _ =>
      match (SMap.find s.grids g.grid).bind (fun r => r.nodes[node]?) with
      | none => .error (c.raise 0x0E)
      | some d =>
        let counts := (c.lanes g).map (fun t => (g.regs.getV t y).toNat)
        let total := counts.foldl (fun a n => a + n) 0
        let born := g.firstAge c.map c.pc c.slot s.clock
        if counts.any (fun n => decide (64 < n)) || decide (d.ceil < total) then .error (c.raise 0x0E)
        else if total = 0 || s.mireMay g (some node) (total * (d.recsz / 16)) born then
          .ok ((s.grantRecords c.gid g c.map x y node).enterAt c.gid c.map (c.pc + 12), 0)
        else .ok (s.modGroup c.gid (fun g => g.park c.map c.pc c.slot (.rsv x y node total) s.clock), 0))

/-- A record at an address is one of a lane's reservation, and what is left of the reservation without it (R99). -/
def Reservation.holds (r : Reservation) (size lane addr : Nat) : Bool :=
  r.lane == lane && r.addr ≤ addr && (addr - r.addr) % size == 0 && addr + size ≤ r.addr + r.count * size
def Reservation.less (r : Reservation) (size addr : Nat) : List Reservation :=
  (if r.addr < addr then [{ r with count := (addr - r.addr) / size }] else [])
  ++ (if addr + size < r.addr + r.count * size then
      [{ r with addr := addr + size, count := (r.addr + r.count * size - (addr + size)) / size }] else [])

/-- The record size of a reservation's node. -/
def State.recSize (s : State) (g : Group) (node : Nat) : Nat :=
  (((SMap.find s.grids g.grid).bind (fun r => r.nodes[node]?)).map (fun d => d.recsz)).getD 16

/-- The n records of a lane from an address on, each within one of its own reservations (R99): their nodes and addresses,
and the reservations without them. -/
def State.coverRecords (s : State) (g : Group) (l : List Reservation) (lane addr : Nat) :
    Nat → Option (List (Nat × Nat) × List Reservation)
  | 0 => some ([], l)
  | n + 1 =>
    match l.find? (fun r => r.holds (s.recSize g r.node) lane addr) with
    | some r =>
      let size := s.recSize g r.node
      let rest := l.flatMap (fun q => if q = r then q.less size addr else [q])
      (s.coverRecords g rest lane (addr + size) n).map (fun e => ((r.node, addr) :: e.1, e.2))
    | none => none

/-- A record is committed to its node (R99, R336). -/
def State.commitRecord (s : State) (g : Group) (node addr : Nat) : State :=
  let s := s.modGrid g.grid (fun q =>
    { q with committed := SMap.put q.committed node (SMap.getD q.committed node [] ++ [⟨addr, s.clock⟩]) })
  match (SMap.find s.grids g.grid).map (fun r => r.mirePart (some node)) with
  | some q => s.stirMire g.ctx q
  | none => s

/-- One lane's records are committed in order. -/
def State.commitRecords (s : State) (id : Nat) (lane addr n : Nat) : State :=
  match SMap.find s.groups id with
  | some g =>
    match s.coverRecords g g.resvs lane addr n with
    | some (l, rest) =>
      l.foldl (fun (s : State) e => s.commitRecord g e.1 e.2) (s.setGroup id { g with resvs := rest })
    | none => s
  | none => s

/-- RCOMMIT (R99). -/
def execRcommit (x y : Nat) (s : State) : Out :=
  issueWord s (releasing 3 (fun c g s =>
    let l := (c.lanes g).filter (fun t => g.regs.getV t y != 0)
    let addr := fun t => (g.regs.pairV t x).toNat
    let n := fun t => (g.regs.getV t y).toNat
    let bad := l.filter (fun t => (s.coverRecords g g.resvs t (addr t) (n t)).isNone)
    if !bad.isEmpty then .error (.trap ⟨0x0E, Lanes.of bad, 0⟩)
    else
      let s := s.commitTasks c.gid c.map
      let s := s.releaseBy c.gid 3
      .ok (l.foldl (fun s t => s.commitRecords c.gid t (addr t) (n t)) s, c.map)))

/-- RGET: each lane's record address in its consumer batch, 0 outside one; the second form adds the count (R100). -/
def recordOf (g : Group) (t : Nat) : Nat :=
  match g.batch with
  | some (_, l) => l.getD t 0
  | none => 0
def batchCount (g : Group) : Nat :=
  match g.batch with
  | some (_, l) => l.length
  | none => 0
def execRget (x : Nat) (s : State) : Out :=
  issueRegs s (fun c g _ => .ok (g.regs.writePairs x (fun t => BitVec.ofNat 64 (recordOf g t)) (c.lanes g)))
def execRgetCount (x y : Nat) (s : State) : Out :=
  issueRegs s (fun c g _ => .ok ((g.regs.writePairs x (fun t => BitVec.ofNat 64 (recordOf g t)) (c.lanes g)).writeLanes y
    (fun _ => BitVec.ofNat 32 (batchCount g)) (c.lanes g)))

end Sys2Proof.Machine
end

