-- ==== Sys2Proof/Machine/Memory.lean ====
section
/-! DEFINITION. Loads, stores and atomics on generic addresses (R132 to R139, R32 to R34), with the tentative
stores of tasks (R95, R134, R243). -/

namespace Sys2Proof.Machine

/-- A lane's access: the lane, its generic address and what it reaches. -/
abbrev Reach := Nat × Nat × Spot

/-- The address of a lane (R32), modulo 2^64. -/
def laneAddr (g : Group) (a : Nat) (as : Bool) (ofs : Int) (t : Nat) : Nat :=
  let base := if as then (g.regs.pairS a).toNat + (g.regs.getV t a).toNat else (g.regs.pairV t a).toNat
  (((base : Int) + ofs) % 2 ^ 64).toNat

/-- The lanes of the issue set whose guard is true, ascending (R33). -/
def Cur.guarded (c : Cur) (g : Group) (p : Nat) : List Nat := (c.lanes g).filter (fun t => (g.regs.getP p).has t)

/-- What the lanes of a list reach at their addresses. -/
def State.reach (s : State) (g : Group) (acc : Access) (atomic : Bool) (size : Nat) (addr : Nat → Nat) (l : List Nat) :
    List Reach :=
  l.map (fun t => (t, addr t, s.spot g (addr t) size acc atomic))

/-- How a word stops whose lanes reach what a list says: the first cause (R133), or a page request. -/
def reachStop (wr : Bool) (l : List Reach) : Option Stop :=
  match firstCause causeOrder (l.filterMap (fun e => match e.2.2 with
    | .fail c => some (e.1, c, e.2.1)
    | _ => none)) with
  | some r => some (if r.cause = 0x05 then .traps r (l.map (fun e => (e.1, e.2.1))) else .trap r)
  | none => l.findSome? (fun e => match e.2.2 with
    | .page gpa => some (.page 0 (Lanes.of ((l.filter (fun f => f.2.2 == .page gpa)).map (fun f => f.1))) e.2.1 gpa wr)
    | _ => none)

/-- The lanes that touch an absent or filling window line, with their waits; and the others. -/
def waitsOf (l : List Reach) : List (Nat × Park) := l.filterMap (fun e => match e.2.2 with
  | .park w => some (e.1, w)
  | _ => none)
def readyOf (l : List Reach) : List Reach := l.filter (fun e => match e.2.2 with
  | .park _ => false
  | _ => true)

/-- Lanes park at a word, those of one wait together. -/
def State.parkLanes (s : State) (c : Cur) (l : List (Nat × Park)) : State :=
  ((l.map Prod.snd).dedup).foldl (fun (s : State) w =>
    (s.startFill w).modGroup c.gid (fun g =>
      g.park (Lanes.of ((l.filter (fun e => e.2 == w)).map Prod.fst)) c.pc c.slot w s.clock)) s

/-- A word that accesses generic memory in the guarded lanes: `f` takes effect for the lanes whose line is
present, and the others park at the word (R136, R143). `scope` is that of its release, 0 with none. A word that acquires or
releases (`whole`) takes no effect before every lane's line is present: its issue set parks together, and the acquire
follows all its accesses (R299). A lane's own render-target words to the bytes come before it (R294). -/
def memWord (s : State) (wr atomic : Bool) (size p : Nat) (addr : Group → Nat → Nat) (scope : Nat) (whole : Bool)
    (f : Cur → List Reach → State → State) : Out :=
  issueWord s (releasing scope (fun c g s =>
    let l := s.reach g (if wr then .write else .read) atomic size (addr g) (c.guarded g p)
    match reachStop wr l with
    | some e => .error e
    | none =>
      let parked := waitsOf l
      match whole, parked with
      | true, (_, w) :: _ =>
        .ok ((parked.foldl (fun (s : State) e => s.startFill e.2) s).modGroup c.gid (fun g =>
          g.park c.map c.pc c.slot w s.clock), 0)
      | _, _ => .ok ((f c (readyOf l) (s.ownTargets c.gid size (l.map (fun e => (e.1, e.2.2))))).parkLanes c parked, c.map &&& ~~~(Lanes.of (parked.map Prod.fst)))))

/-- Each lane's words are read into its registers, in ascending lane order. -/
def State.loadLanes (s : State) (id t k : Nat) : List Reach → State
  | [] => s
  | e :: r =>
    match SMap.find s.groups id with
    | some g =>
      let (s, ws) := s.loadWords g e.1 e.2.2 k
      State.loadLanes ((s.modGroup id (fun g => { g with regs := g.regs.writeRun e.1 t ws })).noteXlat g e.2.1 .read) id t k r
    | none => s

/-- The aligned 32-byte blocks that a task has granules for (R243). -/
def Task.granules (t : Task) : List Nat := (t.stores.map (fun e => e.1 / 32)).dedup
def Group.granules (g : Group) : Nat := g.tasks.foldl (fun a e => a + e.2.granules.length) 0

/-- Bytes kept tentatively by a lane's task. -/
def Task.keep (t : Task) (key : Nat) (ws : List Word) : Task :=
  { t with stores := SMap.putRun t.stores key (ws.flatMap wordBytes4) }

/-- One lane's words are stored: tentatively in a task with replay, which commits when no granule is free
(R95, R243), a relaxed store of scope sys among them (log 153); `sys` stores go to the SLC, as notifying writes (R137, R160),
and the thread's later loads see them (R294). -/
def State.storeLane (s : State) (id lane : Nat) (p : Spot) (sys : Bool) (ws : List Word) : State :=
  let plain := fun (s : State) (g : Group) => match p with
    | .mem pa => if sys then
        { s with mem := (s.mem.atomicSysOf g.core (pa / 4) (fun _ => ws.headD 0)).1.note (pa / 256) } else s.storeWords g p ws
    | _ => s.storeWords g p ws
  match SMap.find s.groups id with
  | none => s
  | some g =>
    match SMap.find g.tasks lane with
    | some t =>
      if !t.replay then plain s g
      else if t.granules.contains (s.keyOf p / 32) || g.granules < 256 then
        s.setGroup id { g with tasks := SMap.put g.tasks lane (t.keep (s.keyOf p) ws) }
      else plain (s.commitTasks id (Lanes.one lane)) g
    | none => plain s g

/-- Each lane's registers are stored, in ascending lane order (R136). -/
def State.storeLanes (s : State) (id t k : Nat) (sys : Bool) (l : List Reach) : State :=
  l.foldl (fun (s : State) e => match SMap.find s.groups id with
    | some g => (s.storeLane id e.1 e.2.2 sys ((List.range k).map (fun i => g.regs.getV e.1 (t + i)))).noteXlat g e.2.1 .write
    | none => s) s

/-- LD and ST (R136). -/
def load (k t a : Nat) (as : Bool) (p o : Nat) (s : State) : Out :=
  memWord s false false (4 * k) p (fun g => laneAddr g a as (signedOf 8 o * (4 * k))) 0 false (fun c l s => s.loadLanes c.gid t k l)
def store (k t a : Nat) (as : Bool) (p o : Nat) (s : State) : Out :=
  memWord s true false (4 * k) p (fun g => laneAddr g a as (signedOf 8 o * (4 * k))) 0 false (fun c l s => s.storeLanes c.gid t k false l)
def execLd (t a : Nat) (as : Bool) (p o : Nat) (s : State) : Out := load 1 t a as p o s
def execLdB64 (t a : Nat) (as : Bool) (p o : Nat) (s : State) : Out := load 2 t a as p o s
def execLdB128 (t a : Nat) (as : Bool) (p o : Nat) (s : State) : Out := load 4 t a as p o s
def execSt (t a : Nat) (as : Bool) (p o : Nat) (s : State) : Out := store 1 t a as p o s
def execStB64 (t a : Nat) (as : Bool) (p o : Nat) (s : State) : Out := store 2 t a as p o s
def execStB128 (t a : Nat) (as : Bool) (p o : Nat) (s : State) : Out := store 4 t a as p o s

/-! ## Ordered accesses -/

/-- The lines of the accesses await evaluation: notifying writes (R160). -/
def State.noteLines (s : State) (l : List Reach) : State :=
  { s with mem := l.foldl (fun m e => match e.2.2 with
    | .mem pa => m.note (pa / 256)
    | _ => m) s.mem }

/-- A word loaded at scope sys: performed at the SLC, with forwarding from its owner (R137, R284). -/
def State.loadSys (s : State) (id t : Nat) (l : List Reach) : State :=
  l.foldl (fun (s : State) e => match SMap.find s.groups id, e.2.2 with
    | some g, .mem pa =>
      let (m, w) := s.mem.readSys g.core (pa / 4)
      (({ s with mem := m }).setGroup id { g with regs := g.regs.setV e.1 t (g.merged e.1 pa w) }).noteXlat g e.2.1 .read
    | _, _ => s.loadLanes id t 1 [e]) s

/-- LD.ord (R137): ORD 0 relaxed, 1 acquire. -/
def execLdOrdered (t a : Nat) (as : Bool) (p r e : Nat) (s : State) : Out :=
  memWord s false false 4 p (fun g => laneAddr g a as 0) 0 (r != 0) (fun c l s =>
    let s := if e = 4 then s.loadSys c.gid t l else s.loadLanes c.gid t 1 l
    if r = 1 then s.acquireBy c.gid e else s)

/-- ST.ord (R137): ORD 0 relaxed, 2 release, which commits tasks (R134) and notifies (R160). -/
def execStOrdered (t a : Nat) (as : Bool) (p r e : Nat) (s : State) : Out :=
  memWord s true false 4 p (fun g => laneAddr g a as 0) (if r = 2 then e else 0) (r != 0) (fun c l s =>
    if r = 2 then (((s.commitTasks c.gid c.map).releaseBy c.gid e).storeLanes c.gid t 1 (e == 4) l).noteLines l
    else s.storeLanes c.gid t 1 (e == 4) l)

/-! ## Atomics -/

/-- The new word of an atomic (R34, R138): code 6 is xchg, or fadd in RED and ATOM.fadd. -/
def atomNew (red : Bool) (o : Nat) (b b2 old : Word) : Word :=
  match o with
  | 0 => old + b
  | 1 => if b.toInt < old.toInt then b else old
  | 2 => if old.toInt < b.toInt then b else old
  | 3 => old &&& b
  | 4 => old ||| b
  | 5 => old ^^^ b
  | 6 => if red then (fadd32 false old b).1 else b
  | _ => if old = b then b2 else old

/-- One lane's read-modify-write at its word (R139, R288): at the SLC for scope sys outside a window, else in
the core or the window. -/
def State.atomLane (s : State) (id : Nat) (e : Reach) (t : Nat) (sys back : Bool) (f : Word → Word → Word → Word) : State :=
  match SMap.find s.groups id, e.2.2 with
  | some g, .mem pa =>
    let windowed := ((SMap.find s.teams g.team).bind (fun m => m.windowOf e.2.1)).isSome
    let op := f (g.regs.getV e.1 t) (g.regs.getV e.1 (t + 1))
    let (m, old) := if sys && !windowed then s.mem.atomicSysOf g.core (pa / 4) op else s.mem.atomicCore g.core (pa / 4) op
    let s := ({ s with mem := m.note (pa / 256) }).noteXlat g e.2.1 .write
    if back then s.setGroup id { g with regs := g.regs.setV e.1 t old } else s
  | _, _ => s

/-- An atomic word: tasks commit (R134), the release before and the acquire after the accesses (R299). -/
def atomic (t a : Nat) (as : Bool) (p r e : Nat) (back : Bool) (f : Word → Word → Word → Word) (s : State) : Out :=
  memWord s true true 4 p (fun g => laneAddr g a as 0) (if r = 2 ∨ r = 3 then e else 0) (r != 0) (fun c l s =>
    let rel := r == 2 || r == 3
    let s := s.commitTasks c.gid (if rel then c.map else Lanes.of (l.map (fun x => x.1)))
    let s := if rel then s.releaseBy c.gid e else s
    let s := l.foldl (fun (s : State) x => s.atomLane c.gid x t (e == 4) back f) s
    if r = 1 ∨ r = 3 then s.acquireBy c.gid e else s)
def execAtom (t a : Nat) (as : Bool) (p r e o : Nat) (s : State) : Out := atomic t a as p r e true (atomNew false o) s
def execAtomFadd (t a : Nat) (as : Bool) (p r e : Nat) (s : State) : Out := atomic t a as p r e true (atomNew true 6) s
def execRed (t a : Nat) (as : Bool) (p r e o : Nat) (s : State) : Out := atomic t a as p r e false (atomNew true o) s

end Sys2Proof.Machine
end

