-- ==== Sys2Proof/Machine/Stash.lean ====
section
/-! DEFINITION. Team-local storage (R140, R141), stash windows (R142 to R144, R277), tensor records and boxes
(R146, R147), and PREF (R145). -/

namespace Sys2Proof.Machine

/-! ## LDS, STS, LDX, STX -/

/-- Bytes of a size code (R36). -/
def stashSize : Nat → Nat
  | 0 => 1
  | 1 => 2
  | 2 => 4
  | 3 => 8
  | 4 => 16
  | 5 => 1
  | _ => 2

/-- The words that loaded bytes give: b8, b16 zero-extended, s8, s16 sign-extended (R141). -/
def stashWords (code : Nat) (d : List Byte) : List Word :=
  match code with
  | 5 => [BitVec.ofInt 32 (signedOf 8 (natOf d))]
  | 6 => [BitVec.ofInt 32 (signedOf 16 (natOf d))]
  | _ => natWords (max 1 (d.length / 4)) (natOf d)

/-- The low bytes of registers from n on. -/
def Regs.low (r : Regs) (lane n k : Nat) : List Byte :=
  ((List.range (max 1 (k / 4))).flatMap (fun i => wordBytes4 (r.getV lane (n + i)))).take k

/-- What a lane's stash access reaches: a team and offset, or a cause and its address (R140, R141, R363);
a load of a poisoned word incurs 0x15 (R464). -/
def State.stashSpot (s : State) (g : Group) (far load : Bool) (w : Word) (ofs size : Nat) : (Nat × Nat) ⊕ (Nat × Nat) :=
  let o := if far then bits w.toNat 22 0 + ofs else (w.toNat + ofs) % 2 ^ 32
  if o % size ≠ 0 then .inr (0x04, o)
  else match (if far then (s.stashWord g w).map Prod.fst else some g.team) with
  | some t =>
    let m := SMap.find s.teams t
    if o + size ≤ (m.map (fun m => m.tlsSize)).getD 0 then
      (if load && poisoned ((m.map (fun m => m.poison)).getD []) o size then .inr (0x15, o) else .inl (t, o))
    else .inr (0x07, if far then w.toNat else o)
  | none => .inr (0x07, w.toNat)

/-- A group's stores to a team that are still on the mesh arrive before a later access of it (R287). -/
def State.stashFlush (s : State) (id team : Nat) : State :=
  let mine := fun (o : MeshOp) => match o with
    | .stash g t _ _ => g == id && t == team
    | _ => false
  (s.mesh.filter mine).foldl State.applyMesh { s with mesh := s.mesh.filter (fun o => !mine o) }

/-- One lane's load or store of team-local storage: a store to another core travels the mesh (R287). -/
def State.stashLane (s : State) (id : Nat) (isStore : Bool) (x code lane team o : Nat) : State :=
  match SMap.find s.groups id with
  | none => s
  | some g =>
    let size := stashSize code
    if isStore then
      let op := MeshOp.stash id team o (g.regs.low lane x size)
      if team = g.team then s.applyMesh op else { s with mesh := s.mesh ++ [op] }
    else
      let s := s.stashFlush id team
      match SMap.find s.teams team with
      | some t => s.setGroup id { g with regs := g.regs.writeRun lane x (stashWords code (Memory.read t.tls o size)) }
      | none => s

/-- LDS, STS, LDX, STX (R141): the accesses of the lanes whose lines are present take effect, the others park;
a rank whose team is evicted parks the whole issue set and asks for the team (R245). -/
def stashAccess (far isStore : Bool) (x y z code : Nat) (s : State) : Out :=
  issueWord s (fun c g s =>
    let size := stashSize code
    let l := (c.lanes g).map (fun t => (t, s.stashSpot g far (!isStore) (g.regs.getV t y) (z * size) size))
    let fails := l.filterMap (fun e => match e.2 with
      | .inr (k, a) => some (e.1, k, a)
      | .inl _ => none)
    match firstCause causeOrder fails with
    | some r => .error (.trap r)
    | none =>
      let ok := l.filterMap (fun e => match e.2 with
        | .inl p => some (e.1, p)
        | .inr _ => none)
      match ok.find? (fun e => ((SMap.find s.teams e.2.1).map (fun t => t.life)) == some .saved) with
      | some e =>
        let s := s.wantTeams e.2.1
        .ok (s.modGroup c.gid (fun g => g.park c.map c.pc c.slot (.rank e.2.1) s.clock), 0)
      | none =>
        let s := if isStore then s.commitTasks c.gid c.map else s
        let waits := ok.filter (fun e => s.lineAbsent e.2.1 e.2.2 size)
        let s := (ok.filter (fun e => !s.lineAbsent e.2.1 e.2.2 size)).foldl
          (fun (s : State) e => s.stashLane c.gid isStore x code e.1 e.2.1 e.2.2) s
        let parked := waits.map (fun e => (e.1, Park.line e.2.1 (e.2.2 / 256)))
        .ok (s.parkLanes c parked, c.map &&& ~~~(Lanes.of (parked.map Prod.fst))))
def execLds (x y z n : Nat) (s : State) : Out := stashAccess false false x y z n s
def execSts (x y z n : Nat) (s : State) : Out := stashAccess false true x y z n s
def execLdx (x y z n : Nat) (s : State) : Out := stashAccess true false x y z n s
def execStx (x y z n : Nat) (s : State) : Out := stashAccess true true x y z n s

/-! ## Engine reads and tensor records -/

/-- A group holds a claim on a tile (R166, R170). -/
def Group.holdsClaim (g : Group) (core slot gen : Nat) : Bool :=
  (List.range 16).any (fun h => let c := g.regs.claim h
    c.1 != 0 && hCore c.2 == core && hSlot c.2 == slot && hGen c.2 == gen)

/-- A cache serves the sampler, path X. -/
def Cache.isSampler : Cache → Bool
  | .sampler _ => true
  | _ => false

/-- What a read of path C, T or X made for a group reaches at a generic address (R166, R274, R285): path X, the team's
windows; paths C and T, the Kennel aperture, where a sealed tile, or none, without a claim is cause 0x08 (R316). -/
def State.engineSpot (s : State) (g : Group) (cache : Cache) (va : Nat) (acc : Access) : Spot :=
  if 2 ^ 48 ≤ va then .fail 0x06
  else match (if cache.isSampler then s.windowAt g va else none) with
  | some (t, (n, l)) => s.windowSpot g t n l va 1 (acc == .write) false
  | none =>
    if !cache.isSampler && (s.ctx g.ctx).inAperture va then
      if acc == .write then .fail 0x06
      else match s.apertureTile g.ctx va with
      | some (t, o) =>
        if t.sealed && !g.holdsClaim t.core t.slot (s.kennel.gen t.core t.slot) then .fail 0x08
        else if s.tileAbsent t.core t.slot o 1 then .park (.tileLine t.core t.slot (o / 256))
        else .tile t.core t.slot o
      | none => .fail 0x08
    else match s.translate (g.req cache acc) va with
    | .ok pa _ => .mem pa
    | .absent => .fail 0x05
    | .denied => .fail 0x06
    | .soft => .fail 0x15
    | .stage2 gpa => .page gpa

/-- A read of n bytes at a spot takes cause 0x15 where a word of them is poisoned (R464). -/
def State.sound (s : State) (n : Nat) (p : Spot) : Spot :=
  match p with
  | .mem pa => if poisoned s.mem.poison pa n then .fail 0x15 else p
  | .tile c k o => if ((s.kennel.tileAt c k).map (fun t => poisoned t.poison o n)).getD false then .fail 0x15 else p
  | p => p

/-- A byte of memory as an engine reads it through a cache's path: path T through its read cache, else at the slice, to
which a line in a window sends it too (R274, R277, R285). -/
def State.pathByte (s : State) (cache : Cache) (pa : Nat) : Byte :=
  match cache with
  | .ahead c => s.mem.tensorByte c pa
  | _ => s.mem.sliceByte pa

/-- A byte of memory as a copy of a core reads it: a window line of the core in its stash (R303), else by its path. -/
def State.copyByte (s : State) (core : Nat) (cache : Cache) (pa : Nat) : Byte :=
  if s.lineHere core (pa / 256) then s.mem.coreByte core pa else s.pathByte cache pa

/-- A byte at an engine's spot, and n of them. -/
def State.engineByteAt (s : State) (cache : Cache) : Spot → Byte
  | .mem pa => s.pathByte cache pa
  | .tile c k o => match s.kennel.tileAt c k with
      | some t => Memory.get t.bytes o
      | none => 0
  | _ => 0
def Spot.byte (i : Nat) : Spot → Spot
  | .mem pa => .mem (pa + i)
  | .tile c k o => .tile c k (o + i)
  | p => p
def State.engineBytes (s : State) (cache : Cache) (n : Nat) (p : Spot) : List Byte :=
  (List.range n).map (fun i => s.engineByteAt cache (p.byte i))

/-- What an engine's read of some sectors leaves: their slices hold them, the owners' registrations that it waited for are
acknowledged (R280, R281), and the read cache of path T keeps some (R285; log 142). -/
def State.engineReads (s : State) (cache : Cache) (secs : List Nat) : State :=
  let m := secs.foldl MemSys.sliceRead s.mem
  let m := match cache with
    | .ahead c => (secs.filter (Config.keepsRead s.tick)).foldl (fun (m : MemSys) x => m.keepRead c x) m
    | _ => m
  { s with mem := m }

/-- The sectors of memory that some spots stand in. -/
def spotSectors (l : List Spot) : List Nat := (l.filterMap (fun p => match p with
  | .mem pa => some (pa / 128)
  | _ => none)).dedup

/-- The cache of an engine takes the translations of the pages that some accesses reached; a window serves path X, and the
aperture the other paths, without one (R391). -/
def State.cachePages (s : State) (g : Group) (cache : Cache) (acc : Access) (l : List Nat) : State :=
  let walks := l.filter (fun a => if cache.isSampler then (s.windowAt g a).isNone else !(s.ctx g.ctx).inAperture a)
  ((walks.map (fun a => a / 4096)).dedup).foldl (fun (s : State) p => s.cacheXlat (g.req cache acc) (4096 * p)) s

/-- The same after a word's read at an address, with the translation that it used. -/
def State.afterRead (s : State) (g : Group) (cache : Cache) (va : Nat) : State :=
  (s.cachePages g cache .read [va]).engineReads cache (spotSectors [s.engineSpot g cache va .read])

/-- A word's own read of n bytes within a page, at issue (R133, R392): the bytes, or its stop. -/
def State.issueRead (s : State) (c : Cur) (g : Group) (cache : Cache) (path va n : Nat) : Except Stop (List Byte) :=
  match s.sound n (s.engineSpot g cache va .read) with
  | .fail k => .error (.trap ⟨k, c.map, va⟩)
  | .page gpa => .error (.page path c.map va gpa false)
  | .park w => .error (.park w)
  | p => .ok (s.engineBytes cache n p)

/-- The tensor record of 64 bytes (R146); none where it is refused. -/
def tensorOf (x : Nat) : Option TensorRec :=
  let strides := [signedOf 64 (bits x 287 224), signedOf 64 (bits x 351 288), signedOf 64 (bits x 415 352)]
  let sizes := [bits x 127 96, bits x 159 128, bits x 191 160, bits x 223 192]
  if bits x 511 416 != 0 || bits x 95 68 != 0 || bits x 63 48 != 0 || sizes.any (fun n => n == 0)
      || strides.any (fun d => decide (d < -(2 ^ 47) ∨ 2 ^ 47 ≤ d)) then none
  else some ⟨bits x 47 0, bits x 65 64, bits x 67 66 + 1, sizes, strides⟩

/-- The path-T cache of a group's tensor engine (R388). -/
def Group.aheadCache (g : Group) : Cache := .ahead g.core

/-- A tensor record read through path T at issue: misaligned 0x04, refused 0x13 (R142, R146, R149). -/
def State.tensorAt (s : State) (c : Cur) (g : Group) (va : Nat) : Except Stop TensorRec :=
  if va % 64 ≠ 0 then .error (.trap ⟨0x04, c.map, va⟩)
  else match s.issueRead c g g.aheadCache 2 va 64 with
  | .error e => .error e
  | .ok d => match tensorOf (natOf d) with
    | some t => .ok t
    | none => .error (.trap ⟨0x13, c.map, va⟩)

/-- The box of R147 in registers sX+3 to sX+7: extents and origin. -/
def boxExtents (g : Group) (x : Nat) : List Nat :=
  (List.range 4).map (fun d => bits (g.regs.getS (x + 3)).toNat (8 * d + 7) (8 * d) + 1)
def boxOrigin (g : Group) (x : Nat) : List Int := (List.range 4).map (fun d => (g.regs.getS (x + 4 + d)).toInt)

/-- The box of a record: odd 4-bit extents raise 0x04, dimensions beyond its rank 0x13 (R147). -/
def boxCheck (c : Cur) (t : TensorRec) (va : Nat) (origin : List Int) (extent : List Nat) : Except Stop Unit :=
  let beyond := (List.range 4).any (fun d => decide (t.ndim ≤ d) && (origin.getD d 0 != 0 || extent.getD d 1 != 1))
  let odd := t.esz == 0 && (origin.getD 0 0 % 2 != 0 || extent.getD 0 1 % 2 != 0)
  if odd then .error (.trap ⟨0x04, c.map, va⟩)
  else if beyond then .error (.trap ⟨0x13, c.map, va⟩)
  else .ok ()

/-! ## Windows -/

/-- The lines of a window slot that are present, as physical lines. -/
def Team.present (t : Team) (n : Nat) : List Nat :=
  (t.lines.filter (fun e => e.1 / 65536 == n && e.2.present)).map (fun e => e.2.pa / 256)

/-- Every dirty sector of a window is written back, its lines staying present (R144). -/
def State.flushWindow (s : State) (t : Team) (n : Nat) : State :=
  { s with mem := (t.present n).foldl (fun m l => ((m.backSector t.core (2 * l)).backSector t.core (2 * l + 1)).note l) s.mem }

/-- A window's lines leave the team; their touchers issue again. -/
def State.dropLines (s : State) (team n : Nat) : State :=
  (s.modTeam team (fun t => { t with lines := t.lines.filter (fun e => e.1 / 65536 != n) })).resumeWhere
    (fun w => match w with
      | .window t k _ => t == team && k == n
      | _ => false)

/-- A slot's window is written back and removed (R144). -/
def State.unmapWindow (s : State) (team n : Nat) : State :=
  match SMap.find s.teams team with
  | some t =>
    let s := { s with mem := (t.present n).foldl (fun m l => m.evictLine t.core l) s.mem }
    (s.dropLines team n).modTeam team (fun t => { t with windows := SMap.erase t.windows n })
  | none => s

/-- Two windows share a line of generic memory. -/
def Window.meets (a b : Window) : Bool := (List.range (a.len / 256)).any (fun l => (b.lineOf (a.lineAddr l)).isSome)

/-- Every run of a box starts at a 256-byte boundary of the generic space, and is whole lines long (R142). -/
def boxAligned (t : TensorRec) (origin : List Int) (extent : List Nat) : Bool :=
  let run := boxRun t extent
  run % 256 == 0 && extent.getD 0 1 * t.ebits % 8 == 0
    && (List.range (boxBytes t extent / run)).all (fun r =>
      let a := t.addr (boxCoord t origin extent (r * run))
      decide (0 ≤ a ∧ a < 2 ^ 48 ∧ a % 256 = 0))

/-- The checks that refuse a window with cause 0x07 (R142, R166, R277). -/
def State.windowFits (s : State) (g : Group) (t : Team) (n : Nat) (w : Window) : Bool :=
  w.off + w.len ≤ t.winSize
  && (match w.trec with
    | some r => boxAligned r w.origin w.extent
    | none => true)
  && t.windows.all (fun e => e.1 == n ||
      ((e.2.off + e.2.len ≤ w.off || w.off + w.len ≤ e.2.off) && !w.meets e.2))
  && s.teams.all (fun e => e.1 == g.team || e.2.core != t.core || e.2.life != .resident
      || e.2.windows.all (fun o => !w.meets o.2))
  && (List.range (w.len / 256)).all (fun l => !(s.ctx g.ctx).inAperture (w.lineAddr l))

/-- The window that the block sX describes; or how the word stops (R142). -/
def State.windowBlock (s : State) (c : Cur) (g : Group) (x : Nat) (tensor : Bool) : Except Stop Window :=
  let va := (g.regs.pairS x).toNat
  let off := (g.regs.getS (x + 2)).toNat
  let len := (g.regs.getS (x + 3)).toNat
  if va % (if tensor then 64 else 256) ≠ 0 then .error (.trap ⟨0x04, c.map, va⟩)
  else if off % 256 ≠ 0 then .error (.trap ⟨0x04, c.map, off⟩)
  else if tensor then
    match s.tensorAt c g va with
    | .error e => .error e
    | .ok t =>
      let origin := boxOrigin g x
      let extent := boxExtents g x
      match boxCheck c t va origin extent with
      | .error e => .error e
      | .ok _ => .ok ⟨true, 0, off, boxBytes t extent, some t, origin, extent⟩
  else if len % 256 ≠ 0 then .error (.trap ⟨0x04, c.map, len⟩)
  else .ok ⟨false, va, off, len, none, [], []⟩

/-- STASH.MAP: the slot's previous window is unmapped, and the new one recorded with no line present. -/
def execStashMap (x : Nat) (tensor : Bool) (n : Nat) (s : State) : Out :=
  issueWord s (fun c g s =>
    match s.windowBlock c g x tensor, SMap.find s.teams g.team with
    | .error e, _ => .error e
    | .ok w, some t =>
      if !s.windowFits g t n w then .error (.trap ⟨0x07, c.map, w.off⟩)
      else if 2 ^ 48 ≤ w.gbase then .error (.trap ⟨0x06, c.map, w.gbase⟩)
      else
        let s := if tensor then s.afterRead g g.aheadCache (g.regs.pairS x).toNat else s
        let s := (s.commitTasks c.gid c.map).unmapWindow g.team n
        .ok (s.modTeam g.team (fun t => { t with windows := SMap.put t.windows n w }), c.map)
    | .ok _, none => .ok (s, c.map))
def execStashMapUnmap (n : Nat) (s : State) : Out :=
  issueWord s (fun c g s => .ok ((s.commitTasks c.gid c.map).unmapWindow g.team n, c.map))

/-- STASH.FLUSH and STASH.INV (R144). -/
def execStashFlush (n : Nat) (s : State) : Out :=
  issueWord s (fun c g s =>
    let s := s.commitTasks c.gid c.map
    match SMap.find s.teams g.team with
    | some t => .ok (s.flushWindow t n, c.map)
    | none => .ok (s, c.map))
def execStashInv (n : Nat) (s : State) : Out :=
  issueWord s (fun c g s =>
    let s := s.commitTasks c.gid c.map
    match SMap.find s.teams g.team with
    | some t => .ok ((({ s with mem := (t.present n).foldl (fun m l => m.discardLine t.core l) s.mem }).dropLines g.team n), c.map)
    | none => .ok (s, c.map))

/-! ## PREF -/

/-- A line is brought into a level (R145): 0 the L1, for which a miss of each sector is sent, 1 its L2 slice, 2 its SLC
slice. A core's L1 takes no line of its windows (R277). -/
def State.prefetch (s : State) (core l pa : Nat) : State :=
  let line := pa / 256
  let m := s.mem
  match l with
  | 0 =>
    if s.lineHere core line then s
    else
      let new := [(core, 2 * line), (core, 2 * line + 1)].filter (fun e => !m.misses.contains e)
      { s with mem := { m with misses := m.misses ++ new } }
  | 1 => { s with mem := (m.l2Fill (2 * line)).l2Fill (2 * line + 1) }
  | _ => { s with mem := (m.slcRead (2 * line)).slcRead (2 * line + 1) }

/-- PREF (R145): a window's absent line starts to fill; an address that faults does nothing. -/
def execPref (x l : Nat) (s : State) : Out :=
  issueWord s (fun c g s =>
    .ok ((s.reach g .read false 4 (fun t => (g.regs.pairV t x).toNat / 256 * 256) (c.lanes g)).foldl (fun (s : State) e =>
      match e.2.2 with
      | .mem pa => (s.noteXlat g e.2.1 .read).prefetch g.core l pa
      | .park w => s.startFill w
      | _ => s) s, c.map))

end Sys2Proof.Machine
end

