-- ==== Sys2Proof/Machine/Copy.lean ====
section
/-! DEFINITION. LCOPY and TCOPY (R148, R149), the chunks of copies in flight and their completion objects
(R150 to R152, R157, R166, R172), and the completion of phases of a barrier (R155, R156). -/

namespace Sys2Proof.Machine

/-! ## The geometry of a copy -/

/-- The chunks of a copy: 256 bytes of a run, or of one dim0 run of a box (R150; log 19). -/
def Shape.chunk : Shape → Nat → Nat × Nat
  | .run _ len, k => (256 * k, min 256 (len - 256 * k))
  | .tile _ _ _ _ len, k => (256 * k, min 256 (len - 256 * k))
  | .box t _ extent, k =>
    let run := boxRun t extent
    let per := (run + 255) / 256
    (k / per * run + 256 * (k % per), min 256 (run - 256 * (k % per)))
def Shape.bytes : Shape → Nat
  | .run _ len => len
  | .tile _ _ _ _ len => len
  | .box t _ extent => boxBytes t extent
def Shape.chunks : Shape → List Nat
  | .box t _ extent =>
    let run := boxRun t extent
    List.range (boxBytes t extent / run * ((run + 255) / 256))
  | sh => List.range ((sh.bytes + 255) / 256)

/-- The memory address of a dense byte and the bits of it that lie inside the record (R147). -/
def Shape.place (sh : Shape) (b : Nat) : Nat × Byte :=
  match sh with
  | .run va _ => (va + b, 0xFF)
  | .tile _ _ _ _ _ => (0, 0)
  | .box t origin extent =>
    let i := boxCoord t origin extent b
    let a := t.addr i + (b % boxRun t extent * 8 % t.ebits / 8 : Nat)
    let hi := if t.esz = 0 then t.inside ((i.headD 0 + 1) :: i.tail) else t.inside i
    ((a % 2 ^ 64).toNat, (if t.inside i then 0x0F else 0) ||| (if hi then 0xF0 else 0))

/-- The bytes of a chunk inside the record: dense offset, address and bits. -/
def Copy.places (c : Copy) (k : Nat) : List (Nat × Nat × Byte) :=
  let (o, n) := c.shape.chunk k
  ((List.range n).map (fun i => (o + i, c.shape.place (o + i)))).filter (fun e => e.2.2 != 0)

/-- The cache that serves a copy (R388), and its path in a page request (R393). -/
def Copy.cache (c : Copy) (g : Group) : Cache := if c.pathT then g.aheadCache else .core c.core
def Copy.path (c : Copy) : Nat := if c.pathT then 2 else 1

/-- What each 256-byte block of some addresses reaches. -/
def State.blockSpots (s : State) (g : Group) (cache : Cache) (acc : Access) (addrs : List Nat) : List (Nat × Spot) :=
  ((addrs.map (fun a => a / 256)).dedup).map (fun b => (b, s.engineSpot g cache (256 * b) acc))
def spotOf (m : List (Nat × Spot)) (a : Nat) : Spot :=
  match m.find? (fun e => e.1 == a / 256) with
  | some (_, .mem pa) => .mem (pa + a % 256)
  | some (_, .tile c k o) => .tile c k (o + a % 256)
  | some (_, p) => p
  | none => .fail 0x06

/-- The same for a read of one byte, which a poisoned word fails (R464). -/
def State.readSpot (s : State) (m : List (Nat × Spot)) (a : Nat) : Spot := s.sound 1 (spotOf m a)

/-! ## Ends of copies -/

/-- A copy leaves the flight: lines with no copy pending are present again, and their waiters issue (R150, R152); the
claims that a TREAD.stash consumed count down (R172); its group's context may go (R80). -/
def State.dropCopy (s : State) (id : Nat) (c : Copy) : State :=
  let s := { s with copies := SMap.erase s.copies id }
  let s := match c.shape with
    | .tile core slot gen _ _ =>
      if c.holds = 0 then s else s.tileOp c.core core slot (.countDown c.group core slot gen c.holds 0)
    | _ => s
  let s := match c.near with
    | .tls team _ => s.resumeWhere (fun w => match w with
        | .line t l => t == team && !s.lineAbsent t (256 * l) 256
        | _ => false)
    | .tile core slot _ _ => s.resumeWhere (fun w => match w with
        | .tile c k => c == core && k == slot
        | .tileLine c k l => c == core && k == slot && !s.tileAbsent c k (256 * l) 256
        | _ => false)
  s.freeContext c.group

/-- Cause 0x13 of a copy pends for its group with its faulting address, behind those that pend already (R152, R375). That of
a group whose team is saved waits until something else has the team restored (log 169). -/
def State.pendCopy (s : State) (group addr : Nat) : State :=
  s.modGroup group (fun g => { g with trap := { g.trap with pendCopy := g.trap.pendCopy ++ [addr] } })

/-- A copy ends early: its group receives cause 0x13 (R152). -/
def State.failCopy (s : State) (id : Nat) (c : Copy) (addr : Nat) : State := (s.dropCopy id c).pendCopy c.group addr

/-- What a counter's address reaches for an add (R150, R152, R166). -/
def State.counterSpot (s : State) (g : Group) (va : Nat) : Spot :=
  if 2 ^ 48 ≤ va || (s.ctx g.ctx).inAperture va then .fail 0x06
  else match s.translate (g.req (.core g.core) .write) va with
  | .ok pa _ => .mem pa
  | .absent => .fail 0x05
  | .denied => .fail 0x06
  | .soft => .fail 0x15
  | .stage2 gpa => .page gpa

/-- A chunk is counted: its completion object is updated, and the last one ends the copy (R150, R157). -/
def State.countChunk (s : State) (id : Nat) (c : Copy) (k : Nat) (counter : Spot) : State :=
  let n := (c.shape.chunk k).2
  let s := match c.compl, counter with
    | .ctr va, .mem pa => ({ s with mem := s.mem.addSys pa n }).cacheXlat ⟨.core c.core, c.ctx, c.super, .write⟩ va
    | .ctr _, _ => s
    | .pb team off, _ =>
      match SMap.find s.teams team with
      | some t =>
        if t.life = Life.ended then s.pendCopy c.group off
        else (s.setPb team off 3 (t.pb off 3 - BitVec.ofNat 32 n)).pbTest team off
      | none => s.pendCopy c.group off
  let c := { c with left := c.left.erase k }
  if c.left.isEmpty then s.dropCopy id c else { s with copies := SMap.put s.copies id c }

/-! ## A chunk -/

/-- The source tile of a TREAD.stash or TPEEK.stash chunk may be read (R166, R172): the tile is the one that the word
named, and it is filling, the claims that the word released hold it, or the group holds one. -/
def State.tileReads (s : State) (g : Group) (c : Copy) (core slot gen : Nat) : Bool :=
  match s.kennel.tileAt core slot with
  | some t => s.kennel.gen core slot == gen && t.ctx == c.ctx && (!t.sealed || c.holds != 0 || g.holdsClaim core slot gen)
  | none => false

/-- What the read of a chunk from a tile reaches: its first byte's place, or its first failing byte and how it fails. -/
def State.tileSource (s : State) (g : Group) (c : Copy) (k : Nat) : Option (Nat × Spot) :=
  match c.shape with
  | .tile core slot gen off _ =>
    let (o, n) := c.shape.chunk k
    let va := (s.ctx c.ctx).kab + core * 2 ^ 23 + slot * 256 + off + o
    some (match (List.range n).find? (fun i => s.sound 1 (.tile core slot (off + o + i)) == .fail 0x15) with
    | some i => (va + i, .fail 0x15)
    | none => (va, if !s.tileReads g c core slot gen then .fail 0x08
      else if s.tileAbsent core slot (off + o) n then .park (.tileLine core slot ((off + o) / 256))
      else .tile core slot (off + o)))
  | _ => none

/-- A byte at a spot that a copy of a core reads. -/
def State.copyByteAt (s : State) (core : Nat) (cache : Cache) : Spot → Byte
  | .mem pa => s.copyByte core cache pa
  | p => s.engineByteAt cache p

/-- The bytes that a chunk brings into the stash, at their dense offsets (R147). -/
def State.chunkIn (s : State) (g : Group) (c : Copy) (k : Nat) (m : List (Nat × Spot)) : List (Nat × Byte) :=
  let (o, n) := c.shape.chunk k
  match s.tileSource g c k with
  | some (_, p) => (List.range n).map (fun i => (o + i, s.engineByteAt (c.cache g) (p.byte i)))
  | none => (List.range n).map (fun i =>
      let p := c.shape.place (o + i)
      (o + i, if p.2 = 0 then 0 else s.copyByteAt c.core (c.cache g) (spotOf m p.1) &&& p.2))

/-- Bytes written on the stash side, but for those that a higher lane of the same LCOPY writes (R148): into storage, where
a barrier in use takes them (R155); into a tile while it is filling (R323). -/
def State.nearWrite (s : State) (c : Copy) (l : List (Nat × Byte)) : State :=
  let seen := l.filter (fun e => match c.near with
    | .tls _ off => c.covered.all (fun r => !(decide (r.1 ≤ off + e.1) && decide (off + e.1 < r.1 + r.2)))
    | .tile _ _ _ _ => true)
  match c.near with
  | .tls team off =>
    seen.foldl (fun (s : State) e => s.pbStored team (off + e.1) 1)
      (s.modTeam team (fun t => seen.foldl (fun t e => t.write (off + e.1) [e.2]) t))
  | .tile core slot gen off =>
    match s.kennel.tileAt core slot with
    | some t =>
      if t.sealed || s.kennel.gen core slot != gen then s
      else { s with kennel := s.kennel.setTile (seen.foldl (fun t e => t.write (off + e.1) [e.2]) t) }
    | none => s

/-- Bytes written to memory at the point of coherence for scope sys (R150, R285). -/
def State.farWrite (s : State) (c : Copy) (m : List (Nat × Spot)) (l : List (Nat × Nat × Byte)) : State :=
  let hidden := fun a => c.covered.any (fun r => r.1 ≤ a && a < r.1 + r.2)
  let near := fun o => match c.near with
    | .tls team off => ((SMap.find s.teams team).map (fun t => Memory.get t.tls (off + o))).getD 0
    | .tile _ _ _ _ => 0
  let seen := l.filterMap (fun e => match spotOf m e.2.1 with
    | .mem pa => if hidden e.2.1 then none else some (pa, e.1, e.2.2)
    | _ => none)
  let s := seen.foldl (fun (s : State) e =>
    let b := (near e.2.1 &&& e.2.2) ||| (s.mem.sliceByte e.1 &&& ~~~e.2.2)
    { s with mem := s.mem.engineByte e.1 b }) s
  { s with mem := s.mem.pushSectors ((seen.map (fun e => e.1 / 128)).dedup) }

/-- What the source of a copy out of the stash gives it: its lines are absent for now (R150), or a word of them is
poisoned (R464): the generic address to which the first such byte of a chunk goes (R152; log 170). -/
def State.sourceAbsent (s : State) (c : Copy) (k : Nat) : Bool :=
  match c.out, c.near with
  | true, .tls team off => s.lineAbsent team (off + (c.shape.chunk k).1) (c.shape.chunk k).2
  | _, _ => false
def State.sourceBad (s : State) (c : Copy) (k : Nat) : Option Nat :=
  match c.out, c.near with
  | true, .tls team off =>
    (SMap.find s.teams team).bind (fun t => ((c.places k).find? (fun e => poisoned t.poison (off + e.1) 1)).map (fun e => e.2.1))
  | _, _ => none

/-- The page request that a failing access posts, by address: stage 1 not present, or stage 2 (R392). -/
def Spot.posts (p : Spot) (va : Nat) : Option (Bool × Nat) :=
  match p with
  | .fail 0x05 => some (false, va)
  | .page gpa => some (true, gpa)
  | _ => none

/-- A copy waits for the page of an access. -/
def State.copyWaits (s : State) (id : Nat) (c : Copy) (engine : Cache) (path : Nat) (wr : Bool) (q : Bool × Nat) : State :=
  let (s, r) := s.postPage engine c.ctx path q.1 wr q.2
  { s with copies := SMap.put s.copies id { c with waits := some r } }

/-- The first byte of a chunk whose access fails, and how: on the memory side, or in the tile or storage that it reads. -/
def State.chunkBad (s : State) (g : Group) (c : Copy) (k : Nat) (m : List (Nat × Spot)) : Option (Nat × Spot) :=
  let stops := fun (p : Spot) => match p with
    | .fail _ => true
    | .page _ => true
    | .park _ => true
    | _ => false
  match s.tileSource g c k with
  | some e => if stops e.2 then some e else none
  | none =>
    match ((c.places k).map (fun e => (e.2.1, if c.out then spotOf m e.2.1 else s.readSpot m e.2.1))).find? (fun e => stops e.2) with
    | some e => some e
    | none => (s.sourceBad c k).map (fun a => (a, .fail 0x15))

/-- Chunk k of a copy is written and counted (R150), or it waits for a page or for a line of a tile, or it ends the copy
(R152). A chunk whose counter's page is absent waits before it is written. A recovery has cancelled the copies that it
finds (R467). -/
def State.copyChunk (s : State) (id k : Nat) : State :=
  match SMap.find s.copies id with
  | none => s
  | some c =>
    match SMap.find s.groups c.group with
    | none => s
    | some g =>
      let s := s.forGrid g.grid
      let g := { g with core := c.core, trap := { g.trap with mode := c.super } }
      let cache := c.cache g
      let acc := if c.out then Access.write else .read
      let ps := c.places k
      let m := s.blockSpots g cache acc (ps.map (fun e => e.2.1))
      let counter := match c.compl with
        | .ctr va => s.counterSpot g va
        | .pb _ _ => .mem 0
      let cva := match c.compl with
        | .ctr va => va
        | .pb _ off => off
      if !c.left.contains k || c.paused || s.frozen || c.waits.isSome || s.sourceAbsent c k then s
      else match s.chunkBad g c k m with
      | some (_, .park _) => s
      | some (a, p) =>
        match p.posts a with
        | some q => s.copyWaits id c cache c.path c.out q
        | none => s.failCopy id c a
      | none =>
        match counter.posts cva with
        | some q => s.copyWaits id c (.core c.core) 1 true q
        | none =>
          let t := if c.out then s.farWrite c m ps
            else (s.engineReads cache ((spotSectors (ps.map (fun e => spotOf m e.2.1))).filter
              (fun x => !s.lineHere c.core (x / 2)))).nearWrite c (s.chunkIn g c k m)
          let t := (m.map Prod.fst).foldl (fun (t : State) b => t.cacheXlat (g.req cache acc) (256 * b)) t
          match counter with
          | .mem _ => t.countChunk id c k counter
          | _ => t.failCopy id c cva

/-! ## The words -/

/-- The barrier of a stash address word: its team and offset, or the cause and address (R148, R156). -/
def State.barrierSpot (s : State) (g : Group) (w : Word) : (Nat × Nat) ⊕ (Nat × Nat) :=
  if bits w.toNat 22 0 % 16 ≠ 0 then .inr (0x04, w.toNat)
  else match s.stashWord g w with
  | some (t, o) =>
    if o + 16 ≤ ((SMap.find s.teams t).map (fun m => m.tlsSize)).getD 0 then .inl (t, o) else .inr (0x07, w.toNat)
  | none => .inr (0x07, w.toNat)

/-- The completion object that a word names, and the causes its address incurs at issue (R148). -/
def State.completionAt (s : State) (g : Group) (pb : Bool) (y : Nat) : Completion × List (Nat × Nat) :=
  if pb then
    match s.barrierSpot g (g.regs.getS y) with
    | .inl (t, o) => (.pb t o, [])
    | .inr e => (.pb 0 0, [e])
  else
    let va := (g.regs.pairS y).toNat
    (.ctr va, if va % 8 ≠ 0 then [(0x04, va)] else [])

/-- A copy that issues now (R150): it stands in the flight, and its destination lines are absent. -/
def State.startCopy (s : State) (c : Copy) : State := { s with copies := SMap.put s.copies (SMap.fresh s.copies) c }
def newCopy (c : Cur) (g : Group) (pathT out : Bool) (sh : Shape) (near : Near) (compl : Completion)
    (covered : List (Nat × Nat)) (holds : Nat) : Copy :=
  ⟨c.gid, g.team, g.ctx, g.core, g.trap.mode, pathT, out, sh, near, compl, sh.bytes, sh.chunks, covered, holds, none, false⟩

/-- LCOPY (R148): each thread's block; bit i of the word is its direction, out when set. R148's checks at issue are made
of a thread's address and counter, and the faulting address of its stash range is the whole of vY, [31:0] (log 171); one with [63:48] set, which R132 refuses in a lane's access, is translated only as the
copy runs, and ends it with cause 0x13 (log 154). -/
def execLcopy (x y z : Nat) (out pb : Bool) (s : State) : Out :=
  issueWord s (fun c g s =>
    let size := fun t => 16 * bits (g.regs.getV t y).toNat 31 24
    let va := fun t => (g.regs.pairV t x).toNat
    let off := fun t => bits (g.regs.getV t y).toNat 22 0
    let l := (c.lanes g).filter (fun t => size t != 0)
    let tls := ((SMap.find s.teams g.team).map (fun t => t.tlsSize)).getD 0
    let (compl, cf) := s.completionAt g pb (2 * z)
    let fails := l.flatMap (fun t =>
      (if va t % 16 ≠ 0 then [(t, 0x04, va t)] else if off t % 16 ≠ 0 then [(t, 0x04, off t)] else [])
      ++ (if flagBit (g.regs.getV t y).toNat 23 || tls < off t + size t then [(t, 0x07, (g.regs.getV t y).toNat)] else [])
      ++ cf.map (fun e => (t, e.1, e.2)))
    match firstCause causeOrder fails with
    | some r => .error (.trap r)
    | none =>
      let s := s.commitTasks c.gid c.map
      let dest := fun t => ((if out then va t else off t), size t)
      .ok (l.foldl (fun (s : State) t =>
        s.startCopy (newCopy c g false out (.run (va t) (size t)) (.tls g.team (off t)) compl
          ((l.filter (fun u => t < u)).map dest) 0)) s, c.map))

/-- A handle is current for a group: its tile, and whether its core lies in the cluster (R165). -/
def State.inCluster (s : State) (g : Group) (core : Nat) : Bool :=
  match SMap.find s.teams g.team with
  | some t => t.kset.contains core
  | none => false
def State.currentTile (s : State) (g : Group) (h : DWord) : Option Tile :=
  if !hValid h then none
  else match s.kennel.tileAt (hCore h) (hSlot h) with
  | some t => if s.kennel.gen (hCore h) (hSlot h) = hGen h && t.ctx == g.ctx && s.inCluster g (hCore h) then some t else none
  | none => none

/-- TCOPY (R149): one box between a tensor and the stash or, inward, a filling tile of this core. -/
def execTcopy (x y h : Nat) (toTile out pb : Bool) (s : State) : Out :=
  issueWord s (fun c g s =>
    let va := (g.regs.pairS x).toNat
    let dst := (g.regs.getS (x + 2)).toNat
    let (compl, cf) := s.completionAt g pb y
    let handle := g.regs.getH h
    let tile := s.currentTile g handle
    let tls := ((SMap.find s.teams g.team).map (fun t => t.tlsSize)).getD 0
    let trap := fun (k a : Nat) => Except.error (Stop.trap ⟨k, c.map, a⟩)
    if toTile && tile.isNone then trap 0x09 handle.toNat
    else if va % 64 ≠ 0 then trap 0x04 va
    else if dst % 16 ≠ 0 then trap 0x04 dst
    else match cf.find? (fun e => e.1 == 0x04) with
    | some e => trap 0x04 e.2
    | none =>
    match s.tensorAt c g va, cf with
    | .error (.trap r), e :: _ => if r.cause = 0x13 ∨ r.cause = 0x15 then .error (.trap r) else trap e.1 e.2
    | .error _, e :: _ => trap e.1 e.2
    | .error e, [] => .error e
    | .ok t, _ =>
      let origin := boxOrigin g x
      let extent := boxExtents g x
      let n := boxBytes t extent
      let room := match toTile, tile with
        | true, some k => 256 * k.units
        | _, _ => tls
      match boxCheck c t va origin extent with
      | .error e => .error e
      | .ok _ =>
        if room < dst + n then trap 0x07 dst
        else match cf with
        | e :: _ => trap e.1 e.2
        | [] =>
          let go := fun (out : Bool) (near : Near) =>
            Except.ok (((s.afterRead g g.aheadCache va).commitTasks c.gid c.map).startCopy
              (newCopy c g true out (.box t origin extent) near compl [] 0), c.map)
          match toTile, tile with
          | true, some k =>
            if k.sealed || k.core != ((SMap.find s.teams g.team).map (fun m => m.home)).getD g.core then
              trap 0x06 ((s.ctx g.ctx).kab + k.core * 2 ^ 23 + k.slot * 256 + dst)
            else go false (.tile k.core k.slot (s.kennel.gen k.core k.slot) dst)
          | _, _ => go out (.tls g.team dst))

/-- COPY_CHUNK_COUNTED (R150). -/
def execCopyChunkCounted (c k : Nat) (s : State) : Out := .next (s.copyChunk c k)

/-- COPY_ERROR_DELIVERY (R152): cause 0x13 at the group's instruction boundary. -/
def execCopyErrorDelivery (id : Nat) (s : State) : Out :=
  match SMap.find s.groups id with
  | some g =>
    match g.trap.pendCopy with
    | a :: rest =>
      if g.async = some 3 ∧ g.life = .resident then
        .next ((s.modGroup id (fun g => { g with trap := { g.trap with pendCopy := rest } })).deliverAsync id 0x13 a)
      else .next s
    | [] => .next s
  | none => .next s

end Sys2Proof.Machine
end

