-- ==== Sys2Proof/Machine/Sync.lean ====
section
/-! DEFINITION. Counters (R153, R154), phase barriers (R155 to R158), waits on words and WAKE (R159 to R162,
R450), and fences (R163, R302, R306). -/

namespace Sys2Proof.Machine

/-- A word that acts once per issue on a generic address in sX: it stops on a cause or a wait (R133, R166). -/
def State.oncePa (s : State) (c : Cur) (g : Group) (va size : Nat) (acc : Access) : Except Stop Nat :=
  match s.spot g va size acc true with
  | .mem pa => .ok pa
  | .park w => .error (.park w)
  | .page gpa => .error (.page 0 c.map va gpa (acc == .write))
  | .fail k => .error (.trap ⟨k, c.map, va⟩)
  | .tile _ _ _ => .error (.trap ⟨0x06, c.map, va⟩)

/-- A word as a waiter of core c reads it: the core's own store, else the value that the slice answers, once an owner's
registration in flight has been acknowledged (R281, R295). -/
def MemSys.waitWord (m : MemSys) (c w : Nat) : Word :=
  match SMap.find m.l1 (l1Key c w) with
  | some e => if e.owned then e.val else m.readWord w
  | none => m.readWord w

/-- The 64-bit counter at a physical address as a waiter reads it. -/
def MemSys.counter (m : MemSys) (c pa : Nat) : DWord := joinPair (m.waitWord c (pa / 4)) (m.waitWord c (pa / 4 + 1))

/-- What a waiter's read of k words leaves: the registrations that it waited for are acknowledged, and its core keeps no
copy that is older than what it read (R281, R294). -/
def State.waitRead (s : State) (c w k : Nat) : State :=
  { s with mem := (List.range k).foldl (fun m i => m.refresh c (w + i)) (s.mem.settleRun w k) }

/-! ## Counters -/

/-- CTR.ADD (R153): a release, then one add at the SLC, a notifying write. -/
def execCtrAdd (x y e : Nat) (s : State) : Out :=
  issueWord s (releasing e (fun c g s =>
    let va := (g.regs.pairS x).toNat
    match s.oncePa c g va 8 .write with
    | .error k => .error k
    | .ok pa =>
      let s := ((s.commitTasks c.gid c.map).releaseBy c.gid e).noteXlat g va .write
      .ok ({ s with mem := s.mem.addSysOf g.core pa (g.regs.getS y).toNat }, c.map)))

/-- The issue set's own render-target words to n bytes of memory come before its access of them (R294). -/
def State.ownAt (s : State) (c : Cur) (g : Group) (pa n : Nat) : State :=
  s.ownTargets c.gid n ((c.lanes g).map (fun t => (t, .mem pa)))

/-- The issue set goes on to the next packet with an acquire at a scope. -/
def State.passWait (s : State) (c : Cur) (scope : Nat) : State :=
  (s.acquireBy c.gid scope).enterAt c.gid c.map (c.pc + 12)

/-- CTR.WAIT (R154). -/
def execCtrWait (x y e : Nat) (s : State) : Out :=
  issueWord s (fun c g s =>
    let va := (g.regs.pairS x).toNat
    let target := g.regs.pairS y
    match s.oncePa c g va 8 .read with
    | .error k => .error k
    | .ok pa =>
      let s := ((s.ownAt c g pa 8).noteXlat g va .read).waitRead g.core (pa / 4) 2
      if target ≤ s.mem.counter g.core pa then .ok (s.passWait c e, 0)
      else .ok (s.modGroup c.gid (fun g => g.park c.map c.pc c.slot (.ctrWait pa target e) s.clock), 0))

/-! ## Phase barriers -/

/-- The barrier that a scalar register names: its team and offset; or the cause (R156). -/
def State.barrierAt (s : State) (c : Cur) (g : Group) (y : Nat) : Except Stop (Nat × Nat × Team) :=
  match s.barrierSpot g (g.regs.getS y) with
  | .inr (k, a) => .error (.trap ⟨k, c.map, a⟩)
  | .inl (t, o) => match SMap.find s.teams t with
      | some m => .ok (t, o, m)
      | none => .error (.trap ⟨0x07, c.map, (g.regs.getS y).toNat⟩)

/-- The barrier's team once the group's own earlier stores to it have been performed there (R287), and its phase tested
(R156). -/
def State.barrierNow (s : State) (c : Cur) (t o : Nat) : State := (s.stashFlush c.gid t).pbTest t o

/-- Cause 0x0C, with the barrier's stash address word (R363). -/
def misuse (c : Cur) (g : Group) (y : Nat) : Stop := .trap ⟨0x0C, c.map, (g.regs.getS y).toNat⟩

/-- A copy naming the barrier is pending. -/
def State.pbPending (s : State) (team off : Nat) : Bool := s.copies.any (fun e => e.2.compl == .pb team off)

/-- PB.INIT (R156). -/
def execPbInit (x y : Nat) (s : State) : Out :=
  issueWord s (fun c g s =>
    match s.barrierAt c g y with
    | .error k => .error k
    | .ok (t, o, _) =>
      let waits := s.waiters (fun _ w => match w with
        | .pbWait u p _ _ => u == t && p == o
        | _ => false)
      if !waits.isEmpty || s.pbPending t o || g.regs.getS x = 0 then .error (misuse c g y)
      else
        let s := (s.commitTasks c.gid c.map).stashFlush c.gid t
        .ok ((((s.setPb t o 3 0).setPb t o 2 (g.regs.getS x)).setPb t o 1 0).setPb t o 0 0, c.map))

/-- PB.ARRIVE (R156): a release at scope clu, the token, the arrivals, the completion test. -/
def arrive (x y : Nat) (count : Cur → Nat) (s : State) : Out :=
  issueWord s (releasing 2 (fun c g s =>
    match s.barrierAt c g y with
    | .error k => .error k
    | .ok (t, o, _) =>
      let u := (((s.commitTasks c.gid c.map).releaseBy c.gid 2).pbTest t o)
      match SMap.find u.teams t with
      | none => .error (misuse c g y)
      | some m =>
        let n := count c
        if m.pb o 2 = 0 ∨ (m.pb o 2).toNat < (m.pb o 1).toNat + n then .error (misuse c g y)
        else
          let s := u.modGroup c.gid (fun g => { g with regs := g.regs.setS x (m.pb o 0) })
          .ok ((s.setPb t o 1 (m.pb o 1 + BitVec.ofNat 32 n)).pbTest t o, c.map)))
def execPbArrive (x y : Nat) (s : State) : Out := arrive x y (fun c => c.map.count) s
def execPbArriveN (x y n : Nat) (s : State) : Out := arrive x y (fun _ => n + 1) s

/-- PB.EXPECT (R156, R158): after the completion test; the new balance is tested in its turn. -/
def execPbExpect (x y : Nat) (s : State) : Out :=
  issueWord s (fun c g s =>
    match s.barrierAt c g y with
    | .error k => .error k
    | .ok (t, o, _) =>
      let s := (s.commitTasks c.gid c.map).barrierNow c t o
      match SMap.find s.teams t with
      | none => .error (misuse c g y)
      | some m =>
        if m.pb o 2 = 0 then .error (misuse c g y)
        else .ok ((s.setPb t o 3 (m.pb o 3 + g.regs.getS x)).pbTest t o, c.map))

/-- The issue set's predicate is set, and it goes on to the next packet. -/
def State.pbPass (s : State) (c : Cur) (d : Nat) (ok : Bool) : State :=
  let s := s.modGroup c.gid (fun g => { g with regs := g.regs.setP d c.map (if ok then BitVec.allOnes 64 else 0) })
  if ok then s.passWait c 2 else s.enterAt c.gid c.map (c.pc + 12)

/-- PB.WAIT (R156). -/
def execPbWait (x y d : Nat) (s : State) : Out :=
  issueWord s (fun c g s =>
    match s.barrierAt c g y with
    | .error k => .error k
    | .ok (t, o, _) =>
      let s := s.barrierNow c t o
      match SMap.find s.teams t with
      | none => .error (misuse c g y)
      | some m =>
        if m.pb o 2 = 0 then .ok (s.pbPass c d false, 0)
        else if m.pb o 0 ≠ g.regs.getS x then .ok (s.pbPass c d true, 0)
        else .ok (s.modGroup c.gid (fun h =>
          h.park c.map c.pc c.slot (.pbWait t o (g.regs.getS x) d) s.clock), 0))

/-- PB.INVAL (R156): every waiter is released with false. -/
def execPbInval (y : Nat) (s : State) : Out :=
  issueWord s (fun c g s =>
    match s.barrierAt c g y with
    | .error k => .error k
    | .ok (t, o, _) =>
      if s.pbPending t o then .error (misuse c g y)
      else .ok ((((s.commitTasks c.gid c.map).barrierNow c t o).setPb t o 2 0).pbWake t o false (fun _ => true), c.map))

/-! ## Waits on words -/

/-- The condition of WAITCMP and of host waits, by code (R159, R448). -/
def waitCond (cond : Nat) (w v : Nat) : Bool :=
  match cond with
  | 0 => w == v
  | 1 => w != v
  | 2 => v ≤ w
  | _ => decide (w < v)

/-- The wake-table entries in use at a slice of the SLC (R279, R450). -/
def State.wakeUsed (s : State) (slice : Nat) : Nat :=
  (s.waiters (fun _ w => match w with
    | .waitcmp pa _ _ _ polls => !polls && slcSlice pa == slice
    | _ => false)).length + (s.host.waits.filter (fun w => slcSlice w.pa == slice)).length

/-- WAITCMP (R159): an entry of the wake table, or a poll when its slice has none (R162). -/
def execWaitcmp (x y e cond : Nat) (s : State) : Out :=
  issueWord s (fun c g s =>
    let va := (g.regs.pairS x).toNat
    let v := g.regs.getS y
    match s.oncePa c g va 4 .read with
    | .error k => .error k
    | .ok pa =>
      let s := ((s.ownAt c g pa 4).noteXlat g va .read).waitRead g.core (pa / 4) 1
      if waitCond cond (s.mem.waitWord g.core (pa / 4)).toNat v.toNat then .ok (s.passWait c e, 0)
      else
        let polls := decide (2048 ≤ s.wakeUsed (slcSlice pa))
        .ok (s.modGroup c.gid (fun g => g.park c.map c.pc c.slot (.waitcmp pa v cond e polls) s.clock), 0))

/-- WAKE (R161): a release, the line's dirty sectors written back, its waiters evaluated. -/
def execWake (x e : Nat) (s : State) : Out :=
  issueWord s (releasing e (fun c g s =>
    let va := (g.regs.pairS x).toNat
    match s.oncePa c g va 1 .read with
    | .error k => .error k
    | .ok pa =>
      let line := pa / 256
      let s := ((s.commitTasks c.gid c.map).releaseBy c.gid e).noteXlat g va .read
      let m := (s.mem.backSector g.core (2 * line)).backSector g.core (2 * line + 1)
      let m := if e = 4 then m.pushSectors [2 * line, 2 * line + 1] else m
      .ok ({ s with mem := m.note line }, c.map)))

/-! ## Fences -/

/-- FENCE (R163): ORD 1 acquire, 2 release, 3 both, the release first (R298). -/
def execFence (e r : Nat) (s : State) : Out :=
  issueWord s (releasing (if r = 2 ∨ r = 3 then e else 0) (fun c _ s =>
    let s := if r = 2 ∨ r = 3 then s.releaseBy c.gid e else s
    .ok (if r = 1 ∨ r = 3 then s.acquireBy c.gid e else s, c.map)))

/-- The cores of a scope around a group (R291). -/
def State.scopeHas (s : State) (g : Group) (scope core : Nat) : Bool :=
  if 2 < scope then true
  else if scope = 2 then s.inCluster g core || core == g.core
  else core == g.core

/-- XFENCE (R163, R302): with path L named, its release and acquire act at scope dev at least; X discards the
decoded texels in the scope (R211); T gives up the read caches of its tensor engines (R285); W acts as a TFENCE. -/
def execXfence (e m : Nat) (s : State) : Out :=
  issueWord s (releasing 3 (fun c g s =>
    let scope := if e = 4 then 4 else 3
    let s := if m % 2 = 1 || flagBit m 4 then s.releaseBy c.gid scope else s
    let s := if m % 2 = 1 then s.acquireBy c.gid scope else s
    let s := if flagBit m 2 then { s with mem := s.mem.dropReads (s.scopeHas g e) } else s
    let s := if flagBit m 3 then { s with texels := s.texels.filter (fun t => !s.scopeHas g e t.core) } else s
    .ok (s, c.map)))

/-- TFENCE (R163, R306). -/
def execTfence (e : Nat) (s : State) : Out :=
  issueWord s (releasing 3 (fun c _ s => .ok (s.releaseBy c.gid (if e = 4 then 4 else 3), c.map)))

end Sys2Proof.Machine
end

