-- ==== Sys2Proof/Machine/Kennel.lean ====
section
/-! DEFINITION. The tile words (R165 to R178), the grant queues of the Kennel and the Mire (R317 to R322, R335),
the detector (R331, R332), auto-seal (R324), and the arrival of words over the mesh (R287, R327). -/

namespace Sys2Proof.Machine

/-- The core whose Kennel slice a group's words act on (R256). -/
def State.homeCore (s : State) (g : Group) : Nat := ((SMap.find s.teams g.team).map (fun t => t.home)).getD g.core

/-! ## Grant queues -/

/-- The queue of requests that a grid makes in a partition of a core: its share's, or the common space's (R321). -/
inductive KQueue where
  | share (grid : Nat) (core : Nat)
  | common (ctx : Nat) (core : Nat) (part : Nat)
  deriving DecidableEq, Repr

def State.kQueue (s : State) (grid ctx core part : Nat) : KQueue :=
  match s.kennel.shareOf grid core with
  | some h => if h.part = part then .share grid core else .common ctx core part
  | none => .common ctx core part

/-- Whether a wait stands in a queue. -/
def State.inKQueue (s : State) (q : KQueue) (g : Group) : Park → Bool
  | .talloc _ _ _ part => s.kQueue g.grid g.ctx (s.homeCore g) part == q
  | _ => false

/-- A handle register that is written for a saved group, with its claim entry, in the group's saved image too (R321). -/
def State.saveHandle (s : State) (g : Group) (h : Nat) (handle : DWord) : State :=
  if g.life != .saved then s
  else match s.pagesOf g .write g.trap.gcb 1 with
  | .ok (pa :: _) => { s with mem :=
      (s.mem.engineWrite (pa + 128 + 8 * h) (bytesOf 8 handle.toNat)).engineWrite (pa + 256 + 16 * h) (List.replicate 16 0) }
  | _ => s

/-- A tile is allocated for a group in a run of slots, and its handle register written (R167). -/
def State.allocTile (s : State) (id h units reads part slot : Nat) : State :=
  match SMap.find s.groups id with
  | none => s
  | some g =>
    let core := s.homeCore g
    let share := match s.kQueue g.grid g.ctx core part with
      | .share r _ => some r
      | .common _ _ _ => none
    let s := s.dropClaim id h (BitVec.allOnes 64) true
    let t : Tile := ⟨g.ctx, core, slot, units, part, share, g.team, id, false, reads, reads, 0, 0, [], []⟩
    let handle := mkHandle (s.kennel.gen core slot) slot core part
    (({ s with kennel := { s.kennel with tiles := s.kennel.tiles ++ [t] } }).modGroup id (fun g =>
      { g with regs := (g.regs.setH h handle).setClaim h 0 0 })).saveHandle g h handle

/-- Where a request of u units is granted now, if it heads its queue (R320, R321). -/
def State.kennelMay (s : State) (g : Group) (units part born : Nat) : Option Nat :=
  let core := s.homeCore g
  if s.olderWaits (s.inKQueue (s.kQueue g.grid g.ctx core part)) born g.gcn then none
  else s.kennelFit g.grid g.ctx core part units

/-- TALLOC (R167): refused at once when malformed, granted at once where it may be, else a wait. -/
def execTalloc (h y z : Nat) (s : State) : Out :=
  issueWord s (fun c g s =>
    let size := (g.regs.getS y).toNat
    let w := (g.regs.getS z).toNat
    let reads := bits w 15 0
    let part := bits w 19 16
    if size = 0 || size % 256 ≠ 0 || 65536 < size || reads = 0 || bits w 31 20 ≠ 0
        || s.kennelCeiling g.grid (s.homeCore g) part < size / 256 then .error (c.raise 0x0E)
    else
      let s := s.commitTasks c.gid c.map
      match s.kennelMay g (size / 256) part (g.firstAge c.map c.pc c.slot s.clock) with
      | some slot => .ok ((s.allocTile c.gid h (size / 256) reads part slot).enterAt c.gid c.map (c.pc + 12), 0)
      | none => .ok (s.modGroup c.gid (fun g =>
          g.park c.map c.pc c.slot (.talloc h (size / 256) reads part) s.clock), 0))

/-- A group's oldest wait that satisfies a condition. -/
def Group.waitOf (g : Group) (f : Parked → Bool) : Option Parked :=
  (g.parked.filter f).foldl (fun b p => match b with
    | some q => if p.born < q.born then some p else b
    | none => some p) none
def Group.wait (g : Group) (f : Park → Bool) : Option Parked := g.waitOf (fun p => f p.why)

/-- Where a waiting TALLOC of a group is granted now. -/
def State.tallocMay (s : State) (g : Group) (p : Parked) : Option Nat :=
  match p.why with
  | .talloc _ units _ part => s.kennelMay g units part p.born
  | _ => none

/-- TALLOC_GRANT (R321): a request of the group that heads its queue and fits is granted, the oldest of them; in a saved
team, into its saved state. -/
def execTallocGrant (id : Nat) (s : State) : Out :=
  match SMap.find s.groups id with
  | none => .next s
  | some g =>
    match g.waitOf (fun p => (s.tallocMay g p).isSome) with
    | none => .next s
    | some p =>
      match p.why, s.tallocMay g p with
      | .talloc h units reads part, some slot =>
        .next (((s.allocTile id h units reads part slot).granted id p (p.pc + 12) 0).wantTeam g)
      | _, _ => .next s

/-- RSV_GRANT (R98, R335): a waiting reservation gets its records all at once. -/
def execRsvGrant (id : Nat) (s : State) : Out :=
  match SMap.find s.groups id with
  | none => .next s
  | some g =>
    match g.wait (fun w => match w with
      | .rsv _ _ _ _ => true
      | _ => false) with
    | none => .next s
    | some p =>
      match p.why with
      | .rsv x y node total =>
        if s.mireMay g (some node) (total * (s.recSize g node / 16)) p.born then
          .next (((s.grantRecords id g p.map x y node).granted id p (p.pc + 12) 0).wantTeam g)
        else .next s
      | _ => .next s

/-- SPAWN_GRANT (R94): the entries are set aside and the records copied, and the threads resume at their word, which takes
effect (R18, R75; log 37). -/
def execSpawnGrant (id : Nat) (s : State) : Out :=
  match SMap.find s.groups id with
  | none => .next s
  | some g =>
    match g.wait (fun w => match w with
      | .spawn _ _ _ => true
      | _ => false) with
    | none => .next s
    | some p =>
      match p.why with
      | .spawn task y offer =>
        let gran := ((SMap.find s.grids g.grid).map taskGranules).getD 1
        if s.mireMay g none (offer.count * gran) p.born then
          let (t, l) := s.spawnEntries g p.pc p.slot task offer y
          .next ((t.modGroup id (fun g => { g.again p with grants := g.grants ++ l })).wantTeam g)
        else .next s
      | _ => .next s

/-! ## Sealing and claims -/

/-- The tile of a current handle, once the group's own operations on it have arrived (R165, R327). -/
def State.tileNow (s : State) (id : Nat) (g : Group) (h : DWord) : State × Option Tile :=
  let s := s.meshFlush id (hCore h) (hSlot h)
  (s, s.currentTile g h)

/-- Some copy fills a tile. -/
def State.filling (s : State) (t : Tile) : Bool :=
  s.copiesOf (fun k => match k.near with
    | .tile core slot gen _ => core == t.core && slot == t.slot && gen == s.kennel.gen core slot
    | .tls _ _ => false)

/-- TSEAL (R168): tentative stores commit (R177); it waits for the fills pending into the tile, releases at scope clu and
seals. -/
def execTseal (h : Nat) (s : State) : Out :=
  issueWord s (releasing 2 (fun c g s =>
    let hv := g.regs.getH h
    match s.tileNow c.gid g hv with
    | (_, none) => .error (.trap ⟨0x09, c.map, hv.toNat⟩)
    | (s, some t) =>
      if t.sealed then .ok (s.commitTasks c.gid c.map, c.map)
      else if s.filling t then .ok ((s.commitTasks c.gid c.map).parkAt c (.tile t.core t.slot))
      else
        let s := (s.commitTasks c.gid c.map).releaseBy c.gid 2
        .ok (s.tileOp g.core t.core t.slot (.seal c.gid t.core t.slot (hGen hv)), c.map)))

/-- TCLAIM (R169): one claim for the lowest thread, or one for each. -/
def claim (each : Bool) (h : Nat) (s : State) : Out :=
  issueWord s (fun c g s =>
    let hv := g.regs.getH h
    match s.tileNow c.gid g hv with
    | (_, none) => .error (.trap ⟨0x09, c.map, hv.toNat⟩)
    | (s, some t) =>
      let hold := if each then c.map else Lanes.one c.map.low
      let n := hold.count
      if t.reads < t.taken + n || (g.regs.claim h).1 &&& hold != 0 then .error (.trap ⟨0x0B, c.map, hv.toNat⟩)
      else
        let s := { s with kennel := s.kennel.setTile { t with taken := t.taken + n, outst := t.outst + n } }
        .ok (s.modGroup c.gid (fun g =>
          { g with regs := g.regs.setClaim h ((g.regs.claim h).1 ||| hold) hv }), c.map))
def execTclaim (h : Nat) (s : State) : Out := claim false h s
def execTclaimEach (h : Nat) (s : State) : Out := claim true h s

/-! ## Reading tiles -/

/-- The tile that the issue set may read through a handle register: 0x09 for a null or invalid handle, 0x08
with no claim in the issue set (R171). -/
def State.claimedTile (s : State) (c : Cur) (g : Group) (h : Nat) : Except Stop (State × Tile) :=
  let hv := g.regs.getH h
  let e := g.regs.claim h
  if !hValid hv then .error (.trap ⟨0x09, c.map, hv.toNat⟩)
  else if e.1 &&& c.map = 0 then .error (.trap ⟨0x08, c.map, hv.toNat⟩)
  else
    let s := s.meshFlush c.gid (hCore e.2) (hSlot e.2)
    match s.kennel.tileAt (hCore e.2) (hSlot e.2) with
    | some t =>
      if t.ctx == g.ctx && s.kennel.gen t.core t.slot == hGen e.2 then .ok (s, t) else .error (.trap ⟨0x08, c.map, hv.toNat⟩)
    | none => .error (.trap ⟨0x08, c.map, hv.toNat⟩)

/-- TREAD and TPEEK into registers (R171); TREAD ends the replay of its tasks before it waits (R177). -/
def tileRead (consume : Bool) (x f h z : Nat) (s : State) : Out :=
  issueWord s (fun c g s =>
    let size := 4 * 2 ^ f
    match s.claimedTile c g h with
    | .error k => .error k
    | .ok (s, t) =>
      let off := fun i => (g.regs.getV i z).toNat
      let fails := (c.lanes g).flatMap (fun i =>
        (if off i % size ≠ 0 then [(i, 0x04, off i)] else [])
        ++ (if 256 * t.units < off i + size then [(i, 0x07, off i)] else []))
      match firstCause causeOrder fails with
      | some r => .error (.trap r)
      | none =>
        let s := if consume then s.commitTasks c.gid c.map else s
        if !t.sealed then .ok (s.parkAt c (.tile t.core t.slot))
        else match (c.lanes g).filter (fun i => poisoned t.poison (off i) size) with
        | i :: r => .error (.trap ⟨0x15, Lanes.of (i :: r), off i⟩)
        | [] =>
          let s := s.modGroup c.gid (fun g => { g with
            regs := (c.lanes g).foldl (fun r i => r.writeRun i x (natWords (2 ^ f) (natOf (t.read (off i) size)))) g.regs })
          .ok (if consume then s.dropClaim c.gid h c.map true else s, c.map))
def execTread (x f h z : Nat) (s : State) : Out := tileRead true x f h z s
def execTpeek (x f h z : Nat) (s : State) : Out := tileRead false x f h z s

/-- TREAD.stash and TPEEK.stash (R172): the copy runs as TCOPY.in. TREAD.stash releases its claims at issue, and they count
down when the last chunk has read its bytes. R171's checks and its wait are those of the register forms: the word waits
while the tile is filling (log 155). -/
def tileCopy (consume : Bool) (x h : Nat) (pb : Bool) (s : State) : Out :=
  issueWord s (fun c g s =>
    match s.claimedTile c g h with
    | .error k => .error k
    | .ok (s, t) =>
      let off := (g.regs.getS x).toNat
      let len := (g.regs.getS (x + 1)).toNat
      let dst := (g.regs.getS (x + 2)).toNat
      let n := if len = 0 then 256 * t.units - off else len
      let tls := ((SMap.find s.teams g.team).map (fun m => m.tlsSize)).getD 0
      let (compl, cf) := s.completionAt g pb (x + 4)
      let fails := (if off % 16 ≠ 0 || len % 16 ≠ 0 then [(0, 0x04, off)] else [])
        ++ (if dst % 16 ≠ 0 then [(0, 0x04, dst)] else [])
        ++ (if 256 * t.units < off + n then [(0, 0x07, off)] else [])
        ++ (if tls < dst + n then [(0, 0x07, dst)] else []) ++ cf.map (fun e => (0, e.1, e.2))
      match firstCause causeOrder fails with
      | some r => .error (.trap { r with fmap := c.map })
      | none =>
        let s := if consume then s.commitTasks c.gid c.map else s
        if !t.sealed then .ok (s.parkAt c (.tile t.core t.slot))
        else
          if n = 0 then .ok (if consume then s.dropClaim c.gid h c.map true else s, c.map)
          else
            let e := g.regs.claim h
            let holds := if consume then (e.1 &&& c.map).count else 0
            let s := if consume then (s.modGroup c.gid (fun g =>
                { g with regs := g.regs.setClaim h (e.1 &&& ~~~c.map) e.2 })).tileOp g.core t.core t.slot
                  (.countDown c.gid t.core t.slot (hGen e.2) 0 holds) else s
            .ok (s.startCopy (newCopy c g true false (.tile t.core t.slot (hGen e.2) off n) (.tls g.team dst) compl [] holds),
              c.map))
def execTreadStash (x h : Nat) (b : Bool) (s : State) : Out := tileCopy true x h b s
def execTpeekStash (x h : Nat) (b : Bool) (s : State) : Out := tileCopy false x h b s

/-- TDROP (R173). -/
def execTdrop (h : Nat) (s : State) : Out :=
  issueWord s (fun c g s =>
    let hv := g.regs.getH h
    if !hValid hv then .error (.trap ⟨0x09, c.map, hv.toNat⟩)
    else if (g.regs.claim h).1 &&& c.map = 0 then .error (.trap ⟨0x08, c.map, hv.toNat⟩)
    else .ok ((s.commitTasks c.gid c.map).dropClaim c.gid h c.map true, c.map))

/-! ## TSTAT -/

/-- The information pair of a tile (R175). -/
def Tile.info (t : Tile) : DWord :=
  BitVec.ofNat 64 (t.remain * 2 ^ 16 + t.outst + (t.units + t.part * 2 ^ 16 + (if t.sealed then 2 else 1) * 2 ^ 30) * 2 ^ 32)
def execTstatInfo (x h : Nat) (s : State) : Out :=
  issueWord s (fun c g s =>
    let (s, t) := s.tileNow c.gid g (g.regs.getH h)
    .ok (s.modGroup c.gid (fun g => { g with regs := g.regs.setPairS x ((t.map Tile.info).getD 0) }), c.map))
def execTstatAddr (x h : Nat) (s : State) : Out :=
  issueWord s (fun c g s =>
    let hv := g.regs.getH h
    match s.tileNow c.gid g hv with
    | (_, none) => .error (.trap ⟨0x09, c.map, hv.toNat⟩)
    | (s, some t) =>
      let a := (s.ctx g.ctx).kab + t.core * 2 ^ 23 + t.slot * 256
      .ok (s.modGroup c.gid (fun g => { g with regs := g.regs.setPairS x (BitVec.ofNat 64 a) }), c.map))
def execTstatGet (x h : Nat) (s : State) : Out :=
  issueRegs s (fun _ g _ => .ok (g.regs.setPairS x (g.regs.getH h)))
def execTstatPut (h y : Nat) (s : State) : Out :=
  issueWord s (fun c g s =>
    let s := (s.commitTasks c.gid c.map).dropClaim c.gid h (BitVec.allOnes 64) true
    .ok (s.modGroup c.gid (fun h' => { h' with regs := (h'.regs.setH h (g.regs.pairS y)).setClaim h 0 0 }), c.map))

/-- The largest grant of a partition's common space now (R320, R322). -/
def Pool.largest (p : Pool) (used : Nat → Nat) (q : Nat) : Nat :=
  let e := p.part q
  let top := (max (used q) e.floor : Int) + p.headroom used
  if p.headroom used < 0 then 0 else min (e.ceil - used q) (top.toNat - used q)

/-- TSTAT.part (R322): grantable units, and waiting groups with units in use; 0 where the grid may not name it. -/
def State.partInfo (s : State) (g : Group) (part : Nat) : DWord :=
  let core := s.homeCore g
  if s.kennelCeiling g.grid core part = 0 then 0
  else
    let q := s.kQueue g.grid g.ctx core part
    let waiting := (((s.waiters (s.inKQueue q)).map (fun w => w.id)).dedup).length
    let (free, used) := match q with
      | .share r k =>
        let u := s.kennel.shareUsed r k
        (((s.kennel.shareOf r k).map (fun h => h.units)).getD 0 - u, u)
      | .common x k p => ((s.ctx x).kcfg.largest (s.kennel.used x k) p, s.kennel.used x k p)
    BitVec.ofNat 64 (free + (waiting * 2 ^ 16 + used) * 2 ^ 32)
def execTstatPart (x p : Nat) (s : State) : Out :=
  issueRegs s (fun _ g s => .ok (g.regs.setPairS x (s.partInfo g p)))

/-! ## Events of the Kennel and the mesh -/

/-- TILE_AUTO_SEAL (R324): the filling tiles of a team that has ended, once its copies have completed. -/
def execTileAutoSeal (team : Nat) (s : State) : Out :=
  let ended := match SMap.find s.teams team with
    | some t => t.life == .ended
    | none => true
  if !ended || s.copiesOf (fun c => c.team == team) then .next s
  else
    let l := s.kennel.tiles.filter (fun t => t.team == team && !t.sealed)
    .next (l.foldl (fun (s : State) t =>
      ({ s with kennel := s.kennel.seal t.core t.slot (s.kennel.gen t.core t.slot) }).wakeTile t.core t.slot) s)

/-- KENNEL_REMOTE_OPERATION (R327): the k-th word on the mesh arrives, unless an older one of its group on the
same tile has not. -/
def execKennelRemoteOperation (k : Nat) (s : State) : Out :=
  match s.mesh[k]? with
  | some o =>
    match o.tile with
    | some (c, t) =>
      if (s.mesh.take k).any (fun p => p.group == o.group && p.onTile c t) then .next s
      else .next (({ s with mesh := s.mesh.eraseIdx k }).landMesh o)
    | none => .next s
  | none => .next s

/-- REMOTE_STASH_ACCESS (R287): the k-th word on the mesh, a store, arrives where its lines are present, after
the older stores of its group to the same bytes. -/
def execRemoteStashAccess (k : Nat) (s : State) : Out :=
  match s.mesh[k]? with
  | some (.stash g t off d) =>
    let blocked := (s.mesh.take k).any (fun p => match p with
      | .stash h u o e => h == g && u == t && decide (o < off + d.length) && decide (off < o + e.length)
      | _ => false)
    if blocked || s.lineAbsent t off d.length then .next s
    else .next (({ s with mesh := s.mesh.eraseIdx k }).applyMesh (.stash g t off d))
  | _ => .next s

/-! ## The detectors (R331, R332, R336) -/

/-- A queue with a detector: one of the Kennel's, a node's or the task queue of a grid, or the common space of a Mire
partition. -/
inductive WaitQueue where
  | kennel (q : KQueue)
  | own (grid : Nat) (node : Option Nat)
  | mire (ctx : Nat) (part : Nat)
  deriving DecidableEq, Repr

/-- The Mire partition of a grid's node or task queue. -/
def State.mirePartOf (s : State) (grid : Nat) (node : Option Nat) : Nat := ((SMap.find s.grids grid).map (fun r => r.mirePart node)).getD 16

/-- A wait stands in a queue. -/
def State.inQueue (s : State) (q : WaitQueue) (g : Group) (w : Park) : Bool :=
  match q, s.mireWait g w with
  | .kennel k, _ => s.inKQueue k g w
  | .own r n, some (gr, k, _) => gr == r && k == n
  | .mire x p, some (gr, k, m) => g.ctx == x && s.mireBeyond gr k m != 0 && s.mirePartOf gr k == p
  | _, none => false

/-- A waiter holds what R331 and R336 ask for: a filling tile of the queue's space that its group allocated, uncommitted
records in the same space, or its task's entry there. -/
def State.waiterHolds (s : State) (q : WaitQueue) (w : Waiter) : Bool :=
  match q with
  | .kennel k => s.kennel.tiles.any (fun t => t.group == w.id && !t.sealed && (match k with
      | .share g c => t.core == c && t.share == some g
      | .common x c p => t.core == c && t.part == p && t.ctx == x && t.share.isNone))
  | _ => match w.p.why with
    | .rsv _ _ n _ => w.g.resvs.any (fun v => match q with
        | .own _ _ => v.node == n
        | _ => s.mirePartOf w.g.grid (some v.node) == s.mirePartOf w.g.grid (some n))
    | _ => !w.g.tasks.isEmpty

/-- What a queue's space has counted of its frees and seals, or returns and commits; the space of a queue of the Mire is
its partition (log 58). -/
def KQueue.key (k : Kennel) : KQueue → Nat
  | .share g c => spaceKey 0 c (((k.shareOf g c).map (fun h => h.part)).getD 0) (some g)
  | .common x c p => spaceKey x c p none
def State.stirOf (s : State) : WaitQueue → Nat
  | .kennel q => SMap.getD s.kennel.stir (q.key s.kennel) 0
  | .own r n => SMap.getD s.mireStir (((SMap.find s.grids r).map (fun g => g.ctx)).getD 0 * 16 + s.mirePartOf r n) 0
  | .mire x p => SMap.getD s.mireStir (x * 16 + p) 0

/-- The key of a queue's detector. -/
def State.detectorKey (s : State) : WaitQueue → Nat
  | .kennel q => 3 * q.key s.kennel
  | .own r n => 3 * (r * 65536 + (n.map (fun k => k + 1)).getD 0) + 1
  | .mire x p => 3 * (x * 16 + p) + 2

/-- The queues in which a wait stands. -/
def State.queuesOf (s : State) (g : Group) (w : Park) : List WaitQueue :=
  match w with
  | .talloc _ _ _ part => [.kennel (s.kQueue g.grid g.ctx (s.homeCore g) part)]
  | _ => match s.mireWait g w with
    | some (gr, k, m) => .own gr k :: (if s.mireBeyond gr k m = 0 then [] else [.mire g.ctx (s.mirePartOf gr k)])
    | none => []

/-- The conditions of R331 hold of a queue now. -/
def State.deadlocked (s : State) (q : WaitQueue) : Bool :=
  let ws := s.waiters (s.inQueue q)
  !ws.isEmpty && ws.all (s.waiterHolds q)

/-- Every detector's count of clocks: it goes on where the conditions hold and nothing of the space has been freed or
sealed, and starts again elsewhere. -/
def State.observe (s : State) : State :=
  let qs := ((s.groups.flatMap (fun e => e.2.parked.flatMap (fun p => s.queuesOf e.2 p.why))).dedup).filter s.deadlocked
  { s with detectors := qs.foldl (fun m q =>
      let k := s.detectorKey q
      match SMap.find s.detectors k with
      | some (since, n) => SMap.put m k (if n = s.stirOf q then (since, n) else (s.clock, s.stirOf q))
      | none => SMap.put m k (s.clock, s.stirOf q)) [] }

/-- A request leaves its queue, and its group takes cause 0x0A at its word, a saved one after its restore (R332). -/
def State.victimize (s : State) (w : Waiter) : State := (s.trapParked w.id w.p 0x0A 0 w.p.map).wantTeam w.g

/-- A detector whose conditions have held for 4096 clocks fires, and its count starts again. -/
def State.detect (s : State) (q : WaitQueue) : State :=
  match SMap.find s.detectors (s.detectorKey q), youngest (s.waiters (s.inQueue q)) with
  | some (since, n), some w =>
    if s.deadlocked q && n == s.stirOf q && since + 4096 ≤ s.clock then
      ({ s with detectors := SMap.erase s.detectors (s.detectorKey q) }).victimize w
    else s
  | _, _ => s

/-- KENNEL_DETECTOR_FIRE (R331, R332, R336): in the Kennel, the queue of grid r's requests in partition p of
core c; in the Mire, with c = 0 the queue of grid r's node p − 1 or, with p = 0, its task queue, and with c ≠ 0
the common space of partition p. -/
def execKennelDetectorFire (mire : Bool) (c p r : Nat) (s : State) : Out :=
  match SMap.find s.grids r with
  | none => .next s
  | some grid => .next (s.detect (
      if !mire then .kennel (s.kQueue r grid.ctx c p)
      else if c = 0 then .own r (if p = 0 then none else some (p - 1))
      else .mire grid.ctx p))

end Sys2Proof.Machine
end

