-- ==== Sys2Proof/Machine/Grid.lean ====
section
/-! DEFINITION. Linking and pairing (R179 to R184, R337, R346), format records and tile status (R185 to R188),
the accumulator words (R197 to R199), scale tracking (R200, R201), the leash (R202, R351) and BURST (R204). -/

namespace Sys2Proof.Machine

/-- The linked tile of a collective word's group (R164). -/
def Cur.tile (c : Cur) (g : Group) : Except Stop LinkTile :=
  if c.map ≠ g.live then .error (c.raise 0x03)
  else match g.tile with
  | some t => .ok t
  | none => .error (c.raise 0x0D)

/-- A collective word of a linked group. -/
def gridWord (s : State) (f : Cur → Group → LinkTile → State → Except Stop (State × Lanes)) : Out :=
  issueWord s (fun c g s => match c.tile g with
    | .ok t => f c g t s
    | .error e => .error e)

/-- The group's tile replaced. -/
def State.setTile (s : State) (id : Nat) (t : LinkTile) : State := s.modGroup id (fun g => { g with tile := some t })

/-! ## LINK, UNLINK, PAIR -/

/-- The bytes of the link reserve that a tile of n blocks needs (R179). -/
def linkNeed (n : Nat) : Nat := 8192 + 2560 * n

/-- Bytes of a pair's reserve that its tiles hold (R338). -/
def State.linkUsed (s : State) (core pair : Nat) : Nat :=
  (s.pairCtl core pair).tiles.foldl (fun a id => a + (match (SMap.find s.groups id).bind (fun g => g.tile) with
    | some t => linkNeed t.n
    | none => 0)) 0
/-- A tile of n blocks fits beside them. The reserve is the one that stands: a LINK that waits when a team's end shrinks the
reserve below its need waits on (log 174). -/
def State.linkFits (s : State) (core pair n : Nat) : Bool :=
  s.linkUsed core pair + linkNeed n ≤ (s.pairCtl core pair).reserve

/-- A group whose wait is a LINK on a pair. -/
def linkWaits (core pair : Nat) (g : Group) : Park → Bool
  | .link _ _ => g.life == .resident && g.core == core && g.pairNo == pair
  | _ => false

/-- A restored tile of a pair still waits for its grant, at the head of the pair's queue (R180, R350); of several, the one of
the lowest group number stands first (log 175). -/
def State.regrant (s : State) (core pair : Nat) : Option (Nat × LinkTile) :=
  s.groups.findSome? (fun e => match e.2.tile with
    | some t => if t.pending && e.2.life == .resident && e.2.core == core && t.pairNo == pair then some (e.1, t) else none
    | none => none)

/-- A LINK is granted (R179): blocks and records as reset; its threads go on at the next packet. -/
def State.linkNow (s : State) (id : Nat) (m : Lanes) (pc n : Nat) (int : Bool) : State :=
  match SMap.find s.groups id with
  | some g =>
    let s := s.modPair g.core g.pairNo (fun p => { p with tiles := p.tiles ++ [id] })
    let t : LinkTile := { n := n, int := int, pairNo := g.pairNo }
    (s.setGroup id { g with tile := some t }).enterAt id m (pc + 12)
  | none => s

/-- LINK (R179, R180); X holds n − 1. -/
def execLink (n : Nat) (int : Bool) (s : State) : Out :=
  issueWord s (fun c g s => match c.whole g with
    | .error e => .error e
    | .ok _ =>
      let n := n + 1
      if g.tile.isSome || (s.pairCtl g.core g.pairNo).reserve < linkNeed n then .error (c.raise 0x0D)
      else
        let born := g.firstAge c.map c.pc c.slot s.clock
        let s := s.commitTasks c.gid c.map
        if !s.olderWaits (linkWaits g.core g.pairNo) born g.gcn && (s.regrant g.core g.pairNo).isNone
            && s.linkFits g.core g.pairNo n && !s.frozen then
          .ok (s.linkNow c.gid c.map c.pc n int, 0)
        else .ok (s.modGroup c.gid (fun g => g.park c.map c.pc c.slot (.link n int) s.clock), 0))

/-- LINK_GRANT (R180, R350): the head of a pair's queue, a restored tile or else the oldest LINK, is granted
when the whole need fits. -/
def execLinkGrant (c p : Nat) (s : State) : Out :=
  match s.regrant c p with
  | some (id, t) =>
    if s.linkFits c p t.n && !s.frozen then
      .next ((s.modPair c p (fun q => { q with tiles := q.tiles ++ [id] })).setTile id { t with pending := false })
    else .next s
  | none =>
    match oldest (s.waiters (linkWaits c p)) with
    | some w => (match w.p.why with
      | .link n int =>
        if s.linkFits c p n && !s.frozen then
          .next ((s.modGroup w.id (fun g => { g with parked := g.parked.erase w.p })).linkNow w.id w.p.map w.p.pc n int)
        else .next s
      | _ => .next s)
    | none => .next s

/-- The queue into which a tile's blocks are being computed: its own, or its leader's (R347, R348). -/
def State.feeder (s : State) (t : LinkTile) : List QStep :=
  if t.paired && !t.leader then
    (match (SMap.find s.groups t.partner).bind (fun g => g.tile) with
      | some u => u.queue
      | none => [])
  else t.queue

/-- UNLINK (R182, R184): once every step and pass queued has completed. -/
def execUnlink (s : State) : Out :=
  gridWord s (fun c _ t s => if !(s.feeder t).isEmpty then .error .wait else .ok (s.unlinkNow c.gid, c.map))

/-- PAIR (R183, R346): once its tile's queue is empty its request is sent and the threads park until PAIR_MATCH; west when
set. -/
def execPair (west : Bool) (s : State) : Out :=
  gridWord s (fun c g t s =>
    if g.core % 8 = (if west then 0 else 7) then .error (c.raise 0x0D)
    else if !t.queue.isEmpty then .error .wait
    else .ok (s.modGroup c.gid (fun g => g.park c.map c.pc c.slot (.pair west) s.clock), 0))

/-- The PAIR requests of a direction that stand on a core's pair: of unpaired tiles with empty queues (R346). -/
def State.pairAsks (s : State) (core pair : Nat) (west : Bool) : List Waiter :=
  s.waiters (fun g w => w == .pair west && g.life == .resident && g.core == core && (match g.tile with
    | some t => t.pairNo == pair && !t.paired && t.queue.isEmpty
    | none => false))

/-- Two tiles become one grid, the west one leading (R184). -/
def State.joinTiles (s : State) (a b : Waiter) : State :=
  let join := fun (s : State) (w : Waiter) (partner : Nat) (lead : Bool) =>
    s.modGroup w.id (fun g => ({ g with tile := g.tile.map (fun (t : LinkTile) =>
      { t with paired := true, partner := partner, leader := lead }) }).resumeNext w.p)
  join (join s a b.id true) b a.id false

/-- A PAIR fails with cause 0x0D at its word (R183, R346). -/
def State.refusePair (s : State) (w : Waiter) : State := s.trapParked w.id w.p 0x0D 0 w.p.map

/-- PAIR_MATCH (R183, R346): the oldest PAIR.e on core c's pair p with the oldest PAIR.w of the same grid on
the pair to its east. -/
def execPairMatch (c p : Nat) (s : State) : Out :=
  if c % 8 = 7 then .next s
  else
    let west := s.pairAsks c p false
    let east := s.pairAsks (c + 1) p true
    match oldest (west.filter (fun a => east.any (fun b => b.g.grid == a.g.grid))) with
    | none => .next s
    | some a =>
      match oldest (east.filter (fun b => b.g.grid == a.g.grid)) with
      | none => .next s
      | some b =>
        if (a.g.tile.map (fun t => (t.n, t.int))) = (b.g.tile.map (fun t => (t.n, t.int))) then .next (s.joinTiles a b)
        else .next ((s.refusePair a).refusePair b)

/-! ## Format records and tile status -/

/-- A field of a record by its code (R187). -/
def FormatRec.get (f : FormatRec) (code : Nat) : Nat :=
  match code with
  | 0 => f.typea
  | 1 => f.typeb
  | 2 => f.otype
  | 3 => f.omode
  | 4 => b2n f.osat
  | 5 => f.margin
  | 6 => codeOf 8 f.sexp
  | 7 => f.za
  | 8 => f.zb
  | 9 => b2n f.zablk
  | 10 => b2n f.zbblk
  | 11 => f.dxreg
  | 12 => f.sca
  | 13 => f.scb
  | 14 => f.ssta
  | 15 => f.sstb
  | 16 => f.satcnt
  | 17 => f.uflcnt
  | _ => f.hcnt

/-- A record with a field set from a number's low bits; none where a type code is refused (R185, R187). -/
def FormatRec.set (f : FormatRec) (code x : Nat) : Option FormatRec :=
  match code with
  | 0 => if x % 16 = 15 then none else some { f with typea := x % 16 }
  | 1 => if x % 16 = 15 then none else some { f with typeb := x % 16 }
  | 2 => if 5 < x % 16 then none else some { f with otype := x % 16 }
  | 3 => some { f with omode := x % 4 }
  | 4 => some { f with osat := x % 2 == 1 }
  | 5 => some { f with margin := x % 4 }
  | 6 => some { f with sexp := signedOf 8 x }
  | 7 => some { f with za := x % 2 ^ 8 }
  | 8 => some { f with zb := x % 2 ^ 8 }
  | 9 => some { f with zablk := x % 2 == 1 }
  | 10 => some { f with zbblk := x % 2 == 1 }
  | 11 => some { f with dxreg := x % 64 }
  | 12 => some { f with sca := x % 2 ^ 48 }
  | 13 => some { f with scb := x % 2 ^ 48 }
  | 14 => some { f with ssta := x % 2 ^ 32 }
  | 15 => some { f with sstb := x % 2 ^ 32 }
  | 16 => some { f with satcnt := x % 2 ^ 32 }
  | 17 => some { f with uflcnt := x % 2 ^ 32 }
  | _ => some { f with hist := [], hcnt := 0, hpos := 0 }

/-- A tile's records, and a record replaced. -/
def LinkTile.fmt (t : LinkTile) (n : Nat) : FormatRec := SMap.getD t.fmts n {}
def LinkTile.setFmt (t : LinkTile) (n : Nat) (f : FormatRec) : LinkTile := { t with fmts := SMap.put t.fmts n f }

/-- The tile status word (R188), and its bits cleared by a set of field 31. -/
def LinkTile.status (t : LinkTile) : Nat :=
  b2n t.iov + b2n t.fnv * 2 + b2n t.finf * 4 + b2n t.paired * 8 + t.steps % 2 ^ 16 * 2 ^ 16
def LinkTile.clearStatus (t : LinkTile) (x : Nat) : LinkTile :=
  { t with iov := t.iov && !flagBit x 0, fnv := t.fnv && !flagBit x 1, finf := t.finf && !flagBit x 2 }

/-- The 64-bit value of a field's source registers: a pair for SCA and SCB. -/
def fieldSource (g : Group) (x code : Nat) : Nat :=
  if code = 12 ∨ code = 13 then (g.regs.pairS x).toNat else (g.regs.getS x).toNat

/-- FMTSET (R187): a field set from a scalar register. -/
def execFmtset (x y n : Nat) (s : State) : Out :=
  gridWord s (fun c g t s =>
    if y = 31 then .ok (s.setTile c.gid (t.clearStatus (g.regs.getS x).toNat), c.map)
    else match (t.fmt n).set y (fieldSource g x y) with
    | some f => .ok (s.setTile c.gid (t.setFmt n f), c.map)
    | none => .error (c.raise 0x01))

/-- FMTSET.get: a field to a scalar register or pair. -/
def execFmtsetGet (x y n : Nat) (s : State) : Out :=
  gridWord s (fun c g t s =>
    let v := if y = 31 then t.status else (t.fmt n).get y
    let r := if y = 12 ∨ y = 13 then g.regs.setPairS x (BitVec.ofNat 64 v) else g.regs.setS x (BitVec.ofNat 32 v)
    .ok (s.setGroup c.gid { g with regs := r }, c.map))

/-- The 128-byte run of FMTSET.ld and .st through path L, or how the word stops (R133, R187). -/
def State.imageSpot (s : State) (c : Cur) (g : Group) (va : Nat) (acc : Access) : Except Stop Spot :=
  match s.spot g va 128 acc false with
  | .park w => .error (.park w)
  | .page gpa => .error (.page 0 c.map va gpa (acc == .write))
  | .fail k => .error (.trap ⟨k, c.map, va⟩)
  | p => .ok p

/-- FMTSET.ld and FMTSET.st. -/
def execFmtsetLd (x n : Nat) (s : State) : Out :=
  gridWord s (fun c g t s =>
    let va := (g.regs.pairS x).toNat
    match s.imageSpot c g va .read with
    | .error e => .error e
    | .ok p =>
      let s := s.ownTargets c.gid 128 ((c.lanes g).map (fun t => (t, p)))
      let (s, ws) := s.loadWords g c.map.low p 32
      match formatOf (wordsNat ws) with
      | some f => .ok ((s.noteXlat g va .read).setTile c.gid (t.setFmt n f), c.map)
      | none => .error (c.raise 0x01))
def execFmtsetSt (x n : Nat) (s : State) : Out :=
  gridWord s (fun c g t s =>
    let va := (g.regs.pairS x).toNat
    match s.imageSpot c g va .write with
    | .error e => .error e
    | .ok p => .ok (((s.ownTargets c.gid 128 ((c.lanes g).map (fun t => (t, p)))).storeWords g p (natWords 32 (t.fmt n).image)).noteXlat g va .write, c.map))

/-! ## Accumulator words -/

/-- Element m of block x as a 40-bit code, and as a value (R50, R57). -/
def LinkTile.code (t : LinkTile) (x m : Nat) : Nat := SMap.getD t.acc (x * 512 + m) 0
def accValue (int : Bool) (c : Nat) : Num := if int then Num.ofInt (signedOf 40 c) else Fmt.fa40.decode c

/-- A block rewritten with 512 codes: it holds no error any more (R354). -/
def LinkTile.setBlock (t : LinkTile) (x : Nat) (codes : List Nat) : LinkTile :=
  { t with acc := SMap.putRun t.acc (x * 512) codes, bad := t.bad.filter (fun b => b != x) }

/-- The scoreboard holds a word of a group on blocks x to x + m − 1 (R193, R342). For a follower's word, the steps count
that its leader had queued before the word's request arrived, two clocks after it was sent (R348). -/
def State.blocksBusy (s : State) (g : Group) (t : LinkTile) (x m : Nat) : Bool :=
  (s.feeder t).any (fun q => q.kind != .rbox && x ≤ q.block && decide (q.block < x + m) && (match g.blockAsk with
    | some (a, _) => decide (q.born < a + 2)
    | none => true))

/-- How such a word waits at issue, if it does. -/
def State.blocksWait (s : State) (g : Group) (t : LinkTile) (x m : Nat) : Option Stop :=
  if t.paired && !t.leader then
    match g.blockAsk with
    | none => some (.ask x m)
    | some (a, _) => if s.clock < a + 2 || s.blocksBusy g t x m then some .wait else none
  else if s.blocksBusy g t x m then some .wait else none

/-- The first damaged block among those that a word reads raises cause 0x15 (R354). -/
def LinkTile.damage (t : LinkTile) (x m : Nat) : Option Nat := t.bad.find? (fun b => x ≤ b && decide (b < x + m))

/-- A 40-bit code brought into a block (R57, R198): SatI40, or the canonical NaN; with IOV. -/
def takeCode (int : Bool) (c : Nat) : Nat × Bool :=
  if int then let r := satI40 (signedOf 40 c); (codeOf 40 r.1, r.2)
  else (if Fmt.fa40.decode c = .nan then Fmt.fa40.nanCode else c, false)

/-- A 32-bit value widened into a block (R198). -/
def widenCode (int : Bool) (w : Word) : Nat := if int then codeOf 40 w.toInt else Fmt.fa40.roundNE (f32 w)

/-- ACC.LD (R198). -/
def execAccLd (x y : Nat) (b40 : Bool) (s : State) : Out :=
  gridWord s (fun c g t s => match s.blocksWait g t x 1 with
    | some e => .error e
    | none =>
      let one := fun m => if b40 then takeCode t.int ((g.regs.pairV (m % g.width) (y + 2 * (m / g.width))).toNat % 2 ^ 40)
        else (widenCode t.int (g.regs.getV (m % g.width) (y + m / g.width)), false)
      let l := (List.range 512).map one
      .ok (s.setTile c.gid { (t.setBlock x (l.map Prod.fst)) with iov := t.iov || l.any Prod.snd }, c.map))

/-- ACC.ZERO (R197); Y holds m − 1. -/
def execAccZero (x y : Nat) (s : State) : Out :=
  gridWord s (fun c g t s => match s.blocksWait g t x (y + 1) with
    | some e => .error e
    | none => .ok (s.setTile c.gid ((List.range (y + 1)).foldl (fun u i => u.setBlock (x + i) (List.replicate 512 0)) t), c.map))

/-- The target formats of ACC.MOV by OTYPE (R185). -/
def otypeFmt (o : Nat) : Fmt :=
  match o with
  | 0 => .fp32
  | 1 => .bf16
  | 2 => .fp16
  | 3 => .e4m3
  | 4 => .e5m2
  | _ => .e2m1

/-- A value is finite and not zero; a code is ±0. -/
def Num.nonzero : Num → Bool
  | .fin _ m _ => m != 0
  | _ => false
def Fmt.isZero (f : Fmt) (c : Nat) : Bool := c % 2 ^ (f.ebits + f.fbits) == 0

/-- One element converted out of a block (R69, R199): its code, whether R64 changed it, and whether it became ±0. -/
def FormatRec.convert (f : FormatRec) (v : Num) : Nat × Bool × Bool :=
  let v := v.scale (-f.sexp)
  let o := otypeFmt f.otype
  let (c, st) := o.deliver f.omode f.osat v
  (c, st &&& (Stat.of ||| Stat.sf) != 0, v.nonzero && o.isZero c)

/-- The dwords of 512 codes of w bits, packed in ascending order (R49). -/
def packCodes (w : Nat) : List Nat → Nat
  | [] => 0
  | c :: r => c + 2 ^ w * packCodes w r

/-- The record with a conversion's counts (R199). -/
def FormatRec.counted (f : FormatRec) (l : List (Nat × Bool × Bool)) : FormatRec :=
  { f with
    satcnt := min (2 ^ 32 - 1) (f.satcnt + (l.filter (fun e => e.2.1)).length)
    uflcnt := min (2 ^ 32 - 1) (f.uflcnt + (l.filter (fun e => e.2.2)).length) }

/-- Dwords of a fragment written to the live lanes' registers from n on (R192). -/
def Group.writeFrag (g : Group) (n : Nat) (ws : List Word) : Regs :=
  (ws.zipIdx).foldl (fun r e =>
    let lane := e.2 % g.width
    if g.live.has lane then r.setV lane (n + e.2 / g.width) e.1 else r) g.regs

/-- An accumulator word that reads block x waits for it, or finds it damaged. -/
def State.accReady (s : State) (c : Cur) (g : Group) (t : LinkTile) (x m : Nat) : Except Stop Unit :=
  match s.blocksWait g t x m, t.damage x m with
  | some e, _ => .error e
  | none, some b => .error (.trap ⟨0x15, c.map, b⟩)
  | none, none => .ok ()

/-- A pass that is queued may still write any register of the group (R353). -/
def LinkTile.passQueued (t : LinkTile) : Bool := t.queue.any (fun q => q.kind == .rbox)

/-- ACC.MOV to registers (R199): the range is tested at the word (R164), after damage to the block (R375). -/
def execAccMov (x y n : Nat) (s : State) : Out :=
  gridWord s (fun c g t s =>
    let f := t.fmt n
    let w := (otypeFmt f.otype).width
    let dwords := 16 * w
    match s.accReady c g t x 1 with
    | .error e => .error e
    | .ok _ =>
      if g.vcount < y + (dwords + g.width - 1) / g.width then .error (c.raise 0x01)
      else
      let l := (List.range 512).map (fun m => f.convert (accValue t.int (t.code x m)))
      let r := g.writeFrag y (natWords dwords (packCodes w (l.map Prod.fst)))
      .ok ((s.setGroup c.gid { g with regs := r }).setTile c.gid (t.setFmt n (f.counted l)), c.map))

/-- ACC.MOV.raw (R50, R199), whose range the packet check tests (R164): whole 40-bit values in pairs, the integer form sign-extended. -/
def execAccMovRaw (x y _n : Nat) (s : State) : Out :=
  gridWord s (fun c g t s =>
    match s.accReady c g t x 1 with
    | .error e => .error e
    | .ok _ =>
      let pair := fun m => let k := t.code x m; BitVec.ofNat 64 (if t.int then codeOf 64 (signedOf 40 k) else k)
      let r := (List.range 512).foldl (fun r m =>
        if g.live.has (m % g.width) then r.setPairV (m % g.width) (y + 2 * (m / g.width)) (pair m) else r) g.regs
      .ok (s.setGroup c.gid { g with regs := r }, c.map))

/-- ACC.MOV.tile (R178, R199): into a filling tile of the issuing core, which is the home core (R256); damage to the block
comes before its other causes (R375). -/
def execAccMovTile (x y n : Nat) (s : State) : Out :=
  gridWord s (fun c g t s =>
    let v := (g.regs.getS y).toNat
    let hv := g.regs.getH (bits v 19 16)
    let off := bits v 15 0
    let f := t.fmt n
    let w := (otypeFmt f.otype).width
    match s.accReady c g t x 1 with
    | .error e => .error e
    | .ok _ =>
      if bits v 31 20 ≠ 0 then .error (c.raise 0x01)
      else match s.tileNow c.gid g hv with
      | (_, none) => .error (.trap ⟨0x09, c.map, hv.toNat⟩)
      | (s, some k) =>
        if 256 * k.units < off + 64 * w then .error (.trap ⟨0x07, c.map, off⟩)
        else if k.sealed || k.core != s.homeCore g then
          .error (.trap ⟨0x06, c.map, (s.ctx g.ctx).kab + k.core * 2 ^ 23 + k.slot * 256 + off⟩)
        else
        let l := (List.range 512).map (fun m => f.convert (accValue t.int (t.code x m)))
        let s := s.commitTasks c.gid c.map
        let k := ((s.kennel.tileAt k.core k.slot).getD k).write off (bytesOf (64 * w) (packCodes w (l.map Prod.fst)))
        .ok (({ s with kennel := s.kennel.setTile k }).setTile c.gid (t.setFmt n (f.counted l)), c.map))

/-! ## Scale tracking -/

/-- A value is exactly 0, or finite. -/
def Num.isZero : Num → Bool
  | .fin _ m _ => m == 0
  | _ => false
def Num.finite : Num → Bool
  | .fin _ _ _ => true
  | _ => false

/-- The greatest magnitude of some values: NaN, then +∞, before any finite one (R200). -/
def amaxOf (l : List Num) : Num :=
  if l.any (fun v => v == .nan) then .nan
  else if l.any (fun v => v == .inf true || v == .inf false) then .inf false
  else l.foldl (fun a v => if a.lt v.abs then v.abs else a) (.fin false 0 0)

/-- The history of a record as 16 entries. -/
def FormatRec.entries (f : FormatRec) : List Nat := (f.hist ++ List.replicate 16 0).take 16

/-- SCALE.OBS (R200); Y holds m − 1. -/
def execScaleObs (x y n : Nat) (s : State) : Out :=
  gridWord s (fun c g t s => match s.accReady c g t x (y + 1) with
    | .error e => .error e
    | .ok _ =>
      let a := amaxOf ((List.range ((y + 1) * 512)).map (fun m => accValue t.int (t.code x m)))
      let f := t.fmt n
      let f2 := { f with
        hist := f.entries.set f.hpos (Fmt.fa40.deliver 2 false a).1
        hpos := (f.hpos + 1) % 16
        hcnt := min (f.hcnt + 1) 16 }
      .ok (s.setTile c.gid (t.setFmt n f2), c.map))

/-- The HCNT entries of a history that stand before HPOS, as codes and as values. -/
def FormatRec.codes (f : FormatRec) : List Nat := (List.range f.hcnt).map (fun i => f.entries.getD ((f.hpos + 15 - i) % 16) 0)
def FormatRec.valid (f : FormatRec) : List Num := f.codes.map Fmt.fa40.decode

/-- The greatest of some values (R201). -/
def maxOf : List Num → Num
  | [] => .fin false 0 0
  | v :: r => r.foldl (fun a v => if a.lt v then v else a) v

/-- The least e in a range with x ≤ y × 2^e: e runs up from lo (R201). -/
def ceilLog (x y : Num) (lo : Int) : Nat → Int
  | 0 => lo
  | n + 1 => if (y.scale lo).lt x then ceilLog x y (lo + 1) n else lo

/-- SCALE.NEXT (R201). Where the greatest entry is not above 0, and some entry is not 0, the rule's logarithm does not exist
and SEXP is a free value within its bounds (log 145). -/
def FormatRec.next (f : FormatRec) : FormatRec :=
  let l := f.valid
  if l.all (fun v => v.isZero) || l.any (fun v => !v.finite) then { f with nochg := true }
  else
    let mx := maxOf l
    let o := otypeFmt f.otype
    let e := if (Num.fin false 0 0).lt mx then ceilLog mx (o.decode o.maxCode) (-512) 1024 + f.margin
      else Config.scaleOf ((f.codes.find? (fun c => Fmt.fa40.decode c == mx)).getD 0) f.otype
    { f with sexp := max (-128) (min 127 e), nochg := false }
def execScaleNext (n : Nat) (s : State) : Out :=
  gridWord s (fun c _ t s => .ok (s.setTile c.gid (t.setFmt n (t.fmt n).next), c.map))

/-! ## The leash and BURST -/

/-- LEASH.TAKE (R202, R351): a group that waits already keeps its place on the leash that it recorded, and one to which that
leash has passed meanwhile goes on. -/
def execLeashTake (s : State) : Out :=
  issueWord s (fun c g s => match c.whole g with
    | .error e => .error e
    | .ok _ =>
      let held := fun (l : LeashRec) (st : Nat) => s.modGroup c.gid (fun g => { g with leash := { l with state := st, due := false } })
      if g.leash.state = 1 ∧ g.leash.due = true then .ok ((held g.leash 1).enterAt c.gid c.map (c.pc + 12), 0)
      else if g.leash.state = 1 then .error (c.raise 0x0C)
      else
        let l : LeashRec := if g.leash.state = 2 then g.leash else ⟨2, g.core, g.pairNo, g.firstAge c.map c.pc c.slot s.clock, false⟩
        if (s.pairCtl l.core l.pair).leashOwner.isNone then
          .ok (((held l 1).modPair l.core l.pair (fun p => { p with leashOwner := some c.gid })).enterAt c.gid c.map
            (c.pc + 12), 0)
        else .ok ((held l 2).parkAt c (.leash l.core l.pair)))

/-- LEASH.PASS (R202). -/
def execLeashPass (s : State) : Out :=
  issueWord s (fun c g s => match c.whole g with
    | .error e => .error e
    | .ok _ => if g.leash.state ≠ 1 then .error (c.raise 0x0C) else .ok (s.leashLeave c.gid, c.map))

/-- The cores of the grids that a paired tile joins to a pair's, its own first (R184, R352). -/
def State.joinedGrids (s : State) (core pair : Nat) : List Nat :=
  (core :: (s.pairCtl core pair).tiles.filterMap (fun id => (SMap.find s.groups id).bind (fun g => g.tile.bind (fun t =>
    if t.paired then (SMap.find s.groups t.partner).map (fun g => g.core) else none)))).dedup

/-- The grids that ramp with a pair's, in the same clocks (R352): its own, and those joined to it that stand in its state
since the same clock, as after a paired step. -/
def State.rampMates (s : State) (core pair : Nat) : List Nat :=
  let p := s.pairCtl core pair
  (s.joinedGrids core pair).filter (fun k => (s.pairCtl k pair).ramp == p.ramp && (s.pairCtl k pair).idle == p.idle)

/-- The ramp state of some grids of a pair number changes. -/
def State.setRamp (s : State) (pair ramp : Nat) (cores : List Nat) : State :=
  cores.foldl (fun (s : State) k => s.modPair k pair (fun p => { p with ramp := ramp, idle := s.clock })) s

/-- BURST (R204, R352); X holds n − 1. A COLD grid ramps up at once. -/
def execBurst (n : Nat) (s : State) : Out :=
  gridWord s (fun c g t s =>
    let s := s.modPair g.core t.pairNo (fun p => { p with burst := n + 1 })
    .ok (if (s.pairCtl g.core t.pairNo).ramp = 0 then s.setRamp t.pairNo 1 [g.core] else s, c.map))

end Sys2Proof.Machine
end

