-- ==== Sys2Proof/Machine/Linked.lean ====
section
/-! DEFINITION. Grid steps (R189 to R196, R344, R345, R71), ray-box passes (R205, R206, R353), and the events of a
pair's grid: a step's start, commit and fault, a pass's end, and the ramp states (R204, R352). -/

namespace Sys2Proof.Machine

/-! ## Element types -/

/-- Bits of an element type, and the array it needs (R186): 0 none, 1 zero points, 2 E8M0 scales, 3 deltas. -/
def typeBits (t : Nat) : Nat := if t ≤ 1 then 16 else if t ≤ 8 then 8 else 4
def typeArr (t : Nat) (blk : Bool) : Nat :=
  if t = 5 ∨ t = 11 then (if blk then 1 else 0)
  else if t = 6 ∨ t = 7 ∨ t = 12 ∨ t = 13 then 2
  else if t = 8 ∨ t = 14 then 3 else 0
def typeInt (t : Nat) : Bool := t == 4 || t == 5 || t == 10 || t == 11

/-- K and k of a step: those of the wider of its two types (R71, R186). -/
def FormatRec.wide (f : FormatRec) : Nat := max (typeBits f.typea) (typeBits f.typeb)
def FormatRec.stepK (f : FormatRec) : Nat := 256 / f.wide
def FormatRec.groupK (f : FormatRec) : Nat := 16 / f.wide

/-- A record's types are refused for a step of a kind on a tile (R190). -/
def FormatRec.refused (f : FormatRec) (int q : Bool) : Bool :=
  let needs := typeArr f.typea f.zablk != 0 || typeArr f.typeb f.zbblk != 0
  (needs != q) || (int && !(typeInt f.typea && typeInt f.typeb))

/-- The exact value of an element's code, before zero point and scale (R345 stage 1). -/
def elemValue (t c : Nat) : Num :=
  match t with
  | 0 => Fmt.bf16.decode c
  | 1 => Fmt.fp16.decode c
  | 2 => Fmt.e4m3.decode c
  | 3 => Fmt.e5m2.decode c
  | 4 => Num.ofInt (signedOf 8 c)
  | 5 => Num.ofInt c
  | 6 => Fmt.e4m3.decode c
  | 7 => Fmt.e5m2.decode c
  | 8 => Fmt.e4m3.decode c
  | 10 => Num.ofInt (signedOf 4 c)
  | 11 => Num.ofInt c
  | _ => Fmt.e2m1.decode c

/-! ## TMMA -/

/-- Rows of A's slab (R191), and dwords of a fragment operand (R192). -/
def slabRows (paired : Bool) (b : Bool) : Nat := if b then 32 else if paired then 32 else 16
def fragDwords (rows k t : Nat) : Nat := rows * k * typeBits t / 32

/-- A fragment's dwords, from the registers from vF on (R192). -/
def Group.readFrag (g : Group) (f n : Nat) : List Word :=
  (List.range n).map (fun d => g.regs.getV (d % g.width) (f + d / g.width))

/-- A leader queues no further step while its follower, without live threads, waits for the queued ones in order to unlink
(R182, R184). -/
def State.partnerEnding (s : State) (t : LinkTile) : Bool :=
  t.paired && (((SMap.find s.groups t.partner).map (fun h => h.live == 0)).getD false)

/-- TMMA and TMMA.Q (R189, R190, R193). The DX base is what the register that DXREG names holds, whatever the declared count
(log 176). -/
def tmma (kind : StepKind) (x y : Nat) (fb fa : Bool) (n : Nat) (s : State) : Out :=
  gridWord s (fun c g t s =>
    let f := t.fmt n
    let ops := (List.range 8).map (fun i => g.regs.getS (y + i))
    let op := fun i => (ops.getD i 0).toNat
    let da := fragDwords (slabRows t.paired false) f.stepK f.typea
    let db := fragDwords 32 f.stepK f.typeb
    let beyond := fun (on : Bool) v d => on && decide (g.vcount < v % 64 + (d + g.width - 1) / g.width)
    if f.refused t.int (kind == .tmmaQ) || (t.paired && !t.leader) then .error (c.raise 0x0D)
    else if beyond fa (op 0) da || beyond fb (op 4) db then .error (c.raise 0x01)
    else if 2 ≤ t.queue.length || s.partnerEnding t then .error .wait
    else
      let q : QStep := {
        kind := kind, pc := c.pc, slot := c.slot, block := x, fa := fa, fb := fb, frec := n, dx := g.regs.getS f.dxreg,
        ops := ops, fmt := f, fragA := if fa then g.readFrag (op 0 % 64) da else [],
        fragB := if fb then g.readFrag (op 4 % 64) db else [], map := c.map, born := s.clock, started := false }
      .ok (s.setTile c.gid { t with queue := t.queue ++ [q] }, c.map))
def execTmma (x y : Nat) (b a : Bool) (f : Nat) (s : State) : Out := tmma .tmma x y b a f s
def execTmmaQ (x y : Nat) (b a : Bool) (f : Nat) (s : State) : Out := tmma .tmmaQ x y b a f s

/-! ## Operands at the ports -/

/-- One operand of a step: its type and zero point, its array, its fragment or tensor, and its rows. -/
structure Operand where
  typ : Nat
  zero : Nat
  blk : Bool
  arr : Nat
  stride : Nat
  frag : Option Nat
  va : Nat
  kb : Int
  org : Int
  rows : Nat
  k : Nat

/-- A step's A operand, or its B operand. -/
def QStep.operand (q : QStep) (b : Bool) (rows : Nat) : Operand :=
  let f := q.fmt
  let o := if b then 4 else 0
  let op := fun i => q.ops.getD (o + i) 0
  { typ := if b then f.typeb else f.typea, zero := if b then f.zb else f.za, blk := if b then f.zbblk else f.zablk,
    arr := if b then f.scb else f.sca, stride := if b then f.sstb else f.ssta,
    frag := if b then (if q.fb then some (wordsNat q.fragB) else none) else (if q.fa then some (wordsNat q.fragA) else none),
    va := (joinPair (op 0) (op 1)).toNat, kb := (op 2).toInt, org := (op 3).toInt, rows := rows, k := f.stepK }

/-- The element coordinates of a row's k-th element (R189). -/
def Operand.at (o : Operand) (i e : Nat) : List Int := [o.kb + e, o.org + i, 0, 0]

/-- The generic address of the array entry of a row's block, and whether it is the high nibble (R59, R191). -/
def Operand.entryAt (o : Operand) (i e : Nat) : Nat × Bool :=
  let b := (o.kb + e) / 32
  let nib := typeArr o.typ o.blk == 3 || (typeArr o.typ o.blk == 1 && typeBits o.typ == 4)
  let a := (o.arr : Int) + (o.org + i) * o.stride + (if nib then b / 2 else b)
  ((a % 2 ^ 64).toNat, nib && b % 2 == 1)

/-- The addresses that an operand reads: its tensor's elements inside the sizes, and its array's entries. -/
def Operand.reads (o : Operand) (t : Option TensorRec) : List Nat :=
  let pos := (List.range o.rows).flatMap (fun i => (List.range o.k).map (fun e => (i, e)))
  (match t with
    | some r => (pos.filter (fun p => r.inside (o.at p.1 p.2))).flatMap (fun p =>
        let a := ((r.addr (o.at p.1 p.2)) % 2 ^ 64).toNat
        if typeBits o.typ = 16 then [a, a + 1] else [a])
    | none => [])
  ++ (if typeArr o.typ o.blk = 0 then [] else (pos.filter (fun p => p.2 % 32 == 0)).map (fun p => (o.entryAt p.1 p.2).1))

/-- How an engine's read fails (R194, R392): a cause with its address, a stage-2 failure of an address, or a wait for a line. -/
inductive Miss where
  | fault (cause : Nat) (addr : Nat)
  | page (va : Nat) (gpa : Nat) (wr : Bool)
  | park (w : Park)
  deriving DecidableEq, Repr

/-- The tensor record of an operand (R146, R186, R194), none for a fragment. -/
def State.recordOf (s : State) (g : Group) (cache : Cache) (o : Operand) : Except Miss (Option TensorRec) :=
  match o.frag with
  | some _ => .ok none
  | none =>
    if o.va % 64 ≠ 0 then .error (.fault 0x04 o.va)
    else match s.sound 64 (s.engineSpot g cache o.va .read) with
    | .fail k => .error (.fault k o.va)
    | .page gpa => .error (.page o.va gpa false)
    | .park w => .error (.park w)
    | p => match tensorOf (natOf (s.engineBytes cache 64 p)) with
      | some t => if t.ebits = typeBits o.typ then .ok (some t) else .error (.fault 0x13 o.va)
      | none => .error (.fault 0x13 o.va)

/-- The order of a step's causes (R194). -/
def stepOrder : List Nat := [0x0D, 0x15, 0x04, 0x13, 0x08, 0x06, 0x05]

/-- The first of some misses: the causes in order, then a page request or a wait. -/
def firstMiss (l : List Miss) : Option Miss :=
  let causes := l.filterMap (fun m => match m with
    | .fault c a => some (c, a)
    | _ => none)
  match stepOrder.findSome? (fun k => causes.find? (fun e => e.1 == k)) with
  | some e => some (.fault e.1 e.2)
  | none => l.head?

/-- The misses of an operand's reads. -/
def State.spotMisses (s : State) (m : List (Nat × Spot)) (l : List Nat) : List Miss :=
  l.filterMap (fun a => match s.readSpot m a with
    | .fail k => some (.fault k a)
    | .page gpa => some (.page a gpa false)
    | .park w => some (.park w)
    | _ => none)

/-- The code of an element: of the fragment, or of the tensor, 0 outside its sizes (R147, R192). -/
def State.elemCode (s : State) (cache : Cache) (o : Operand) (t : Option TensorRec) (m : List (Nat × Spot)) (i e : Nat) : Nat :=
  let w := typeBits o.typ
  match o.frag, t with
  | some x, _ => x / 2 ^ (w * (i * o.k + e)) % 2 ^ w
  | none, some r =>
    if r.inside (o.at i e) then
      let a := ((r.addr (o.at i e)) % 2 ^ 64).toNat
      let b := (s.engineByteAt cache (spotOf m a)).toNat
      if w = 16 then b + 256 * (s.engineByteAt cache (spotOf m (a + 1))).toNat
      else if w = 8 then b
      else if (o.kb + e) % 2 = 0 then b % 16 else b / 16
    else 0
  | none, none => 0

/-- The array entry of an element's block. -/
def State.elemEntry (s : State) (cache : Cache) (o : Operand) (m : List (Nat × Spot)) (i e : Nat) : Nat :=
  let (a, hi) := o.entryAt i e
  let b := (s.engineByteAt cache (spotOf m a)).toNat
  if typeArr o.typ o.blk = 3 ∨ typeBits o.typ = 4 ∧ typeArr o.typ o.blk = 1 then (if hi then b / 16 else b % 16) else b

/-- The zero point of an operand held in its record (R62). -/
def Operand.zeroPoint (o : Operand) : Nat := if typeBits o.typ = 4 ∧ 16 ≤ o.zero then Config.wideZero o.zero else o.zero

/-- An element decoded at the ports (R191, R345), with the step's DX base. -/
def decodeElem (o : Operand) (dx : Int) (code entry : Nat → Nat) (e : Nat) : Num :=
  let v :=
    if o.typ = 5 ∨ o.typ = 11 then Num.ofInt ((code e : Int) - (if o.blk then entry e else o.zeroPoint : Nat))
    else if o.typ = 13 then
      let p := ov4Pair (code (e / 2 * 2) + 16 * code (e / 2 * 2 + 1))
      Num.ofInt (if e % 2 = 0 then p.1 else p.2)
    else elemValue o.typ (code e)
  match typeArr o.typ o.blk with
  | 2 => if entry e = 255 then .nan else v.scale ((entry e : Int) - 127)
  | 3 => v.scale (dx - entry e)
  | _ => v

/-- An operand's rows of decoded elements. -/
def State.decodeRows (s : State) (cache : Cache) (o : Operand) (dx : Int) (t : Option TensorRec) (m : List (Nat × Spot)) : List (List Num) :=
  (List.range o.rows).map (fun i => (List.range o.k).map (fun e =>
    decodeElem o dx (s.elemCode cache o t m i) (s.elemEntry cache o m i) e))

/-- FADDR of an error in the slab area of a tile (R354); the place of that error among the tile's damaged blocks. -/
def slabArea : Nat := 0xFFFFFFFF

/-- The damage that a step of a block, or a pass, reads in its tile (R354). -/
def LinkTile.hurts (t : LinkTile) (q : QStep) : Option Nat :=
  t.bad.find? (fun b => b == slabArea || (q.kind != .rbox && b == q.block))

/-- What a fetch has read: the decoded rows of A and B, and the addresses. -/
structure Fetched where
  a : List (List Num)
  b : List (List Num)
  reads : List Nat

/-- The records of a step's operands, and the addresses that they read. -/
structure Slabs where
  a : Operand
  b : Operand
  ra : Except Miss (Option TensorRec)
  rb : Except Miss (Option TensorRec)
  reads : List Nat
def State.slabsOf (s : State) (g : Group) (t : LinkTile) (q : QStep) : Slabs :=
  let a := q.operand false (slabRows t.paired false)
  let b := q.operand true 32
  let ra := s.recordOf g g.aheadCache a
  let rb := s.recordOf g g.aheadCache b
  ⟨a, b, ra, rb, a.reads (ra.toOption.getD none) ++ b.reads (rb.toOption.getD none)⟩

/-- How the fetch of a step's operands fails, if it does: the first of its causes, else a page request or a wait (R194). -/
def State.stepMiss (s : State) (g : Group) (t : LinkTile) (q : QStep) : Option Miss :=
  let l := s.slabsOf g t q
  let origins := if q.kind = .tmmaQ then
      ([(q.ops.getD 2 0).toNat, (q.ops.getD 6 0).toNat].filter (fun o => o % 32 != 0)).map (fun o => Miss.fault 0x04 o)
    else []
  let refused := (if q.fmt.refused t.int (q.kind == .tmmaQ) then [Miss.fault 0x0D 0] else [])
    ++ (match t.hurts q with
      | some b => [Miss.fault 0x15 b]
      | none => [])
  let missOf := fun (r : Except Miss (Option TensorRec)) => match r with
    | .error e => [e]
    | .ok _ => []
  firstMiss (refused ++ origins ++ missOf l.ra ++ missOf l.rb ++ s.spotMisses (s.blockSpots g g.aheadCache .read l.reads) l.reads)

/-- A step's operands as the tensor engine fetches them (R344), or how the fetch fails (R194). -/
def State.fetchStep (s : State) (g : Group) (t : LinkTile) (q : QStep) : Except Miss Fetched :=
  let l := s.slabsOf g t q
  let cache := g.aheadCache
  let ta := l.ra.toOption.getD none
  let tb := l.rb.toOption.getD none
  let m := s.blockSpots g cache .read l.reads
  match s.stepMiss g t q with
  | some e => .error e
  | none =>
    let dx := signedOf 8 q.dx.toNat
    .ok ⟨s.decodeRows cache l.a dx ta m, s.decodeRows cache l.b dx tb m,
      (if ta.isSome then [l.a.va] else []) ++ (if tb.isSome then [l.b.va] else []) ++ l.reads⟩

/-- The sectors of memory that some addresses stand in. -/
def State.sectorsAt (s : State) (g : Group) (l : List Nat) : List Nat :=
  spotSectors ((s.blockSpots g g.aheadCache .read l).flatMap (fun e => [e.2, e.2.byte 128]))

/-! ## The walk-ahead TLB (R390) -/

/-- The last byte of a record's extent. -/
def TensorRec.last (t : TensorRec) : Nat :=
  let far := fun d => ((t.sizes.getD d 1 : Int) - 1) * max 0 (t.strides.getD (d - 1) 0)
  ((t.base : Int) + far 1 + far 2 + far 3 + (t.sizes.getD 0 1 * t.ebits / 8 : Nat) - 1).toNat

/-- Up to 8 pages of a record's extent that follow the pages that a step reads, in ascending address. -/
def furtherPages (t : TensorRec) (reads : List Nat) : List Nat :=
  let own := reads.filter (fun a => decide (t.base ≤ a ∧ a ≤ t.last))
  match own.max? with
  | some a => ((List.range 8).map (fun i => (a / 4096 + 1 + i) * 4096)).filter (fun p => p ≤ t.last)
  | none => []

/-- The walk-ahead TLB walks for a queued step: the pages that it touches, and the further ones. A fault found there is held
with the step, the first in the order of R194 (R194, R390); one of a further page is dropped. -/
def State.walkAhead (s : State) (g : Group) (t : LinkTile) (q : QStep) : State × Option (Nat × Nat) :=
  if q.kind = .rbox then (s, none)
  else
    let l := s.slabsOf g t q
    let vas := (if l.a.frag.isNone then [l.a.va] else []) ++ (if l.b.frag.isNone then [l.b.va] else []) ++ l.reads
    let more := ([l.ra, l.rb].filterMap (fun r => r.toOption.bind id)).flatMap (fun r => furtherPages r l.reads)
    (s.cachePages g g.aheadCache .read (vas ++ more), match s.stepMiss g t q with
      | some (.fault k a) => some (k, a)
      | _ => none)

/-! ## Sums -/

/-- The exact sum of one k-group (R71). -/
def groupSum : Num → List Num → List Num → Num
  | x, a :: as, b :: bs => groupSum (x.add (a.mul b).1).1 as bs
  | x, _, _ => x

/-- The exact integer of a value whose exponent is not negative. -/
def Num.toInt : Num → Int
  | .fin s m e => scaledInt s m e 0
  | _ => 0

/-- One element over k-groups, from its code: the code after, and whether SatI40 changed it (R57, R71). -/
def accumulate (int : Bool) (k : Nat) : Nat → Nat × Bool → List Num → List Num → Nat × Bool
  | 0, x, _, _ => x
  | n + 1, x, a, b =>
    let sum := groupSum (accValue int x.1) (a.take k) (b.take k)
    let x := if int then let r := satI40 sum.toInt; (codeOf 40 r.1, x.2 || r.2) else (Fmt.fa40.roundNE sum, x.2)
    accumulate int k n x (a.drop k) (b.drop k)

/-- The working copy of a block after a step over 16 rows of A (R191), with what the commit raises (R188):
FINF for an infinity from finite inputs, FNV for a NaN, IOV for a saturation. -/
def workCopy (int : Bool) (k : Nat) (code : Nat → Nat) (a b : List (List Num)) : Work :=
  let l := (List.range 512).map (fun m =>
    let ra := a.getD (m / 32) []
    let rb := b.getD (m % 32) []
    let r := accumulate int k 16 (code m, false) ra rb
    let inputs := !int && (Fmt.fa40.decode (code m)).finite && ra.all Num.finite && rb.all Num.finite
    (r, inputs))
  let v := fun (e : (Nat × Bool) × Bool) => if int then Num.fin false 0 0 else Fmt.fa40.decode e.1.1
  { codes := l.map (fun e => e.1.1)
    finf := l.any (fun e => e.2 && (v e == .inf false || v e == .inf true))
    fnv := l.any (fun e => v e == .nan)
    iov := l.any (fun e => e.1.2) }

/-- A committed working copy (R191). -/
def LinkTile.commit (t : LinkTile) (x : Nat) (w : Work) : LinkTile :=
  { (t.setBlock x w.codes) with
    steps := (t.steps + 1) % 2 ^ 16, finf := t.finf || w.finf, fnv := t.fnv || w.fnv, iov := t.iov || w.iov }

/-! ## A step's turn -/

/-- The core of a paired tile's follower (R347). -/
def State.partnerCore (s : State) (t : LinkTile) : Option Nat :=
  if t.paired then (SMap.find s.groups t.partner).map (fun g => g.core) else none

/-- The other half of a paired tile can run: it is resident with its granules granted, and has not stopped, unless the
queueing half only runs out its steps (R349). -/
def State.partnerReady (s : State) (g : Group) (t : LinkTile) : Bool :=
  !t.paired || match SMap.find s.groups t.partner with
    | some h => h.life == .resident && (!h.trap.stopped || g.live == 0) && !((h.tile.map (fun u => u.pending)).getD true)
    | none => false

/-- The head of a linked tile's queue, not begun. -/
def State.headStep (s : State) (g : Group) : Option QStep :=
  match g.tile with
  | some t => if t.pending || g.life != .resident || g.trap.stopped || !s.partnerReady g t then none
      else t.queue.head?.bind (fun q => if q.started then none else some q)
  | none => none

/-- The step whose turn it is on a pair (R193, R203): the leash holder's when it is linked on the leash's own
pair, else the oldest. -/
def State.turnStep (s : State) (core pair : Nat) : Option (Nat × Group × QStep) :=
  let heads := (s.pairCtl core pair).tiles.filterMap (fun id =>
    (SMap.find s.groups id).bind (fun g => (s.headStep g).map (fun q => (id, g, q))))
  match heads.find? (fun e => (s.pairCtl core pair).leashOwner == some e.1) with
  | some e => some e
  | none => heads.foldl (fun b e => match b with
    | some h => if e.2.2.born < h.2.2.born then some e else b
    | none => some e) none

/-- A leader of a follower on this pair has a step at its turn, for which the follower's grid takes no other (R347). -/
def State.pairedDue (s : State) (core pair : Nat) : Bool :=
  (s.pairCtl core pair).tiles.any (fun id => match (SMap.find s.groups id).bind (fun g => g.tile) with
    | some t => t.paired && !t.leader && (match SMap.find s.groups t.partner with
        | some h => (s.pairCtl h.core pair).running.isNone && (s.turnStep h.core pair).map (fun e => e.1) == some t.partner
        | none => false)
    | none => false)

/-- A change to the head of a tile's queue. -/
def State.modHead (s : State) (id : Nat) (f : QStep → QStep) : State :=
  s.modGroup id (fun g => { g with tile := g.tile.map (fun t => { t with queue := match t.queue with
    | q :: r => f q :: r
    | [] => [] }) })

/-- A grid takes a step or pass: a pair runs it, and its BURST count falls (R352). -/
def State.takePort (s : State) (core pair id : Nat) : State :=
  s.modPair core pair (fun p => { p with running := some id, burst := p.burst - 1, ramp := 2, idle := s.clock })

/-- The partner's block values, zero where the tile is not paired. -/
def State.partnerCode (s : State) (t : LinkTile) (x m : Nat) : Nat :=
  match (SMap.find s.groups t.partner).bind (fun g => g.tile) with
  | some u => u.code x m
  | none => 0

/-- The steps queued behind the head are walked for as it begins, and the next one again as it has committed; a failure is
held with its step (R390; log 156). -/
def State.walkBehind (s : State) (id : Nat) : State :=
  match SMap.find s.groups id with
  | some g => match g.tile with
    | some t =>
      let (s, l) := t.queue.foldl (fun (a : State × List QStep) q =>
        if q.started || q.held.isSome then (a.1, a.2 ++ [q])
        else
          let (s, h) := a.1.walkAhead g t q
          (s, a.2 ++ [{ q with held := h }])) (s, [])
      s.setTile id { t with queue := l }
    | none => s
  | none => s

/-- A step whose turn it is begins: its operands are fetched and its working copy formed; a page request is posted for a
stage-2 failure; a line that is still absent is awaited; another fault is held, and the step does not begin (R194, R344,
R392). -/
def State.beginStep (s : State) (id : Nat) (g : Group) (t : LinkTile) (q : QStep) : State :=
  let port := fun (s : State) =>
    let s := s.takePort g.core t.pairNo id
    let s := match s.partnerCore t with
      | some k => s.takePort k t.pairNo id
      | none => s
    s.walkBehind id
  if q.kind = .rbox then
    match t.hurts q with
    | some b => s.modHead id (fun q => { q with held := some (0x15, b) })
    | none => port (s.modHead id (fun q => { q with started := true }))
  else match s.fetchStep g t q with
  | .error (.fault k a) => s.modHead id (fun q => { q with held := some (k, a) })
  | .error (.page va gpa _) =>
    let (s, k) := s.postPage g.aheadCache g.ctx 2 true false gpa
    s.modHead id (fun q => { q with waits := some (k, va) })
  | .error (.park _) => s
  | .ok r =>
    let s := ((s.walkAhead g t q).1.cachePages g g.aheadCache .read r.reads).engineReads g.aheadCache (s.sectorsAt g r.reads)
    let k := q.fmt.groupK
    let own := workCopy t.int k (t.code q.block) (r.a.take 16) r.b
    let far := if t.paired then [workCopy t.int k (s.partnerCode t q.block) (r.a.drop 16) r.b] else []
    port (s.modHead id (fun q => { q with started := true, work := own :: far }))

/-- A word of the follower has asked for a block before a step into it was queued: the step begins once the word has finished
with the block, so that its sums are those after the word and it does not commit before it (R342, R348). -/
def State.wordFirst (s : State) (t : LinkTile) (q : QStep) : Bool :=
  t.paired && q.kind != .rbox && (match (SMap.find s.groups t.partner).bind (fun h => h.blockAsk) with
    | some (a, x, m) => decide (a + 2 ≤ q.born) && decide (x ≤ q.block) && decide (q.block < x + m)
    | none => false)

/-- STEP_START (R193, R341, R352): the step or pass whose turn it is takes its port clock on a WARM grid; a COLD grid
begins to ramp up, and with it the follower's for a paired step, whose leader's state governs. A paired step needs both grids
free, and goes before the steps of other tiles on its follower's (R347). -/
def execStepStart (c p : Nat) (s : State) : Out :=
  let ctl := s.pairCtl c p
  match s.turnStep c p with
  | none => .next s
  | some (id, g, q) =>
    match g.tile with
    | none => .next s
    | some t =>
      let far := match s.partnerCore t with
        | some k => (s.pairCtl k p).running.isSome
        | none => false
      if ctl.running.isSome || far || q.waits.isSome || q.held.isSome || s.pairedDue c p || s.wordFirst t q then .next s
      else if ctl.ramp = 0 then .next (s.setRamp p 1 (c :: (s.partnerCore t).toList))
      else if ctl.ramp ≠ 2 then .next s
      else .next ((s.forGrid g.grid).beginStep id g t q)

/-- The damage that a running step reads before its commit, in either half (R354). -/
def State.stepHurt (s : State) (t : LinkTile) (q : QStep) : Option Nat :=
  match t.hurts q with
  | some b => some b
  | none => if t.paired && q.kind != .rbox then
      ((SMap.find s.groups t.partner).bind (fun h => h.tile)).bind (fun u => u.hurts q) else none

/-- A running step meets damage: it does not commit, and cause 0x15 is held for its group (R354). -/
def State.stopStep (s : State) (id b : Nat) : State :=
  (s.undoSteps id).modHead id (fun q => { q with held := some (0x15, b) })

/-- The head of a tile's queue is done; a group that only ran out its steps ends with the last of them, and so does a
follower (R182, R184). -/
def State.stepDone (s : State) (id : Nat) (t : LinkTile) : State :=
  let s := s.endDrained id
  if t.paired then s.endDrained t.partner else s

/-- STEP_COMMIT (R191, R347): the running step's working copies are committed to its block, both halves of a paired step at
once. A failure of the step behind it is known by then: no word of the group issues before its cause (R194, R362). -/
def execStepCommit (c p : Nat) (s : State) : Out :=
  match (s.pairCtl c p).running with
  | none => .next s
  | some id =>
    match SMap.find s.groups id with
    | none => .next s
    | some g =>
      match g.tile with
      | none => .next s
      | some t =>
        match t.queue with
        | [] => .next s
        | q :: r =>
          if !q.started || q.kind == .rbox || g.core != c then .next s
          else match s.stepHurt t q with
          | some b => .next (s.stopStep id b)
          | none =>
            let k := c * 64 + 18 + p
            let s := { s with snap := { s.snap with counters := SMap.put s.snap.counters k ((SMap.getD s.snap.counters k 0 + 1) % 2 ^ 32) } }
            let s := (s.freeGrid id).setTile id
              { (match q.work with
                  | w :: _ => t.commit q.block w
                  | [] => t) with queue := r }
            let s := match t.paired, q.work with
              | true, [_, w] => s.modGroup t.partner (fun h => { h with tile := h.tile.map (fun (u : LinkTile) => u.commit q.block w) })
              | _, _ => s
            .next ((s.stepDone id t).walkBehind id)

/-- The slab area's contents are fetched again, without the error (R354), in both halves of a paired tile. -/
def LinkTile.freshSlab (t : LinkTile) : LinkTile := { t with bad := t.bad.filter (fun b => b != slabArea) }
def State.freshSlabs (s : State) (id : Nat) (t : LinkTile) : State :=
  let s := s.setTile id t.freshSlab
  if t.paired then s.modGroup t.partner (fun h => { h with tile := h.tile.map LinkTile.freshSlab }) else s

/-- STEP_FAULT (R194, R364): the held fault of the step at the head of a group's queue is raised at the group's word
boundary, for the threads of the word that queued it; the frame's place is that of the group's next word to issue. Of a
group without live threads the step is dropped, for there is none to take the cause (log 157). Damage that the step would read
by now comes before what its fetch had found (R194, R354). -/
def execStepFault (id : Nat) (s : State) : Out :=
  match SMap.find s.groups id with
  | none => .next s
  | some g =>
    match g.tile, (g.tile.bind (fun t => t.queue.head?)).bind (fun q => q.held.map (fun h => (q, h))) with
    | some t, some (q, held) =>
      let (k, a) := if held.1 = 0x0D then held else ((t.hurts q).map (fun b => (0x15, b))).getD held
      if g.async ≠ some 7 ∨ g.life ≠ .resident then .next s
      else if g.live = 0 then .next (((s.freshSlabs id t).setTile id { t.freshSlab with queue := t.queue.drop 1 }).stepDone id t)
      else
        let s := (s.freshSlabs id t).modHead id (fun q => { q with held := none })
        let l := g.images
        (match l.find? (fun e => e.wait == .runnable), l.head? with
          | some e, _ => .next (s.deliver id k (q.map &&& g.live) a e.pc e.slot false)
          | none, some e => .next (s.deliver id k (q.map &&& g.live) a e.pc e.slot false)
          | none, none => .next s)
    | _, _ => .next s

/-! ## Ray-box passes -/

/-- RBOX (R205): registers captured at issue; the pass enters the step queue. -/
def execRbox (x y z : Nat) (s : State) : Out :=
  gridWord s (fun c g t s =>
    if t.paired && !t.leader then .error (c.raise 0x0D)
    else if 2 ≤ t.queue.length || s.partnerEnding t then .error .wait
    else
      let rays := (List.range 8).flatMap (fun r => (List.range 16).map (fun i => g.regs.getV i (x + r)))
      let boxes := (List.range 6).flatMap (fun r => (List.range 8).map (fun i => g.regs.getV i (y + r)))
      let q : QStep := {
        kind := .rbox, pc := c.pc, slot := c.slot, block := z, fa := false, fb := false, frec := 0, dx := 0,
        ops := [], fmt := {}, fragA := rays, fragB := boxes, map := c.map, born := s.clock, started := false }
      .ok (s.setTile c.gid { t with queue := t.queue ++ [q] }, c.map))

/-- One ray against one box (R206): tnear and tfar. -/
def rayBox (ray box : Nat → Word) : Word × Word :=
  let lohi := fun a =>
    let t0 := (fmul32 false (fsub32 false (box a) (ray a)).1 (ray (3 + a))).1
    let t1 := (fmul32 false (fsub32 false (box (3 + a)) (ray a)).1 (ray (3 + a))).1
    (fpick32 false t0 t1, fpick32 true t0 t1)
  let near := fpick32 true (fpick32 true (fpick32 true (ray 6) (lohi 0).1) (lohi 1).1) (lohi 2).1
  let far := fpick32 false (fpick32 false (fpick32 false (ray 7) (lohi 0).2) (lohi 1).2) (lohi 2).2
  if fltCond 3 near far then (near, far) else (0x7F800000, 0xFF800000)

/-- A pass's 128 results, box by box (R205, R353). -/
def QStep.boxResults (q : QStep) : List (Word × Word) :=
  (List.range 128).map (fun m => rayBox (fun r => q.fragA.getD (16 * r + m % 16) 0) (fun r => q.fragB.getD (8 * r + m / 16) 0))

/-- RBOX_PASS_COMPLETE (R353): the results of live lanes are written. -/
def execRboxPassComplete (c p : Nat) (s : State) : Out :=
  match (s.pairCtl c p).running with
  | none => .next s
  | some id =>
    match SMap.find s.groups id with
    | none => .next s
    | some g =>
      match g.tile with
      | none => .next s
      | some t =>
        match t.queue with
        | [] => .next s
        | q :: r =>
          if !q.started || q.kind != .rbox || g.core != c then .next s
          else match s.stepHurt t q with
          | some b => .next (s.stopStep id b)
          | none =>
            let l := q.boxResults
            let regs := g.writeFrag q.block (l.map Prod.fst)
            let regs := ({ g with regs := regs }).writeFrag (q.block + 128 / g.width) (l.map Prod.snd)
            .next (((s.freeGrid id).setGroup id { g with regs := regs, tile := some { t with queue := r } }).stepDone id t)

/-! ## Ramp states -/

/-- The queues of a pair's tiles are empty, and its grid has run nothing for n clocks (R204, R352). -/
def State.gridQuiet (s : State) (c p n : Nat) : Bool :=
  let q := s.pairCtl c p
  q.running.isNone && decide (q.idle + n ≤ s.clock) && q.tiles.all (fun id =>
    match (SMap.find s.groups id).bind (fun g => g.tile) with
    | some t => (s.feeder t).isEmpty
    | none => true)

/-- Filler clocks of some grids are counted (R204, R352, R476). -/
def Snap.filler (n : Snap) (core pair clocks : Nat) : Snap :=
  let k := core * 64 + 28 + pair
  { n with counters := SMap.put n.counters k ((SMap.getD n.counters k 0 + clocks) % 2 ^ 32) }
def State.fillers (s : State) (pair clocks : Nat) (cores : List Nat) : State :=
  { s with snap := cores.foldl (fun (n : Snap) k => n.filler k pair clocks) s.snap }

/-- RAMP_UP_END, RAMP_DOWN_START, BURST_EXPIRY, RAMP_DOWN_END (R352): 0 COLD, 1 UP, 2 WARM, 3 DOWN. The grids that ramp
together change state together, each where its own condition holds. -/
def execRampUpEnd (c p : Nat) (s : State) : Out :=
  if (s.pairCtl c p).ramp = 1 then .next ((s.fillers p 32 (s.rampMates c p)).setRamp p 2 (s.rampMates c p)) else .next s

/-- A grid ramps down after 64 clocks without a step and a BURST count of 0; after 512 without a step, and its BURST count
ends. -/
def State.coolsDown (s : State) (p c : Nat) : Bool :=
  (s.pairCtl c p).ramp == 2 && (s.pairCtl c p).burst == 0 && s.gridQuiet c p 64
def State.burstEnds (s : State) (p c : Nat) : Bool := (s.pairCtl c p).ramp == 2 && s.gridQuiet c p 512
def execRampDownStart (c p : Nat) (s : State) : Out :=
  if s.coolsDown p c then .next (s.setRamp p 3 ((s.rampMates c p).filter (s.coolsDown p))) else .next s
def execBurstExpiry (c p : Nat) (s : State) : Out :=
  if s.burstEnds p c then
    let l := (s.rampMates c p).filter (s.burstEnds p)
    .next ((l.foldl (fun (s : State) k => s.modPair k p (fun q => { q with burst := 0 })) s).setRamp p 3 l)
  else .next s

/-- A step or BURST has arrived for a grid, by its own queue or that of the leader of a follower on it. -/
def State.gridDue (s : State) (p c : Nat) : Bool :=
  (s.turnStep c p).isSome || (s.pairCtl c p).burst != 0 || s.pairedDue c p
def execRampDownEnd (c p : Nat) (s : State) : Out :=
  if (s.pairCtl c p).ramp ≠ 3 then .next s
  else
    let l := s.rampMates c p
    .next (((s.fillers p 16 l).setRamp p 1 (l.filter (s.gridDue p))).setRamp p 0 (l.filter (fun k => !s.gridDue p k)))

end Sys2Proof.Machine
end

