-- ==== Sys2Proof/Machine/Sampler.lean ====
section
/-! DEFINITION. The sampler: texture descriptors and storage (R407 to R411), latent blocks and the decode network
(R412 to R416), levels, addressing and filtering (R417, R418), pages that are not resident (R420, R396), and the
TEX words (R207 to R210). Colours are four FP32 codes. -/

namespace Sys2Proof.Machine

/-! ## Descriptors -/

/-- A texture descriptor (R407). -/
structure Tex where
  base : Nat
  rmap : Nat
  pidx : Nat
  dtab : Nat
  dgen : Nat
  w : Nat
  h : Nat
  layers : Nat
  nlev : Nat
  fmt : Nat
  bilinear : Bool
  mip : Bool
  addru : Nat
  addrv : Nat

/-- Latent textures (R409). -/
def Tex.latent (d : Tex) : Bool := d.fmt == 6

/-- Width and height of a level, and its blocks in a row (R410). -/
def Tex.width (d : Tex) (l : Nat) : Nat := max 1 (d.w / 2 ^ l)
def Tex.height (d : Tex) (l : Nat) : Nat := max 1 (d.h / 2 ^ l)
def Tex.blocksX (d : Tex) (l : Nat) : Nat := (d.width l + 7) / 8
def Tex.blocksY (d : Tex) (l : Nat) : Nat := (d.height l + 7) / 8

/-- Bytes of a texel, and of a block (R409, R410). -/
def Tex.texelBytes (d : Tex) : Nat :=
  match d.fmt with
  | 0 => 1
  | 1 => 2
  | 2 => 4
  | 3 => 2
  | 4 => 8
  | _ => 4
def Tex.blockBytes (d : Tex) : Nat := if d.latent then 16 else 64 * d.texelBytes

/-- Pages of a level, and of the levels before it (R410). -/
def Tex.pages (d : Tex) (l : Nat) : Nat := (d.blocksX l * d.blocksY l * d.blockBytes + 65535) / 65536
def Tex.pagesTo (d : Tex) (l : Nat) : Nat := (List.range l).foldl (fun a i => a + d.pages i) 0

/-- The offset from BASE of the block of a texel, and of a texel (R410). -/
def Tex.blockOff (d : Tex) (l layer x y : Nat) : Nat :=
  layer * d.pagesTo d.nlev * 65536 + d.pagesTo l * 65536 + (y / 8 * d.blocksX l + x / 8) * d.blockBytes
def Tex.texelOff (d : Tex) (l layer x y : Nat) : Nat :=
  d.blockOff l layer x y + (if d.latent then 0 else (8 * (y % 8) + x % 8) * d.texelBytes)

/-- The descriptor of 64 bytes; none where it is refused (R408). -/
def texOf (x : Nat) : Option Tex :=
  let d : Tex :=
    { base := bits x 47 0, rmap := bits x 111 64, pidx := bits x 175 128, dtab := bits x 239 192, dgen := bits x 255 240,
      w := bits x 271 256 + 1, h := bits x 287 272 + 1, layers := bits x 299 288 + 1, nlev := bits x 303 300 + 1,
      fmt := bits x 307 304, bilinear := flagBit x 308, mip := flagBit x 309, addru := bits x 311 310,
      addrv := bits x 313 312 }
  if bits x 511 314 != 0 || bits x 191 176 != 0 || bits x 127 112 != 0 || bits x 63 48 != 0 || 6 < d.fmt
      || d.base % 65536 != 0 || d.rmap % 8 != 0 || d.pidx % 16 != 0
      || (d.latent && (d.dtab == 0 || d.dtab % 256 != 0)) || (!d.latent && (d.dtab != 0 || d.dgen != 0))
      || Nat.log2 (max d.w d.h) + 1 < d.nlev || decide (2 ^ 48 < d.base + d.layers * d.pagesTo d.nlev * 65536) then none
  else some d

/-! ## Reads through path X -/

/-- n bytes at a generic address through path X, block by block, or how the read fails. -/
def State.readX (s : State) (g : Group) (va n : Nat) : Except Miss (List Byte) :=
  let l := (List.range n).map (fun i => va + i)
  let m := s.blockSpots g (.sampler g.core) .read l
  let bad := s.spotMisses m l
  match bad.find? (fun e => match e with
    | .fault _ _ => true
    | _ => false) with
  | some e => .error e
  | none => match bad.head? with
    | some e => .error e
    | none => .ok (l.map (fun a => match s.windowAt g a, spotOf m a with
      | some _, .mem pa => s.mem.coreByte g.core pa
      | _, p => s.engineByteAt (.sampler g.core) p))

/-- A physical line that a window of a group's own team serves, which no engine reads at its slice (R274, R277). -/
def State.ownLine (s : State) (g : Group) (line : Nat) : Bool :=
  (SMap.find s.teams g.team).any (fun t => t.lines.any (fun e => e.2.present && e.2.pa / 256 == line))

/-- The residency code of a page (R411). -/
def State.pageCode (s : State) (g : Group) (d : Tex) (p : Nat) : Except Miss Nat :=
  match s.readX g (d.rmap + p / 4) 1 with
  | .ok b => .ok (natOf b / 2 ^ (2 * (p % 4)) % 4)
  | .error e => .error e

/-! ## Numbers -/

/-- FP32 and FP16 codes of values, and values of codes. -/
def to32 (x : Num) : Nat := Fmt.fp32.roundNE x
def of32 (c : Nat) : Num := Fmt.fp32.decode c
def add32 (a b : Nat) : Nat := to32 ((of32 a).add (of32 b)).1
def mul32 (a : Nat) (w : Num) : Nat := to32 ((of32 a).mul w).1
def one32 : Nat := 0x3F800000

/-- The ratio a / b rounded once to nearest into a format (R209, R414). -/
def Fmt.ratio (f : Fmt) (a b : Nat) : Nat := (f.roundFin 0 false false (a * 2 ^ 40 / b) (-40) (a * 2 ^ 40 % b != 0)).1

/-- An FP16 code widened (R409). -/
def widen16 (c : Nat) : Nat := to32 (Fmt.fp16.decode c)

/-- The floor of a finite value. -/
def Num.floor : Num → Int
  | .fin s m e => floorInt s m e
  | _ => 0

/-! ## Texels -/

/-- The colour of a plain texel's bytes (R409). -/
def plainTexel (fmt : Nat) (d : List Byte) : List Nat :=
  let n := fun i => (d.getD i 0).toNat
  let unorm := fun i => Fmt.fp32.ratio (n i) 255
  let half := fun i => widen16 (n (2 * i) + 256 * n (2 * i + 1))
  match fmt with
  | 0 => [unorm 0, 0, 0, one32]
  | 1 => [unorm 0, unorm 1, 0, one32]
  | 2 => [unorm 0, unorm 1, unorm 2, unorm 3]
  | 3 => [half 0, 0, 0, one32]
  | 4 => [half 0, half 1, half 2, half 3]
  | _ => [natOf (d.take 4), 0, 0, one32]

/-- A layer of the decode network (R414): ascending inputs, each sum rounded to FP32, the bias last, then FP16. -/
def netLayer (t : List Byte) (wAt bAt nout : Nat) (inp : List Nat) : List Nat :=
  (List.range nout).map (fun h =>
    let s := (inp.zipIdx).foldl (fun s e =>
      let w := Fmt.e4m3.decode (t.getD (wAt + inp.length * h + e.2) 0).toNat
      to32 ((of32 s).add (w.mul (Fmt.fp16.decode e.1)).1).1) 0
    let b := (t.getD (bAt + 2 * h) 0).toNat + 256 * (t.getD (bAt + 2 * h + 1) 0).toNat
    Fmt.fp16.roundNE (of32 (to32 ((of32 s).add (Fmt.fp16.decode b)).1)))

/-- ReLU and Clamp on FP16 codes (R414). -/
def relu16 (c : Nat) : Nat := if (Num.fin false 0 0).lt (Fmt.fp16.decode c) then c else 0
def clamp16 (c : Nat) : Nat :=
  if (Fmt.fp16.decode c).lt (.fin false 1 0) then relu16 c else if Fmt.fp16.decode c = .nan then 0 else 0x3C00

/-- A texel decoded from a block's latents and a decode table: four FP16 codes (R413, R414). -/
def decodeTexel (t lat : List Byte) (x y : Nat) : List Nat :=
  let a := (lat.take 16).map (fun b => Fmt.fp16.roundNE (Fmt.e4m3.decode b.toNat)) ++ [Fmt.fp16.ratio x 7, Fmt.fp16.ratio y 7]
  let h1 := (netLayer t 0x010 0x130 16 a).map relu16
  let h2 := (netLayer t 0x150 0x250 16 h1).map relu16
  (netLayer t 0x270 0x2B0 4 h2).map clamp16

/-- The tags of a decoded block (R416). -/
def TexelBlock.is (t : TexelBlock) (core tag : Nat) (d : Tex) (l layer x y : Nat) : Bool :=
  t.core == core && t.ctx == tag && t.base == d.base && t.dtab == d.dtab && t.dgen == d.dgen && t.level == l
    && t.layer == layer && t.block == y / 8 * d.blocksX l + x / 8

/-- A texel: a level, a layer, a column and a row. -/
structure Texel where
  level : Nat
  layer : Nat
  x : Nat
  y : Nat
  deriving DecidableEq

/-- A latent texel that the core's decoded-texel cache holds. -/
def State.cachedTexel (s : State) (g : Group) (d : Tex) (p : Texel) : Option (List Nat) :=
  (s.texels.find? (fun t => t.is g.core (s.ctx g.ctx).tag d p.level p.layer p.x p.y)).bind
    (fun t => SMap.find t.texels (8 * (p.y % 8) + p.x % 8))

/-- A texel's colour (R409, R412 to R416), given the word's table image. -/
def State.texel (s : State) (g : Group) (d : Tex) (table : List Byte) (p : Texel) : Except Miss (List Nat) :=
  let va := d.base + d.texelOff p.level p.layer p.x p.y
  if d.latent then
    match s.cachedTexel g d p with
    | some c => .ok (c.map widen16)
    | none => match s.readX g va 16 with
      | .ok b => .ok ((decodeTexel table b (p.x % 8) (p.y % 8)).map widen16)
      | .error e => .error e
  else match s.readX g va d.texelBytes with
  | .ok b => .ok (plainTexel d.fmt b)
  | .error e => .error e

/-- The size of the page that a read through path X is translated by, as a power of 2. -/
def State.pageBits (s : State) (g : Group) (va : Nat) : Nat :=
  match s.translate (g.req (.sampler g.core) .read) va with
  | .ok _ leaf => leaf.bits
  | _ => 12

/-- The decoded-texel cache takes a texel (R416): at most 128 blocks a core (log 13). -/
def State.keepTexel (s : State) (g : Group) (d : Tex) (table : List Byte) (p : Texel) : State :=
  if !d.latent || (s.cachedTexel g d p).isSome then s
  else
    let tag := (s.ctx g.ctx).tag
    let va := d.base + d.texelOff p.level p.layer p.x p.y
    match s.readX g va 16 with
    | .error _ => s
    | .ok b =>
      let c := decodeTexel table b (p.x % 8) (p.y % 8)
      let k := 8 * (p.y % 8) + p.x % 8
      if s.texels.any (fun t => t.is g.core tag d p.level p.layer p.x p.y) then
        { s with texels := s.texels.map (fun t =>
            if t.is g.core tag d p.level p.layer p.x p.y then { t with texels := SMap.put t.texels k c } else t) }
      else
        let new : TexelBlock := ⟨g.core, tag, d.base, d.dtab, d.dgen, p.level, p.layer, p.y / 8 * d.blocksX p.level + p.x / 8, va,
          s.pageBits g va, [(k, c)]⟩
        { s with texels := s.texels.filter (fun t => t.core != g.core)
            ++ keepLast 127 (s.texels.filter (fun t => t.core == g.core)) ++ [new] }

/-! ## Footprints -/

/-- A term of a footprint: the texel, none outside under zero addressing, and its weight. -/
abbrev Term := Option Texel × Num

/-- Address(i, S) of R417; none where an index reads zeros. -/
def texAddr (mode : Nat) (i : Int) (n : Nat) : Option Nat :=
  match mode with
  | 0 => some (max 0 (min i ((n : Int) - 1))).toNat
  | 1 => some (i % n).toNat
  | 2 => let t := i % (2 * n); some (if t < n then t else 2 * n - 1 - t).toNat
  | _ => if 0 ≤ i ∧ i < n then some i.toNat else none

/-- q of R417: the scaled coordinate, NaN as 0, limited to ±2^30. -/
def texScale (u : Num) (n : Nat) : Num :=
  let q := of32 (to32 (u.mul (Num.ofInt n)).1)
  let lim := Num.fin false 1 30
  match q with
  | .nan => .fin false 0 0
  | q => if lim.lt q then lim else if q.lt lim.neg then lim.neg else q

/-- The first index along an axis, and the fraction beyond it (R417). -/
def texAxis (bilinear : Bool) (u : Num) (n : Nat) : Int × Num :=
  let q := texScale u n
  if bilinear then
    let x := of32 (to32 (q.add (.fin true 1 (-1))).1)
    (x.floor, (x.add (Num.ofInt (-x.floor))).1)
  else (q.floor, .fin false 0 0)

/-- 1 − x rounded (R418), and a product of weights rounded. -/
def oneMinus (x : Num) : Num := of32 (to32 ((Num.fin false 1 0).add x.neg).1)
def weight (a b : Num) : Num := of32 (to32 (a.mul b).1)

/-- The texels from (i, j) with their weights (R418). -/
def Tex.quad (d : Tex) (l layer : Nat) (i j : Int) (ws : List (Int × Int × Num)) : List Term :=
  ws.map (fun e => ((match texAddr d.addru (i + e.1) (d.width l), texAddr d.addrv (j + e.2.1) (d.height l) with
    | some x, some y => some (⟨l, layer, x, y⟩ : Texel)
    | _, _ => none), e.2.2))

/-- The footprint of TEX.SMP at a level, and of TEX.GATHER (R209, R418). -/
def Tex.sampleFoot (d : Tex) (u v : Num) (layer l : Nat) : List Term :=
  let (i, fx) := texAxis d.bilinear u (d.width l)
  let (j, fy) := texAxis d.bilinear v (d.height l)
  if d.bilinear then
    let ox := oneMinus fx
    let oy := oneMinus fy
    d.quad l layer i j [(0, 0, weight ox oy), (1, 0, weight fx oy), (0, 1, weight ox fy), (1, 1, weight fx fy)]
  else d.quad l layer i j [(0, 0, .fin false 1 0)]
def Tex.gatherFoot (d : Tex) (u v : Num) (layer l : Nat) : List Term :=
  let one := Num.fin false 1 0
  d.quad l layer (texAxis true u (d.width l)).1 (texAxis true v (d.height l)).1
    [(0, 0, one), (1, 0, one), (0, 1, one), (1, 1, one)]

/-- The texels of a footprint whose weight is not 0, and their pages (R209). -/
def needed (l : List Term) : List Texel := l.filterMap (fun e => if e.2.isZero then none else e.1)
def Tex.pagesOf (d : Tex) (l : List Term) : List Nat :=
  ((needed l).map (fun p => d.texelOff p.level p.layer p.x p.y / 65536)).dedup

/-- A fault of a TEX word with its place in the order of R210. -/
abbrev TexFault := Nat × Miss

/-- A level's residency (R420): whether every needed page reads 01, the pages to ask for, and the faults. -/
def State.residency (s : State) (g : Group) (d : Tex) (l : List Term) : Bool × List Nat × List TexFault :=
  (d.pagesOf l).foldl (fun a p => match s.pageCode g d p with
    | .error e => (false, a.2.1, a.2.2 ++ [(3, e)])
    | .ok 1 => a
    | .ok 3 => (false, a.2.1, a.2.2 ++ [(1, .fault 0x12 (d.base + 65536 * p))])
    | .ok 0 => (false, (if d.pidx = 0 then a.2.1 else a.2.1 ++ [p]), a.2.2)
    | .ok _ => (false, a.2.1, a.2.2)) (true, [], [])

/-- The finest resident level at or coarser than l (R209), n levels left, with what the search met. -/
def State.fallBack (s : State) (g : Group) (d : Tex) (foot : Nat → List Term) (l : Nat) :
    Nat → Option Nat × List Nat × List TexFault
  | 0 => (none, [], [])
  | n + 1 =>
    let (ok, asks, bad) := s.residency g d (foot l)
    if ok then (some l, asks, bad)
    else
      let (r, asks2, bad2) := State.fallBack s g d foot (l + 1) n
      (r, asks ++ asks2, bad ++ bad2)

/-- A footprint's terms with their colours; texels that read zeros, or that fail, read 0. -/
def State.colours (s : State) (g : Group) (d : Tex) (table : List Byte) (l : List Term) : List (List Nat × Num) :=
  (l.filter (fun e => !e.2.isZero)).map (fun e => ((match e.1 with
    | some p => ((s.texel g d table p).toOption).getD [0, 0, 0, 0]
    | none => [0, 0, 0, 0]), e.2))

/-- The weighted sum of a component (R418), terms of weight 0 left out. -/
def mixOne (l : List (List Nat × Num)) (c : Nat) : Nat :=
  match l with
  | [] => 0
  | e :: r => r.foldl (fun a e => add32 a (mul32 (e.1.getD c 0) e.2)) (mul32 (e.1.getD c 0) e.2)
def mix (l : List (List Nat × Num)) : List Nat := (List.range 4).map (mixOne l)

/-- The colour of a footprint under the descriptor's filter: with FILT = 0 the one texel as it is (R418). -/
def Tex.filter (d : Tex) (l : List (List Nat × Num)) : List Nat :=
  if d.bilinear then mix l else (l.head?.map Prod.fst).getD [0, 0, 0, 0]

/-! ## The words -/

/-- The TEX words. -/
inductive TexKind where
  | smp
  | load
  | gather
  deriving DecidableEq

/-- What a thread of a TEX word receives and asks for. -/
structure TexLane where
  lane : Nat
  colour : List Nat
  nrp : Bool
  texels : List Texel
  asks : List Nat
  faults : List TexFault

/-- λ of R417 for TEX.SMP: clamped to the levels, exact. -/
def texLambda (d : Tex) (ctl lodm : Nat) (lod : Word) : Num :=
  let top := Num.ofInt ((d.nlev : Int) - 1)
  let x := if lodm = 0 then Num.fin false 0 0 else ((f32 lod).add ((Num.ofInt (signedOf 8 (bits ctl 15 8))).scale (-4))).1
  match x with
  | .nan => .fin false 0 0
  | x => if x.lt (.fin false 0 0) then .fin false 0 0 else if top.lt x then top else x

/-- The faults of the texels that a thread reads (R210). -/
def State.texelFaults (s : State) (g : Group) (d : Tex) (table : List Byte) (l : List Texel) : List TexFault :=
  l.filterMap (fun p => match s.texel g d table p with
    | .error e => some (4, e)
    | .ok _ => none)

/-- A thread's result from a footprint per level, without the linear blend of levels. -/
def State.texResult (s : State) (g : Group) (d : Tex) (table : List Byte) (t l : Nat) (foot : Nat → List Term)
    (value : List Term → List Nat) : TexLane :=
  let (r, asks, bad) := s.fallBack g d foot l (d.nlev - l)
  match r with
  | some k =>
    let ps := needed (foot k)
    ⟨t, value (foot k), k != l, ps, asks, bad ++ s.texelFaults g d table ps⟩
  | none => ⟨t, [0, 0, 0, 0], true, [], asks, bad⟩

/-- TEX.SMP for one thread (R209, R417, R418). -/
def State.sampleLane (s : State) (g : Group) (d : Tex) (table : List Byte) (ctl lodm y t : Nat) : TexLane :=
  let u := f32 (g.regs.getV t y)
  let v := f32 (g.regs.getV t (y + 1))
  let layer := if lodm = 2 then min (g.regs.getV t (y + 3)).toNat (d.layers - 1) else 0
  let x := texLambda d ctl lodm (g.regs.getV t (y + 2))
  let l := (if d.mip then x.floor else ((x.add (.fin false 1 (-1))).1).floor).toNat
  let f := if d.mip then (x.add (Num.ofInt (-(l : Int)))).1 else .fin false 0 0
  let foot := d.sampleFoot u v layer
  let one := s.texResult g d table t l foot (fun k => d.filter (s.colours g d table k))
  if f.isZero || one.nrp then one
  else
    let (ok, asks, bad) := s.residency g d (foot (l + 1))
    if ok then
      let ps := needed (foot (l + 1))
      let next := d.filter (s.colours g d table (foot (l + 1)))
      { one with
        colour := mix ([(one.colour, oneMinus f), (next, f)].filter (fun e => !e.2.isZero))
        texels := one.texels ++ ps
        faults := one.faults ++ bad ++ s.texelFaults g d table ps }
    else { one with asks := one.asks ++ asks, faults := one.faults ++ bad }

/-- TEX.LOAD for one thread: a texel outside its level reads zeros (R209). On a coarser level the shifted indices may name
no texel of the level, which R412 says is never addressed: the word reads no page for it, and the value is free (log 158). -/
def State.loadLane (s : State) (g : Group) (d : Tex) (table : List Byte) (lodm y t : Nat) : TexLane :=
  let layer := if lodm = 2 then min (g.regs.getV t (y + 3)).toNat (d.layers - 1) else 0
  let l := if lodm = 0 then 0 else min (g.regs.getV t (y + 2)).toNat (d.nlev - 1)
  let i := (g.regs.getV t y).toNat
  let j := (g.regs.getV t (y + 1)).toNat
  let at_ := fun k => (⟨k, layer, i / 2 ^ (k - l), j / 2 ^ (k - l)⟩ : Texel)
  if d.width l ≤ i ∨ d.height l ≤ j then ⟨t, [0, 0, 0, 0], false, [], [], []⟩
  else s.texResult g d table t l
    (fun k => if d.width k ≤ (at_ k).x ∨ d.height k ≤ (at_ k).y then [] else [(some (at_ k), .fin false 1 0)])
    (fun k => ((s.colours g d table k).head?.map Prod.fst).getD
      ((List.range 4).map (fun c => Config.outsideTexel s.tick (4 * t + c) % 2 ^ 32)))

/-- TEX.GATHER for one thread: a component of the bilinear footprint (R209). -/
def State.gatherLane (s : State) (g : Group) (d : Tex) (table : List Byte) (ctl lodm y t : Nat) : TexLane :=
  let layer := if lodm = 2 then min (g.regs.getV t (y + 3)).toNat (d.layers - 1) else 0
  let lod := f32 (g.regs.getV t (y + 2))
  let l := if lodm = 0 then 0 else match lod with
    | .nan => 0
    | .inf neg => if neg then 0 else d.nlev - 1
    | x => min (x.floor.toNat) (d.nlev - 1)
  s.texResult g d table t l (d.gatherFoot (f32 (g.regs.getV t y)) (f32 (g.regs.getV t (y + 1))) layer)
    (fun k => (s.colours g d table k).map (fun e => e.1.getD (bits ctl 7 6) 0))

/-- The word's table image (R413, R415): a cached one, or the table as it stands; a translation of either stage that fails is a
decode-table fault. -/
def State.tableImage (s : State) (g : Group) (d : Tex) : Except TexFault (List Byte) :=
  if !d.latent then .ok []
  else match s.decodes.find? (fun e => e.core == g.core && e.ctx == (s.ctx g.ctx).tag && e.addr == d.dtab && e.gen == d.dgen) with
  | some e => .ok e.bytes
  | none => match s.readX g d.dtab 0x2B8 with
    | .error (.fault 0x15 a) => .error (2, .fault 0x15 a)
    | .error (.park w) => .error (2, .park w)
    | .error _ => .error (2, .fault 0x11 d.dtab)
    | .ok b =>
      if natOf (b.take 16) = 0x00010001_0044544C then .ok b else .error (2, .fault 0x11 d.dtab)

/-- The decode-table cache holds a table as its most recently used of 16 (R415). -/
def State.keepTable (s : State) (g : Group) (d : Tex) (b : List Byte) : State :=
  if !d.latent then s
  else
    let e : DecodeEntry := ⟨g.core, (s.ctx g.ctx).tag, d.dtab, d.dgen, b⟩
    let own := (s.decodes.filter (fun x => x.core == g.core)).filter (fun x => x != e)
    { s with decodes := s.decodes.filter (fun x => x.core != g.core) ++ keepLast 15 own ++ [e] }

/-- A page's code goes from 00 to 10 by an atomic of scope sys, and a fill is queued, where the engine has room
(R396, R420). -/
def State.askPage (s : State) (g : Group) (d : Tex) (p : Nat) : State :=
  let byte := d.rmap + p / 4
  match s.engineSpot g (.sampler g.core) (byte / 4 * 4) .write with
  | .mem pa =>
    let bit := 8 * (byte % 4) + 2 * (p % 4)
    let queued := (s.stream.fills.filter (fun e => !e.2.running)).length
    let w := (s.mem.ack g.core (pa / 4)).readWord (pa / 4)
    if 4096 ≤ queued || w.toNat / 2 ^ bit % 4 != 0 then s
    else
      let (m, _) := s.mem.atomicSysOf g.core (pa / 4) (fun w => w ||| BitVec.ofNat 32 (2 * 2 ^ bit))
      let f : Fill := {
        ctx := g.ctx, page := d.base + 65536 * p, index := d.pidx + 16 * p
        mapWord := byte / 4 * 4, bit := bit, running := false }
      { s with mem := m.note (pa / 256), stream := { s.stream with
          fills := SMap.put s.stream.fills s.stream.nextFill f, nextFill := s.stream.nextFill + 1 } }
  | _ => s

/-- The residency map must take the atomic: a page to ask for whose map refuses a write faults there. -/
def State.askFaults (s : State) (g : Group) (d : Tex) (l : List Nat) : List TexFault :=
  l.filterMap (fun p => match s.engineSpot g (.sampler g.core) ((d.rmap + p / 4) / 4 * 4) .write with
    | .mem _ => none
    | .fail k => some (3, .fault k (d.rmap + p / 4))
    | .page gpa => some (3, .page (d.rmap + p / 4) gpa true)
    | .park w => some (3, .park w)
    | _ => some (3, .fault 0x06 (d.rmap + p / 4)))

/-- The fault that a TEX word raises among those met (R210). -/
def texFirst (l : List TexFault) : Option Miss :=
  let rank := fun (e : TexFault) => match e.2 with
    | .fault 0x05 _ => 10 * e.1 + 1
    | .fault _ _ => 10 * e.1
    | _ => 100
  (l.foldl (fun b e => match b with
    | some h => if rank e < rank h then some e else b
    | none => some e) none).map (fun e => e.2)

/-- How a TEX word stops: the whole issue set incurs the cause, and each task whose replay a page not present aborts
waits for that page. -/
def Miss.stop (c : Cur) : Miss → Stop
  | .fault k a => .trap ⟨k, c.map, a⟩
  | .page va gpa wr => .page 3 c.map va gpa wr
  | .park w => .park w

/-- The two or four result registers of a thread (R208, R209). -/
def texWords (half : Bool) (l : List Nat) : List Word :=
  if half then
    let h := fun i => Fmt.fp16.roundNE (of32 (l.getD i 0))
    [BitVec.ofNat 32 (h 0 + 65536 * h 1), BitVec.ofNat 32 (h 2 + 65536 * h 3)]
  else (List.range 4).map (fun i => BitVec.ofNat 32 (l.getD i 0))

/-- A TEX word (R207 to R210). -/
def tex (kind : TexKind) (x y z : Nat) (s : State) : Out :=
  issueWord s (fun c g s =>
    let ctl := (g.regs.getS (z + 2)).toNat
    let lodm := bits ctl 4 3
    let half := flagBit ctl 5
    let nd := if half then 2 else 4
    let coords := 2 + (if lodm = 0 then 0 else 1) + (if lodm = 2 then 1 else 0)
    let va := (g.regs.pairS z).toNat
    if bits ctl 31 16 ≠ 0 || lodm = 3 || x % nd ≠ 0 || g.vcount < x + nd || g.vcount < y + coords then .error (c.raise 0x01)
    else if va % 64 ≠ 0 then .error (.trap ⟨0x04, c.map, va⟩)
    else match s.readX g va 64 with
    | .error e => .error (e.stop c)
    | .ok b => match texOf (natOf b) with
      | none => .error (.trap ⟨0x12, c.map, va⟩)
      | some d =>
        let image := s.tableImage g d
        let table := image.toOption.getD []
        let lanes := (c.lanes g).map (fun t => match kind with
          | .smp => s.sampleLane g d table ctl lodm y t
          | .load => s.loadLane g d table lodm y t
          | .gather => s.gatherLane g d table ctl lodm y t)
        let asks := (lanes.flatMap (fun r => r.asks)).dedup
        let tf := match image with
          | .error e => [e]
          | .ok _ => []
        match texFirst (tf ++ lanes.flatMap (fun r => r.faults) ++ s.askFaults g d asks) with
        | some e => .error (e.stop c)
        | none =>
          let ps := (lanes.flatMap (fun r => r.texels)).dedup
          let s := ps.foldl (fun (s : State) p => s.keepTexel g d table p) (s.keepTable g d table)
          let s := asks.foldl (fun (s : State) p => s.askPage g d p) s
          let offs := ps.map (fun p => d.texelOff p.level p.layer p.x p.y)
          let vas := (va :: (if d.latent then [d.dtab, d.dtab + 0x2B7] else []) ++ offs.map (fun o => d.base + o)
            ++ offs.map (fun o => d.rmap + o / 65536 / 4)).dedup
          let cache := Cache.sampler g.core
          let s := (s.cachePages g cache .read vas).engineReads cache
            ((spotSectors ((s.blockSpots g cache .read vas).flatMap (fun e => [e.2, e.2.byte 128]))).filter (fun x => !s.ownLine g (x / 2)))
          let regs := lanes.foldl (fun r e => r.writeRun e.lane x (texWords half e.colour)) g.regs
          let nrp := Lanes.of ((lanes.filter (fun e => e.nrp)).map (fun e => e.lane))
          .ok (s.modGroup c.gid (fun g => { g with regs := regs.setP (bits ctl 2 0) c.map nrp }), c.map))
def execTexSmp (x y z : Nat) (s : State) : Out := tex .smp x y z s
def execTexLoad (x y z : Nat) (s : State) : Out := tex .load x y z s
def execTexGather (x y z : Nat) (s : State) : Out := tex .gather x y z s

end Sys2Proof.Machine
end

