-- ==== Sys2Proof/Machine/Picture.lean ====
section
/-! DEFINITION. COVER (R212, R213) and the render-target words (R214 to R218, R422 to R430): what they check at issue, and
the words that they send to the slices of their tiles. -/

namespace Sys2Proof.Machine

/-! ## COVER -/

/-- Edge(a, b, P) of R213. -/
def edgeOf (a b p : Int × Int) : Int := (b.1 - a.1) * (p.2 - a.2) - (b.2 - a.2) * (p.1 - a.1)

/-- A pixel centre lies inside an edge, or on a left or top one (R213). -/
def edgeCovers (sg : Int) (a b p : Int × Int) : Bool :=
  let e := sg * edgeOf a b p
  let ga := sg * (a.2 - b.2)
  let gb := sg * (b.1 - a.1)
  decide (0 < e) || (e == 0 && (decide (0 < ga) || (ga == 0 && decide (0 < gb))))

/-- The coverage mask of a triangle: w is 0 both windings, 1 `.pos`, 2 `.neg`. -/
def coverMask (w : Nat) (a b d : Int × Int) : Nat :=
  let area := edgeOf a b d
  if area = 0 || (w == 1 && decide (area < 0)) || (w == 2 && decide (0 < area)) then 0
  else
    let sg : Int := if 0 < area then 1 else -1
    (List.range 64).foldl (fun m k =>
      let p : Int × Int := (256 * (k % 8 : Nat) + 128, 256 * (k / 8 : Nat) + 128)
      if edgeCovers sg a b p && edgeCovers sg b d p && edgeCovers sg d a p then m + 2 ^ k else m) 0

/-- COVER: vertices are signed 24-bit fields of six registers. -/
def execCover (x y w : Nat) (s : State) : Out :=
  issueRegs s (fun c g _ =>
    let v := fun t i => signedOf 24 (g.regs.getV t (y + i)).toNat
    .ok (g.regs.writePairs x (fun t => BitVec.ofNat 64 (coverMask w (v t 0, v t 1) (v t 2, v t 3) (v t 4, v t 5))) (c.lanes g)))

/-! ## Render targets -/

/-- A render-target descriptor (R422). -/
structure Target where
  slots : Nat
  modes : Nat
  ntiles : Nat
  clear : Nat

/-- The descriptor of 32 bytes; none where it is refused (R423). -/
def targetOf (x : Nat) : Option Target :=
  let d : Target := ⟨bits x 111 64, bits x 175 128, bits x 223 192, bits x 255 224⟩
  if bits x 63 0 != 0 || bits x 127 112 != 0 || bits x 191 176 != 0 || d.ntiles == 0 || 2 ^ 24 < d.ntiles
      || d.slots % 256 != 0 || d.modes % 64 != 0 || 2 ^ 48 < d.slots + 256 * d.ntiles || decide (2 ^ 48 < d.modes + d.ntiles)
      || (decide (d.slots < d.modes + d.ntiles) && decide (d.modes < d.slots + 256 * d.ntiles)) then none
  else some d

/-- What path L reaches at the 256-byte blocks of some addresses. -/
def State.pathSpots (s : State) (g : Group) (acc : Access) (l : List Nat) : List (Nat × Spot) :=
  ((l.map (fun a => a / 256)).dedup).map (fun b => (b, s.spot g (256 * b) 1 acc false))

/-- How a word that reaches some addresses through path L stops: a cause, a page request, or a window line. -/
def spotsStop (c : Cur) (wr : Bool) (m : List (Nat × Spot)) (l : List Nat) : Option Stop :=
  let fails := l.filterMap (fun a => match spotOf m a with
    | .fail k => some (c.map.low, k, a)
    | _ => none)
  match firstCause causeOrder fails with
  | some r => some (.trap { r with fmap := c.map })
  | none => l.findSome? (fun a => match spotOf m a with
    | .page gpa => some (.page 0 c.map a gpa wr)
    | .park w => some (.park w)
    | _ => none)

/-- The descriptor that sZ names (R217, R422, R423), with its address, and the state after its read. -/
def State.targetAt (s : State) (c : Cur) (g : Group) (z : Nat) : Except Stop (State × Nat × Target) :=
  let va := (g.regs.pairS z).toNat
  match s.spot g va 32 .read false with
  | .fail k => .error (.trap ⟨k, c.map, va⟩)
  | .page gpa => .error (.page 0 c.map va gpa false)
  | .park w => .error (.park w)
  | p =>
    let (u, ws) := (s.ownTargets c.gid 32 ((c.lanes g).map (fun t => (t, p)))).loadWords g 64 p 8
    match targetOf (wordsNat ws) with
    | some d => .ok (u.noteXlat g va .read, va, d)
    | none => .error (.trap ⟨0x06, c.map, va⟩)

/-- A render-target word: the tentative stores of its tasks commit first, and they lose replay (R134, R217). -/
def targetWord (z : Nat) (f : Cur → Group → Nat → Target → State → Except Stop (State × Lanes)) (s : State) : Out :=
  issueWord (match s.cur with
    | some c => s.commitTasks c.gid c.map
    | none => s) (fun c g s => match s.targetAt c g z with
      | .error e => .error e
      | .ok (u, va, d) => f c g va d u)

/-- The part of a word that acts on one tile, in flight to the tile's slice (R218). -/
def Target.word (d : Target) (n : Kennel) (c : Cur) (g : Group) (m : List (Nat × Spot)) (op : TargetOp) (t : Nat) : Option TargetWord :=
  let va := d.modes + t
  let sa := d.slots + 256 * t
  ((spotOf m va).place n).map (fun p => ⟨c.gid, g.core, c.map, p, (spotOf m sa).place n, d.clear, op, va, sa⟩)

/-- The words of some tiles are sent, where the generic addresses l of their mode bytes and slots allow it (R217). An error
that one of them would read is the word's own cause, before the others (R375, R464). -/
def State.sendTargets (s : State) (c : Cur) (g : Group) (va : Nat) (d : Target) (op : TargetOp) (tiles l : List Nat) :
    Except Stop (State × Lanes) :=
  let m := s.pathSpots g .write l
  let ws := tiles.filterMap (d.word s.kennel c g m op)
  match ws.findSome? s.targetHurt, spotsStop c true m l with
  | some a, _ => .error (.trap ⟨0x15, c.map, a⟩)
  | none, some e => .error e
  | none, none =>
    .ok (l.foldl (fun (s : State) a => s.noteXlat g a .write) ({ s with targets := s.targets ++ ws }.noteXlat g va .read), c.map)

/-- RTST (R214, R215): one tile, pixels in ascending lane order. -/
def execRtst (x y z : Nat) (s : State) : Out :=
  targetWord z (fun c g va d s =>
    let t := (g.regs.getS (z + 2)).toNat
    if d.ntiles ≤ t then .error (.trap ⟨0x06, c.map, va⟩)
    else
      let px := (c.lanes g).map (fun i => ((g.regs.getV i y).toNat % 64, (g.regs.getV i x).toNat))
      s.sendTargets c g va d (.pixels px) [t] [d.modes + t, d.slots + 256 * t]) s

/-- A range of tiles, from sZ+2 and sZ+3 (R216, R217): a word over an empty range has no effect on them. -/
def rangeWord (z : Nat) (op : TargetOp) (s : State) : Out :=
  targetWord z (fun c g va d s =>
    let t := (g.regs.getS (z + 2)).toNat
    let n := (g.regs.getS (z + 3)).toNat
    if 65535 < n || (n != 0 && d.ntiles < t + n) then .error (.trap ⟨0x06, c.map, va⟩)
    else
      let tiles := (List.range n).map (fun i => t + i)
      s.sendTargets c g va d op tiles (tiles.map (fun k => d.modes + k)
        ++ (if op = .clear then [] else tiles.map (fun k => d.slots + 256 * k)))) s

/-- RTCLR, and RTDC, which needs the slot of every tile of its range: what their modes are is known at their slices (R216,
R217, R430; log 182). -/
def execRtclr (z : Nat) (s : State) : Out := rangeWord z .clear s
def execRtdc (z : Nat) (s : State) : Out := rangeWord z .expand s

end Sys2Proof.Machine
end

