-- ==== Sys2Proof/Machine/System.lean ====
section
/-! DEFINITION. The system words (R219 to R224): CSRs, ERET (R374), TLBI with the removal of host waits (R449)
and of windows' pages (R391), SNAP with the snapshot records (R474, R476), and SLEEP. -/

namespace Sys2Proof.Machine

/-! ## CSRs -/

/-- The value of a CSR (R220). -/
def State.csr (s : State) (g : Group) (n : Nat) : Word :=
  let c := s.ctx g.ctx
  match n with
  | 0x000 => g.regs.fstat
  | 0x001 => g.trap.uhvec
  | 0x002 => if g.trap.uien then 1 else 0
  | 0x003 => BitVec.ofNat 32 g.frame
  | 0x004 => BitVec.ofNat 32 (g.frame / 2 ^ 32 % 2 ^ 16)
  | 0x005 => BitVec.ofNat 32 g.trap.safecnt
  | 0x100 => BitVec.ofNat 32 c.shvec
  | 0x101 => BitVec.ofNat 32 (c.shvec / 2 ^ 32 % 2 ^ 16)
  | 0x102 => BitVec.ofNat 32 (c.kab % 2 ^ 32 / 2 ^ 29 * 2 ^ 29)
  | 0x103 => BitVec.ofNat 32 (c.kab / 2 ^ 32 % 2 ^ 16)
  | 0x104 => BitVec.ofNat 32 (c.tag % 2 ^ 16)
  | 0x105 => BitVec.ofNat 32 (c.pasid % 2 ^ 20)
  | 0x111 => BitVec.ofNat 32 (s.snap.snapctl % 4)
  | _ => 0

/-- CSRR (R219). -/
def execCsrr (n y : Nat) (s : State) : Out :=
  issueRegs s (fun c g s =>
    if 0x100 ≤ n && !g.trap.mode then .error (c.raise 0x02) else .ok (g.regs.setS y (s.csr g n)))

/-! ## Snapshots -/

/-- The units of a partition in use on a core, over the contexts (R320). -/
def State.unitsUsed (s : State) (core q : Nat) : Nat :=
  s.ctxs.foldl (fun a e => a + s.kennel.used e.1 core q) 0

/-- The 64 dwords of record b (R476) at a clock. Those of the scheduler and the front end, whose layout is not given, are free
(log 21). -/
def State.snapRecord (s : State) (b : Nat) (latched : Bool) (clk : Nat) : List Nat :=
  let free := fun i => Config.snapValue s.tick b i % 2 ^ 32
  let k := fun i => SMap.getD s.snap.counters (b * 64 + i) 0
  let head := [b + b2n latched * 2 ^ 8, clk]
  if 49 < b then List.replicate 64 0
  else if 47 < b then head ++ (List.range 62).map free
  else
    head
    ++ (List.range 6).flatMap (fun p => [k p + k (22 + p) * 2 ^ 32, k (6 + p) + k (12 + p) % 2 ^ 32 * 2 ^ 32])
    ++ (List.range 4).map (fun i => (List.range 4).foldl (fun a j => a + s.unitsUsed b (4 * i + j) % 2 ^ 16 * 2 ^ (16 * j)) 0)
    ++ (List.range 3).map (fun p => k (18 + p) + k (28 + p) * 2 ^ 32)
    ++ [k 21] ++ List.replicate 42 0

/-- The cores that have power (R470). -/
def Power.powered (p : Power) (core : Nat) : Bool :=
  match p.state with
  | .run => true
  | .listen => core == bits p.pwrctl 47 42
  | _ => false

/-- The common trigger fires (R474): every powered block latches, unless snapshots are held. In Retain none has power but the
power controller, which holds SNAPST (R470, R475). -/
def State.snapFire (s : State) (src tag : Nat) : State :=
  if s.snap.held then s
  else
    let bs := (List.range 50).filter (fun b => (decide (47 < b) && s.pwr.state != .retain) || s.pwr.powered b)
    { s with snap := { s.snap with
        held := true, tag := tag, src := src, clk := s.clock % 2 ^ 32
        latched := bs.map (fun b => (b, s.snapRecord b true s.clock)) } }

/-- SNAP (R223). -/
def execSnap (t : Nat) (s : State) : Out :=
  issueWord s (fun c g s =>
    .ok (if g.trap.mode || s.snap.snapctl % 2 == 1 then s.snapFire 0 t else s, c.map))

/-- A CSR written (R220): the context's, the group's or the device's. -/
def State.setCsr (s : State) (id : Nat) (g : Group) (n : Nat) (w : Word) : State :=
  let v := w.toNat
  match n with
  | 0x000 => s.setGroup id { g with regs := { g.regs with fstat := w &&& 0x3F } }
  | 0x001 => s.setGroup id { g with trap := { g.trap with uhvec := w } }
  | 0x002 => s.setGroup id { g with trap := { g.trap with uien := flagBit v 0 } }
  | 0x100 => s.modCtx g.ctx (fun c => { c with shvec := c.shvec / 2 ^ 32 * 2 ^ 32 + v })
  | 0x101 => s.modCtx g.ctx (fun c => { c with shvec := c.shvec % 2 ^ 32 + v % 2 ^ 16 * 2 ^ 32 })
  | 0x102 => s.modCtx g.ctx (fun c => { c with kab := c.kab / 2 ^ 32 * 2 ^ 32 + v / 2 ^ 29 * 2 ^ 29 })
  | 0x103 => s.modCtx g.ctx (fun c => { c with kab := c.kab % 2 ^ 32 + v % 2 ^ 16 * 2 ^ 32 })
  | 0x110 => s.snapFire 1 (v % 2 ^ 8)
  | 0x111 => { s with snap := { s.snap with snapctl := v % 4 } }
  | _ => s

/-- CSRW (R219): a bad UHVEC raises 0x01 and changes nothing. -/
def execCsrw (n y : Nat) (s : State) : Out :=
  issueWord s (fun c g s =>
    let w := g.regs.getS y
    if 0x100 ≤ n && !g.trap.mode then .error (c.raise 0x02)
    else if n == 1 && w != 0xFFFFFFFF && w.toNat % 12 != 0 then .error (c.raise 0x01)
    else .ok (s.setCsr c.gid g n w, c.map))

/-! ## ERET -/

/-- How ERET stops where its frame cannot be read, as a load of that address does (R133, R392; log 82). -/
def frameStop (c : Cur) (va : Nat) : Xlat → Stop
  | .absent => .trap ⟨0x05, c.map, va⟩
  | .stage2 gpa => .page 0 c.map va gpa false
  | .soft => .trap ⟨0x15, c.map, va⟩
  | _ => .trap ⟨0x06, c.map, va⟩

/-- ERET (R221, R374): the group returns to what the active frame holds, with the handler's own stores to it (R366); from a
frame of cause 0x14 every live thread ends (R368). Where the frame records steps, those that the handler queued complete
first (R376; log 103). -/
def execEret (s : State) : Out :=
  issuePark s (fun c g s =>
    if g.trap.level == .none then .error (c.raise 0x01)
    else if g.frameCause = 0x14 then .ok (s.cease c.gid g.live, 0)
    else match s.pagesOf g .read g.frame 2 with
    | .error (va, x) => .error (frameStop c va x)
    | .ok ps =>
      if ps.any (fun pa => poisoned s.mem.poison pa 4096) then .error (.trap ⟨0x15, c.map, g.frame⟩)
      else
        let ws := g.tentative ps (s.readPages g.core ps)
        match g.returned s.clock ws with
        | .error k => .error (c.raise k)
        | .ok r => if g.stepsWait ws then .error .wait else .ok (((s.setGroup c.gid r).sweepGrants c.gid).endPartner r, 0))

/-! ## TLBI -/

/-- A page of a context's address space, as a cached leaf would carry it. -/
def Ctx.leafOf (c : Ctx) (va size : Nat) : TlbEntry :=
  ⟨.frontEnd, c.tag, c.vmid, c.pasid, va / 2 ^ size * 2 ^ size, size, 0, true, true, true, c.s2en⟩

/-- The lines of a team's windows that hold a translation a TLBI covers: their keys and physical lines. -/
def State.staleLines (s : State) (t : Team) (hits : TlbEntry → Bool) : List (Nat × Nat) :=
  t.lines.filterMap (fun e =>
    if !e.2.present then none
    else match SMap.find t.windows (e.1 / 65536) with
    | some w => if hits ((s.ctx t.ctx).leafOf (w.lineAddr (e.1 % 65536)) e.2.bits) then some (e.1, e.2.pa / 256) else none
    | none => none)

/-- Those lines are written back and become absent (R391). -/
def State.dropStale (s : State) (id : Nat) (t : Team) (hits : TlbEntry → Bool) : State :=
  let l := s.staleLines t hits
  if l.isEmpty then s
  else
    ({ s with mem := l.foldl (fun (m : MemSys) (e : Nat × Nat) => m.evictLine t.core e.2) s.mem }).modTeam id (fun t =>
      { t with lines := t.lines.filter (fun e => !(l.map Prod.fst).contains e.1) })

/-- A host wait ends without its condition: the refused token (R449). -/
def State.refuseWaits (s : State) (f : HostWait → Bool) : State :=
  let out := s.host.waits.filter f
  let s := { s with host := { s.host with waits := s.host.waits.filter (fun w => !f w) } }
  out.foldl (fun (s : State) w => s.hWrite w.wakea (bytesOf 8 (w.token ^^^ 2 ^ 63))) s

/-- The groups of the contexts that an invalidation of a kind concerns: by address, of the context that it names. -/
def State.concerned (s : State) (kind va id : Nat) (g : Group) : Bool :=
  tlbiHits kind va id ((s.ctx g.ctx).leafOf va 12)

/-- What groups still hold of their translations (R222): a wait on a word or a counter issues again, and is translated afresh
(log 183); tasks whose tentative stores were translated as they issued commit, and lose replay (log 184). -/
def State.refresh (s : State) (f : Group → Bool) : State :=
  let l := s.groups.filter (fun e => f e.2)
  let s := l.foldl (fun (s : State) e =>
    s.commitTasks e.1 (Lanes.of ((e.2.tasks.filter (fun t => !t.2.stores.isEmpty)).map Prod.fst))) s
  { s with groups := s.groups.map (fun e => (e.1, if f e.2 && e.2.life == .resident then
      (e.2.parked.filter (fun p => match p.why with
        | .waitcmp _ _ _ _ _ => true
        | .ctrWait _ _ _ => true
        | _ => false)).foldl (fun (g : Group) p => g.resume p) e.2
    else e.2)) }

/-- An invalidation of a kind, everywhere (R222): translation caches, windows' pages, decoded texels of the pages concerned,
what groups hold, and host waits installed under a translation it covers. Render-target words in flight, which were
translated as they issued, reach their slices first. -/
def State.tlbi (s : State) (kind va id : Nat) : State :=
  let hits := tlbiHits kind va id
  let s := (s.settleTargets (fun _ => true)).refresh (s.concerned kind va id)
  let s := { s with trans := s.trans.invalidate kind va id }
  let s := s.teams.foldl (fun (s : State) e => if e.2.life == .resident then s.dropStale e.1 e.2 hits else s) s
  let s := { s with texels := s.texels.filter (fun t => !hits ((s.ctx t.ctx).leafOf t.va t.bits)) }
  s.refuseWaits (fun w => hits ((s.ctx w.ctx).leafOf w.va w.bits))

/-- TLBI (R222): privileged. Its tasks end their replay, as at the words of R134 that no task can undo (log 159). -/
def execTlbi (x t : Nat) (s : State) : Out :=
  issueWord s (fun c g s =>
    if !g.trap.mode then .error (c.raise 0x02)
    else
      let s := s.commitTasks c.gid c.map
      .ok (s.tlbi t (if t = 2 then (g.regs.pairS x).toNat % 2 ^ 48 else 0) (if t = 0 then 0 else (g.regs.getS (x + 2)).toNat), c.map))

/-! ## SLEEP -/

/-- When a sleep ends: an earlier issue's remaining time, else sN microseconds of 1400 clocks from now; 0 means
no limit (R224, R365). -/
def Group.sleepEnd (g : Group) (m : Lanes) (pc slot now : Nat) (w : Word) : Nat :=
  match g.firstOf m pc slot with
  | some f => if f = 0 then 0 else now + (f - 1)
  | none => if w = 0 then 0 else now + 1400 * w.toNat

/-- SLEEP (R224): privileged; the issue set parks. -/
def execSleep (y : Nat) (s : State) : Out :=
  issueWord s (fun c g s =>
    if !g.trap.mode then .error (c.raise 0x02)
    else
      let u := g.sleepEnd c.map c.pc c.slot s.clock (g.regs.getS y)
      .ok (s.modGroup c.gid (fun g => g.park c.map c.pc c.slot (.sleep u) s.clock), 0))

/-- Sleepers resume at the next packet: those of a core's resident groups, at a launch, a relaunch or a wake there, or of
every group, resident or saved, at a change of power state (R224). -/
def State.wakeSleepers (s : State) (here : Group → Bool) : State :=
  { s with groups := s.groups.map (fun e =>
      (e.1, if e.2.life != .ended && here e.2 then
          (e.2.parked.filter (fun p => match p.why with
            | .sleep _ => true
            | _ => false)).foldl (fun g p => g.resumeNext p) e.2
        else e.2)) }

def State.wakeCore (s : State) (core : Nat) : State := s.wakeSleepers (fun g => g.life == .resident && g.core == core)

/-- SLEEP_TIMEOUT (R224): the k-th wait of a group, a sleep whose time has elapsed. -/
def execSleepTimeout (id k : Nat) (s : State) : Out :=
  match SMap.find s.groups id with
  | some g =>
    match g.parked[k]? with
    | some p =>
      (match p.why with
        | .sleep u =>
          if u != 0 && u ≤ s.clock && g.life == .resident then .next (s.setGroup id (g.resumeNext p)) else .next s
        | _ => .next s)
    | none => .next s
  | none => .next s

/-! ## Snapshot events -/

/-- SNAPTRIG_WRITE and SNAPIN_PIN (R474). -/
def execSnaptrigWrite (v : Nat) (s : State) : Out := .next (s.snapFire 1 (v % 2 ^ 8))
def execSnapinPin (s : State) : Out := .next (if flagBit s.snap.snapctl 1 then s.snapFire 2 0 else s)

end Sys2Proof.Machine
end

