-- ==== Sys2Proof/Machine/Launch.lean ====
section
/-! DEFINITION. Launches (R249 to R252): the LPB and its tables, the refusals, dependants and triggers (R254),
completion records and interrupt messages (R434 to R436), and the retirement of a grid (R254, R330). -/

namespace Sys2Proof.Machine

/-! ## Reading through path H -/

/-- Bytes within a page of a context as the front end reads them through path H at the SLC, in user mode (R249, R284, R384;
the Kennel aperture lies on paths L, T and C only, R274; log 28), zeros from a carve-out (R456): none where refused, or where
an uncorrectable error has poisoned them (R464), or the page request that the access awaits (R392). -/
def State.frontPage (s : State) (q : TransReq) (va n : Nat) : Except (Option (Bool × Nat)) (List Byte) :=
  if 2 ^ 48 ≤ va then .error none
  else match s.translate q va with
  | .ok pa _ => if poisoned s.mem.poison pa n then .error none else .ok (s.hRead pa n).2
  | .absent => .error (some (false, va))
  | .denied => .error none
  | .soft => .error none
  | .stage2 gpa => .error (some (true, gpa))

/-- What such a read of n bytes, in at most two pages, leaves: owners answered for their words, or VIOL advanced (R284, R456). -/
def State.touchPage (s : State) (q : TransReq) (va n : Nat) : State :=
  match s.translate q va with
  | .ok pa _ => if n = 0 then s else (s.hRead pa n).1
  | _ => s
def State.frontTouch (s : State) (q : TransReq) (va n : Nat) : State :=
  let k := min n (4096 - va % 4096)
  (s.touchPage q va k).touchPage q (va + k) (n - k)

/-- At most 4096 bytes, which may lie in two pages. -/
def State.frontRead (s : State) (q : TransReq) (va n : Nat) : Except (Option (Bool × Nat)) (List Byte) :=
  let k := min n (4096 - va % 4096)
  match s.frontPage q va k with
  | .error e => .error e
  | .ok d =>
    if k = n then .ok d
    else match s.frontPage q (va + k) (n - k) with
    | .error e => .error e
    | .ok e => .ok (d ++ e)

/-- Where a write through path H at an address of a context goes (R384, R392): a physical address, a refusal (none), or the
page that it awaits. -/
def State.hPlace (s : State) (engine : Cache) (ctx va : Nat) : Except (Option (Bool × Nat)) Nat :=
  match s.translate ⟨engine, ctx, false, .write⟩ va with
  | .ok pa _ => .ok pa
  | .absent => .error (some (false, va))
  | .denied => .error none
  | .soft => .error none
  | .stage2 gpa => .error (some (true, gpa))

/-- The physical runs of a record of 16 bytes there, which may lie in two pages. -/
def State.recordRuns (s : State) (ctx va : Nat) : Except (Option (Bool × Nat)) (List (Nat × Nat)) :=
  let k := min 16 (4096 - va % 4096)
  match s.hPlace .frontEnd ctx va with
  | .error e => .error e
  | .ok pa =>
    if k = 16 then .ok [(pa, 16)]
    else match s.hPlace .frontEnd ctx (va + k) with
    | .error e => .error e
    | .ok pb => .ok [(pa, k), (pb, 16 - k)]

/-- Bytes written over physical runs through path H. -/
def State.hWriteRuns (s : State) : List (Nat × Nat) → List Byte → State
  | [], _ => s
  | (a, k) :: r, d => State.hWriteRuns (s.hWrite a (d.take k)) r (d.drop k)

/-- A write through path H awaits a page (R392). -/
def State.hWait (s : State) (engine : Cache) (path ctx va : Nat) (kind : HKind) (st2 : Bool) (addr : Nat) : State :=
  let (s, k) := s.postPage engine ctx path st2 true addr
  { s with hwaits := s.hwaits ++ [⟨ctx, va, kind, k⟩] }

/-- 8-byte numbers of a run of bytes. -/
def numbers8 (d : List Byte) : Nat → List Nat
  | 0 => []
  | n + 1 => natOf (d.take 8) :: numbers8 (d.drop 8) n

/-! ## The context control block -/

/-- The images of a Kennel and of a Mire configuration (R318, R334). -/
def partImage (e : Part) (ceil floor : Nat) : Nat := b2n e.en * 2 ^ 63 + b2n e.sh * 2 ^ 62 + e.ceil * 2 ^ ceil + e.floor * 2 ^ floor
def Pool.kimage (p : Pool) : List Byte :=
  bytesOf 8 p.size ++ (List.range 16).flatMap (fun q => bytesOf 8 (partImage (p.part q) 16 0))
def Pool.mimage (p : Pool) : List Byte :=
  bytesOf 8 p.base ++ bytesOf 8 p.size ++ (List.range 16).flatMap (fun q => bytesOf 8 (partImage (p.part q) 24 0))

/-- A persistent grid (R453). -/
def State.persists (s : State) (r : Grid) : Bool := r.lpb.cls == 0 && r.lpb.persist && (s.ctx r.ctx).pctx

/-- A grid record (R466): 01 queued, 10 running, 11 retired with its DONE add or its completion record to come. -/
def Grid.record (r : Grid) (id : Nat) (pers : Bool) : Nat :=
  let state := if r.retired then 3 else if r.placed = 0 then 1 else 2
  let (q, seq) := match r.packet with
    | some p => (p.q, p.seq)
    | none => (63, 0)
  r.lpbAddr * 2 ^ 80 + gridNumber id * 2 ^ 48 + state * 2 ^ 46 + b2n pers * 2 ^ 45 + q * 2 ^ 32 + seq * 2 ^ 16

/-- The queue entries and the grid records of a context's control block (R466). -/
def State.ccbQueue (s : State) (ctx q : Nat) : List Byte :=
  match SMap.find s.host.ifaces q with
  | some i => bytesOf 4 (if i.opened && i.ctx == ctx then 2 ^ 31 + i.head else 0)
  | none => bytesOf 4 0
def State.ccbGrid (s : State) (ctx k : Nat) : List Byte :=
  match s.grids.find? (fun e => e.2.ctx == ctx && e.2.slot == k && !e.2.discarded) with
  | some (id, r) => bytesOf 16 (r.record id (s.persists r))
  | none => bytesOf 16 0

/-- A context's control block (R465). -/
def State.ccb (s : State) (ctx : Nat) (c : Ctx) : List Byte :=
  bytesOf 32 (0x4243434C + c.ccbGen % 2 ^ 32 * 2 ^ 32 + ctx * 2 ^ 64 + b2n c.pctx * 2 ^ 80)
  ++ c.kcfg.kimage ++ c.mcfg.mimage ++ List.replicate 8 0
  ++ (List.range 64).flatMap (fun q => s.ccbQueue ctx q)
  ++ (List.range 28).flatMap (fun k => s.ccbGrid ctx k)

/-- The control block written at the start of the save area through path H (R465); where its page is not present, once the
page request has been resolved, with what it then holds (R392; log 106). -/
def State.putCcb (s : State) (ctx : Nat) : State :=
  match s.hPlace .frontEnd ctx (s.ctx ctx).save with
  | .ok pa => s.hWrite pa (s.ccb ctx (s.ctx ctx))
  | .error none => s
  | .error (some (st2, a)) => s.hWait .frontEnd 5 ctx (s.ctx ctx).save .control st2 a

/-- The control block of a context waits for its page: what depends on its last change is not visible yet (R465). -/
def State.ccbPending (s : State) (ctx : Nat) : Bool := s.hwaits.any (fun w => w.ctx == ctx && w.kind == .control)

/-- The same after a change of the context's state, the generation advanced. -/
def State.syncCcb (s : State) (ctx : Nat) : State :=
  if !(s.ctx ctx).bound then s
  else
    let s := s.modCtx ctx (fun c => { c with ccbGen := c.ccbGen + 1 })
    if s.ccbPending ctx then s else s.putCcb ctx

/-- A change that cannot be written into the control block now is put off until its page is there (R392, R465): the state with
that page asked for; none where the block can be written. -/
def State.ccbGate (s : State) (ctx : Nat) : Option State :=
  if !(s.ctx ctx).bound then none
  else if s.ccbPending ctx then some s
  else match s.hPlace .frontEnd ctx (s.ctx ctx).save with
  | .error (some (st2, a)) => some (s.hWait .frontEnd 5 ctx (s.ctx ctx).save .control st2 a)
  | _ => none

/-! ## The launch parameter block -/

/-- The LPB of 1024 bits (R249). -/
def lpbOf (x : Nat) : Lpb :=
  { ntask := bits x 694 688, tasks := bits x 687 640, done := bits x 623 576, ndep := bits x 567 560,
    deps := bits x 559 512, nnode := bits x 502 496, graph := bits x 495 448, cbt := bits x 431 384,
    budget := bits x 383 352, deadline := bits x 351 320, depwait := bits x 303 296, persist := flagBit x 294,
    priority := bits x 293 290, cls := bits x 289 288, safept := bits x 287 272, tceil := bits x 271 256,
    linkres := bits x 255 248, tpart := bits x 247 244, kpart := bits x 243 240, ksl := bits x 239 224,
    win := bits x 223 208, tls := bits x 207 192, sregs := bits x 191 184, vregs := bits x 182 176,
    teamz := bits x 175 160, teamy := bits x 159 144, teamx := bits x 143 128, swizzle := bits x 115 110,
    order := bits x 109 108, crows := bits x 107 105, ccols := bits x 104 102, ngrp := bits x 101 98 + 1,
    width := 8 * 2 ^ bits x 97 96, entry := bits x 95 64, code := bits x 47 0 }

/-- Some zero field of the LPB is set (R249). -/
def lpbZeros (x : Nat) : Bool :=
  bits x 1023 695 != 0 || bits x 639 624 != 0 || bits x 575 568 != 0 || bits x 511 503 != 0 || bits x 447 432 != 0
  || bits x 319 304 != 0 || flagBit x 295 || flagBit x 183 || bits x 127 116 != 0 || bits x 63 48 != 0

/-- Rounded vector registers (R12), teams of a cluster and clusters of a grid (R233). -/
def Lpb.vround (l : Lpb) : Nat := (l.vregs + 7) / 8 * 8
def Lpb.cluster (l : Lpb) : Nat := (l.crows + 1) * (l.ccols + 1)
def Lpb.teams (l : Lpb) : Nat := l.teamx * l.teamy * l.teamz
def Lpb.clusters (l : Lpb) : Nat := l.teams / l.cluster

/-- Units of every context's Kennel slice on a core (R275). -/
def State.slices (s : State) : Nat := s.ctxs.foldl (fun a e => a + e.2.kcfg.size) 0

/-- A class D partition that the reservation keeps from a grid of another class (R252, R260). -/
def State.keeps (s : State) (l : Lpb) (hi lo part : Nat) : Bool :=
  flagBit s.host.dres 63 && l.cls != 0 && bits s.host.dres hi lo == part

/-- A field of the LPB outside its range (R252, 0x03). -/
def State.lpbRange (s : State) (c : Ctx) (l : Lpb) : Bool :=
  l.cls == 3 || decide (64 < l.ntask) || decide (16 < l.ndep) || decide (64 < l.nnode) || decide (l.safept < 64)
  || decide (192 < l.linkres) || decide (24576 < l.ksl) || decide (l.sregs < 2) || decide (128 < l.sregs)
  || decide (l.vregs < 1) || decide (64 < l.vregs) || l.teamx == 0 || l.teamy == 0 || l.teamz == 0 || decide (5 < l.crows)
  || (decide (1 < l.order) && l.swizzle != 0)
  || (l.cls != 0 && (l.deadline != 0 || l.budget != 0 || l.persist)) || (l.cls == 0 && l.deadline == 0)
  || (l.ntask == 0 && l.tasks != 0)
  || (l.ksl != 0 && (!(c.kcfg.part l.kpart).en || s.keeps l 58 55 l.kpart))
  || (l.tceil != 0 && (!(c.mcfg.part l.tpart).en || s.keeps l 62 59 l.tpart))

/-- The code that refuses an LPB by itself, or 0 (R252). -/
def State.lpbCode (s : State) (ctx addr x : Nat) : Nat :=
  let l := lpbOf x
  let c := s.ctx ctx
  if addr % 128 ≠ 0 || l.code % 256 != 0 || l.cbt % 128 != 0 || l.tasks % 8 != 0 || l.deps % 8 != 0 || l.graph % 16 != 0
      || l.done % 8 != 0 || l.entry % 12 != 0 then 0x01
  else if lpbZeros x then 0x02
  else if s.lpbRange c l then 0x03
  else if 2 ^ 32 - 1 < l.teams || l.teams % l.cluster != 0 || (l.cluster != 1 && (l.order != 0 || l.swizzle != 0)) then 0x04
  else if 12 < l.cluster || 1536 * 1024 < l.ngrp * l.width * l.vround * 4 + 3 * 2048 * l.linkres
      || 8 * 2 ^ 20 < 256 * (l.tls + l.win) + 256 * s.slices
      || (l.ksl != 0 && !c.kcfg.canGrant (fun _ => 0) l.kpart l.ksl) then 0x05
  else if l.cls = 0 && !flagBit s.host.dres 63 then 0x06
  else 0

/-- The tables that an LPB names (R250, R251): bank, task, dependant entries of 8 bytes and nodes of 16. -/
structure Tables where
  banks : List Nat
  tasks : List Nat
  deps : List Nat
  nodes : List Nat
  deriving DecidableEq, Repr

/-- n bytes of a table, none of it when the LPB names no entry. -/
def State.table (s : State) (q : TransReq) (va n : Nat) : Except (Option (Bool × Nat)) (List Nat) :=
  if n = 0 then .ok [] else match s.frontRead q va (8 * n) with
  | .ok d => .ok (numbers8 d n)
  | .error e => .error e

/-- Numbers joined two by two. -/
def joinTwos : List Nat → List Nat
  | a :: b :: r => (a + b * 2 ^ 64) :: joinTwos r
  | _ => []
def State.tables (s : State) (q : TransReq) (l : Lpb) : Except (Option (Bool × Nat)) Tables :=
  match s.table q l.cbt (if l.cbt = 0 then 0 else 16), s.table q l.tasks l.ntask, s.table q l.deps l.ndep,
      s.table q l.graph (2 * l.nnode) with
  | .ok b, .ok t, .ok d, .ok n => .ok ⟨b, t, d, joinTwos n⟩
  | .error e, _, _, _ => .error e
  | _, .error e, _, _ => .error e
  | _, _, .error e, _ => .error e
  | _, _, _, .error e => .error e

/-- A node of a graph table (R251), and a task-table entry (R250). -/
def nodeOf (x : Nat) : Node :=
  { entry := bits x 127 96, ceil := bits x 95 80, floor := bits x 79 64, timeout := bits x 63 48,
    recsz := 16 * (bits x 47 44 + 1), mpart := bits x 43 40, batch := bits x 39 33 }
def taskOf (x : Nat) : TaskEntry := ⟨bits x 63 32, 16 * (bits x 31 28 + 1)⟩

/-- A node outside its ranges, or in a partition that it may not name (R251, R252). -/
def State.nodeBad (s : State) (c : Ctx) (l : Lpb) (n : Node) : Bool :=
  decide (n.ceil < 1) || decide (n.floor < n.batch) || decide (n.ceil < n.floor) || decide (n.timeout < 1)
  || decide (1000 < n.timeout) || decide (n.batch < 1) || decide (64 < n.batch)
  || !(c.mcfg.part n.mpart).en || s.keeps l 62 59 n.mpart

/-- The grid of a launch, before it has its identifier. -/
def gridOf (i : Launch) (super : Bool) (l : Lpb) (t : Tables) : Grid :=
  { ctx := i.ctx, lpbAddr := i.lpb, lpb := l, banks := if l.cbt = 0 then List.replicate 16 0 else t.banks,
    taskTable := t.tasks.map taskOf, nodes := t.nodes.map nodeOf, deps := t.deps, mode := super, arrived := i.arrived,
    packet := i.packet, root := i.root, kin := i.kin, got := i.got, waiting := i.packet.isSome && decide (i.got < l.depwait) }

/-- The Mire shares of a grid in a partition, in granules (R335). -/
def Grid.partShare (r : Grid) (q : Nat) : Nat :=
  (((List.range r.nodes.length).map some ++ [none]).filter (fun n => r.mirePart n == q)).foldl (fun a n => a + r.mireShare n) 0

/-- The code that refuses a launch by its tables, or 0 (R252). -/
def State.tableCode (s : State) (r : Grid) (t : Tables) : Nat :=
  let c := s.ctx r.ctx
  if t.banks.any (fun b => bits b 47 0 % 256 != 0) || r.taskTable.any (fun e => e.entry % 12 != 0)
      || r.nodes.any (fun n => n.entry % 12 != 0) then 0x01
  else if t.banks.any (fun b => bits b 63 48 != 0) || t.tasks.any (fun e => bits e 27 0 != 0)
      || t.deps.any (fun d => bits d 63 48 != 0) || t.nodes.any (fun n => bits n 32 0 != 0) then 0x02
  else if r.nodes.any (s.nodeBad c r.lpb)
      || (List.range 16).any (fun q => decide ((c.mcfg.part q).ceil < r.partShare q)) then 0x03
  else 0

/-- What a launch comes to: a grid, a refusal with its KIND and code, or a wait for a page, with the LPB where it has been
read by then. -/
inductive Launched where
  | grid (r : Grid)
  | refused (kind : Nat) (code : Nat)
  | page (st2 : Bool) (addr : Nat) (wr : Bool) (image : Option Nat)
  deriving DecidableEq, Repr

/-- How a packet's CADDR fails to translate, if it does (R434). -/
def State.caddrFails (s : State) (ctx caddr : Nat) : Option (Option (Bool × Nat)) :=
  if caddr = 0 then none
  else match s.hPlace .frontEnd ctx caddr with
  | .ok _ => none
  | .error e => some e

/-- A failing access of a launch: a wait for its page, or a refusal with a KIND and a code. -/
def launchFails (e : Option (Bool × Nat)) (wr : Bool) (image : Option Nat) (why : Nat × Nat) : Launched :=
  match e with
  | some (st2, a) => .page st2 a wr image
  | none => .refused why.1 why.2

/-- The front end's reads for a context. -/
def frontReq (ctx : Nat) : TransReq := ⟨.frontEnd, ctx, false, .read⟩

/-- A launch's LPB, read once (R249). -/
def State.lpbImage (s : State) (i : Launch) : Except (Option (Bool × Nat)) Nat :=
  match i.image with
  | some x => .ok x
  | none => (s.frontRead (frontReq i.ctx) i.lpb 128).map natOf

/-- The refusal of a launch whose LPB cannot be read (R252, R434): 0x05 to a packet where the address does not translate,
else 0x07. -/
def State.lpbWhy (s : State) (i : Launch) : Nat × Nat :=
  if i.packet.isNone then (1, 0x07)
  else match s.translate (frontReq i.ctx) i.lpb with
  | .ok _ _ => (1, 0x07)
  | _ => (2, 0x05)

/-- A launch's LPB and tables read and checked (R249 to R252, R434): a packet whose LPB or CADDR does not translate
is refused with 0x05; an LPB or a table whose read fails, with 0x07. A page request that has resolved as failed fails the
access that waited for it: a table's once the LPB has been read, else the LPB's or CADDR's (R394). -/
def State.check (s : State) (i : Launch) (super : Bool) : Launched :=
  if i.failed then
    (if i.image.isSome || i.packet.isNone then .refused 1 0x07 else .refused 2 0x05)
  else match (if i.image.isSome then none else s.caddrFails i.ctx ((i.packet.map (fun p => p.caddr)).getD 0)) with
  | some e => launchFails e true none (2, 0x05)
  | none =>
    match s.lpbImage i with
    | .error e => launchFails e false none (s.lpbWhy i)
    | .ok x =>
      let c := s.lpbCode i.ctx i.lpb x
      if c ≠ 0 then .refused 1 c
      else match s.tables (frontReq i.ctx) (lpbOf x) with
      | .error e => launchFails e false (some x) (1, 0x07)
      | .ok t =>
        let r := gridOf i super (lpbOf x) t
        let c := s.tableCode r t
        if c ≠ 0 then .refused 1 c else .grid r

/-! ## Reports -/

/-- A completion record (R435). -/
def recordImage (p : Packet) (kind code : Nat) : Nat :=
  code + kind * 2 ^ 8 + p.seq * 2 ^ 16 + p.pasid * 2 ^ 32 + p.q * 2 ^ 58

/-- A record at an interface's error record (R434, R444). -/
def State.toError (s : State) (p : Packet) (kind code : Nat) : State := s.hWrite p.erra (bytesOf 16 (recordImage p kind code))

/-- A refusal's record at CADDR where it translates under a PASID that stands, else at the error record (R434). A page of
CADDR that is not present is awaited (R392; log 87), but for a refusal that a page request has itself caused. -/
def State.toCaddr (s : State) (ctx : Nat) (p : Packet) (kind code : Nat) (wait : Bool) : State :=
  if p.caddr = 0 || s.host.revoked.contains p.pasid then s.toError p kind code
  else match s.recordRuns ctx p.caddr, wait with
  | .ok l, _ => s.hWriteRuns l (bytesOf 16 (recordImage p kind code))
  | .error (some (st2, a)), true => s.hWait .frontEnd 5 ctx p.caddr (.record p kind code) st2 a
  | .error _, _ => s.toError p kind code

/-- The interrupt message of a completion (R436). -/
def State.message (s : State) (p : Packet) : State :=
  let (s, d) := s.hRead (p.rtab + 16 * p.ire) 16
  let e := natOf d
  if !flagBit e 127 || bits e 124 96 != 0 || bits e 1 0 != 0 then s.toError p 2 0x04
  else if flagBit e 126 then s.hWrite (p.rtab + 16 * p.ire + 15) [BitVec.ofNat 8 (bits e 127 120 ||| 0x20)]
  else { s with host := { s.host with messages := s.host.messages ++ [(bits e 63 2 * 4, bits e 95 64)] } }

/-- A refused launch's report; a dependant's goes to the error record of the interface whose packet led to it,
with KIND 01 (R252; log 23). -/
def State.refuse (s : State) (i : Launch) (kind code : Nat) : State :=
  match i.packet, i.root with
  | some p, _ => s.toCaddr i.ctx p kind code (kind != 2)
  | none, some p => s.toError p 1 code
  | none, none => s

/-! ## Launch -/

/-- A launch leaves the list of those that have arrived; or waits for a page. -/
def State.dropLaunch (s : State) (k : Nat) : State := { s with host := { s.host with launches := s.host.launches.eraseIdx k } }
def State.setLaunch (s : State) (k : Nat) (i : Launch) : State := { s with host := { s.host with launches := s.host.launches.set k i } }

/-- The lowest record of its context's control block that no grid uses (R465). -/
def State.freeRecord (s : State) (ctx : Nat) : Option Nat :=
  (List.range 28).find? (fun k => s.grids.all (fun e => e.2.ctx != ctx || e.2.slot != k))

/-- A grid enters the queue of its class with the next identifier. -/
def State.addGrid (s : State) (r : Grid) (slot : Nat) : State :=
  ({ s with grids := SMap.put s.grids s.nextId { r with slot := slot }, nextId := s.nextId + 1 }).syncCcb r.ctx

/-- What the reads of a launch leave: the LPB, once, and the tables that it names (R249, R284, R456). -/
def State.launchReads (s : State) (i : Launch) : State :=
  let q := frontReq i.ctx
  let s := if i.failed || i.image.isSome then s else s.frontTouch q i.lpb 128
  match s.lpbImage i with
  | .error _ => s
  | .ok x =>
    if i.failed || s.lpbCode i.ctx i.lpb x ≠ 0 then s
    else
      let l := lpbOf x
      (((s.frontTouch q l.cbt (if l.cbt = 0 then 0 else 128)).frontTouch q l.tasks (8 * l.ntask)).frontTouch q l.deps (8 * l.ndep)).frontTouch
        q l.graph (16 * l.nnode)

/-- The k-th launch is checked: it is queued, refused, or waits (R253, R392). -/
def State.launch (s : State) (k : Nat) (i : Launch) (super : Bool) : State :=
  match s.freeRecord i.ctx with
  | none => s
  | some slot =>
    let out := s.check i super
    let s := s.launchReads i
    match out with
    | .grid r => ((s.dropLaunch k).cacheXlat ⟨.frontEnd, i.ctx, false, .read⟩ i.lpb).addGrid r slot
    | .refused kind code => (s.dropLaunch k).refuse i kind code
    | .page st2 a wr image =>
      let (s, w) := s.postPage .frontEnd i.ctx 5 st2 wr a
      s.setLaunch k { i with waits := some w, image := image }

/-- The first launch of some, not waiting for a page, for whose grid a record is free (R465). -/
def State.nextLaunch (s : State) (f : Launch → Bool) : Option (Nat × Launch) :=
  match s.host.launches.findIdx? (fun i => f i && i.waits.isNone && (s.freeRecord i.ctx).isSome) with
  | some k => (s.host.launches[k]?).map (fun i => (k, i))
  | none => none

/-- LAUNCH (R253): the oldest launch of a packet, or one that a recovery makes again, that awaits no page. -/
def execLaunch (s : State) : Out :=
  match s.nextLaunch (fun i => i.packet.isSome || i.again) with
  | some (k, i) => .next (if s.frozen then s else s.launch k i i.super)
  | none => .next s

/-! ## Triggers and dependants -/

/-- Every team of the grid has been launched, and each of its threads has triggered or ceased to be live (R86). -/
def State.triggerHolds (s : State) (id : Nat) (r : Grid) : Bool :=
  !r.triggered && !r.discarded && r.placed == r.lpb.clusters && !r.waiting
  && s.groups.all (fun e => e.2.grid != id || e.2.isTask || e.2.batch.isSome || e.2.live &&& ~~~e.2.triggered == 0)

/-- The packet launch that waits for triggers at an LPB and whose packet is the oldest (R254); the lower identifier first among
packets of one clock. -/
def State.oldestWaiting (s : State) (ctx addr : Nat) : Option (Nat × Grid) :=
  s.grids.foldl (fun b e =>
    if e.2.ctx == ctx && e.2.lpbAddr == addr && e.2.waiting && !e.2.discarded then
      (match b with
        | some h => if e.2.arrived < h.2.arrived then some e else b
        | none => some e)
    else b) none

/-- A trigger counted against an LPB (R254): to the oldest packet launch that waits there, else toward the
scheduler's own launch, which is then to be tried. -/
def State.countTrigger (s : State) (r : Grid) (addr : Nat) : State :=
  match s.oldestWaiting r.ctx addr with
  | some (k, w) => { s with grids := SMap.put s.grids k { w with got := w.got + 1, waiting := decide (w.got + 1 < w.lpb.depwait) } }
  | none =>
    let s := s.modCtx r.ctx (fun c =>
      { c with triggers := SMap.put c.triggers addr (SMap.getD c.triggers addr [] ++ [⟨s.clock, r.mode, r.root, r.kin || s.persists r⟩]) })
    if s.host.launches.any (fun i => i.packet.isNone && !i.again && i.ctx == r.ctx && i.lpb == addr) then s
    else { s with host := { s.host with launches := s.host.launches ++
      [{ ctx := r.ctx, lpb := addr, super := false, packet := none, root := r.root, arrived := s.clock, waits := none, failed := false }] } }

/-- A grid's triggers are counted once (R86, R254). -/
def State.fireTriggers (s : State) (id : Nat) (r : Grid) : State :=
  (r.deps.map (fun d => bits d 47 0)).foldl (fun (s : State) a => s.countTrigger r a) (s.modGrid id (fun r => { r with triggered := true }))

/-- A dependant is tried: dropped while its count is below DEPWAIT, else launched with the counts that launch it
consumed, in supervisor mode when every one of those came from a supervisor grid (R254, R365); it arrives with the last of
them, and the counts left are tried after it. -/
def State.tryDependant (s : State) (k : Nat) (i : Launch) : State :=
  let l := SMap.getD (s.ctx i.ctx).triggers i.lpb []
  let n := match s.lpbImage i with
    | .ok x => (lpbOf x).depwait
    | .error _ => 0
  if l.length < n || l.isEmpty then s.dropLaunch k
  else
    let used := l.take (max 1 n)
    let last := used.getLast?
    let t := s.launch k { i with
      root := (last.map (fun e => e.root)).getD none, arrived := (last.map (fun e => e.time)).getD i.arrived
      kin := used.any (fun e => e.kin) } (used.all (fun e => e.super))
    if t.host.launches.length = s.host.launches.length then t
    else
      let left := l.drop (max 1 n)
      let t := t.modCtx i.ctx (fun c =>
        { c with triggers := if left.isEmpty then SMap.erase c.triggers i.lpb else SMap.put c.triggers i.lpb left })
      if left.isEmpty then t else { t with host := { t.host with launches := t.host.launches ++ [{ i with waits := none, failed := false, image := none }] } }

/-- DEPENDANT_LAUNCH (R254): the triggers of a grid whose condition holds are counted; else the oldest dependant
that awaits no page is tried. -/
def execDependantLaunch (s : State) : Out :=
  match s.grids.find? (fun e => s.triggerHolds e.1 e.2) with
  | some (id, r) => .next (s.fireTriggers id r)
  | none =>
    match s.nextLaunch (fun i => i.packet.isNone && !i.again) with
    | some (k, i) => .next (if s.frozen then s else s.tryDependant k i)
    | none => .next s

/-! ## Retirement -/

/-- Nothing of a grid is left to run (R254). -/
def State.gridDone (s : State) (id : Nat) (r : Grid) : Bool :=
  s.teams.all (fun e => e.2.grid != id) && s.copies.all (fun e => ((SMap.find s.teams e.2.team).map (fun t => t.grid)) != some id)
  && (r.discarded || (r.placed == r.lpb.clusters && !r.waiting && r.tasks.isEmpty && r.aborted.isEmpty && r.ready.isEmpty
    && r.committed.all (fun e => e.2.isEmpty)))

/-- Every write of every core becomes visible at scope sys; render-target words in flight reach their slices first. -/
def State.writeAll (s : State) : State :=
  let s := s.settleTargets (fun _ => true)
  { s with mem := (List.range 48).foldl (fun (m : MemSys) c => m.release c 4) s.mem }

/-- A grid's shares return: units no tile holds at once, the others as common space (R330); its Mire space too. -/
def State.returnShares (s : State) (id : Nat) : State :=
  { s with
    kennel := { s.kennel with
      tiles := s.kennel.tiles.map (fun t => if t.share = some id then { t with share := none } else t)
      shares := s.kennel.shares.filter (fun h => h.grid != id) }
    mire := s.mire.filter (fun b => b.grid != id) }

/-- The record of a grid in its context's error log (R447). -/
def State.logNamed (s : State) (type ctx name reason amount : Nat) : State :=
  s.logError ctx (amount % 2 ^ 32 + reason * 2 ^ 32 + name % 2 ^ 32 * 2 ^ 40 + ctx * 2 ^ 104 + type * 2 ^ 120)
def State.logGrid (s : State) (type ctx id reason amount : Nat) : State := s.logNamed type ctx (gridNumber id) reason amount

/-- The end of a grid whose DONE add has been made or has failed: its completion record, which may await a page (R392), then
its message, and its identifier and its record are free (R435, R466). -/
def State.finishGrid (s : State) (id : Nat) (r : Grid) : State :=
  let close := fun (s : State) => ({ s with grids := SMap.erase s.grids id }).syncCcb r.ctx
  match r.packet with
  | none => close s
  | some p =>
    if p.cmode = 0 then close s
    else
      let told := fun (s : State) => close (if p.cmode = 2 then s.message p else s)
      if p.caddr = 0 || s.host.revoked.contains p.pasid || r.doneFailed then told (s.toError p 0 0)
      else match s.hPlace .frontEnd r.ctx p.caddr with
      | .ok pa => told (s.hWrite pa (bytesOf 16 (recordImage p 0 0)))
      | .error none => told (s.toError p 0 0)
      | .error (some (st2, a)) =>
        let (s, k) := s.postPage .frontEnd r.ctx 5 st2 true a
        s.modGrid id (fun r => { r with doneWait := some k })

/-- The end of a grid whose DONE add has been made or left out: its completion is reported (R254, R435). -/
def State.endGrid (s : State) (id : Nat) (r : Grid) : State :=
  let done := fun (r : Grid) => { r with added := true, doneFailed := false }
  (s.modGrid id done).finishGrid id (done r)

/-- A grid's DONE add (R254), translated as an access of path H: a page that it misses is awaited, and an add that memory
refuses, or whose page request has resolved as failed, is left out and recorded. -/
def State.addDone (s : State) (id : Nat) (r : Grid) : State :=
  let a := r.lpb.done
  if a = 0 then s.endGrid id r
  else if r.doneFailed then (s.logGrid 0x05 r.ctx id 0 0).endGrid id r
  else match s.hPlace .frontEnd r.ctx a with
  | .ok pa =>
    let s := if s.svc.covers pa 8 then s.violate else { s with mem := s.mem.addSys pa 1 }
    (s.cacheXlat ⟨.frontEnd, r.ctx, false, .write⟩ a).endGrid id r
  | .error none => (s.logGrid 0x05 r.ctx id 0 0).endGrid id r
  | .error (some (st2, addr)) =>
    let (s, k) := s.postPage .frontEnd r.ctx 5 st2 true addr
    s.modGrid id (fun r => { r with doneWait := some k })

/-- A retired grid goes on to its DONE add or its completion record, once its context's control block shows it as retired
(R465, R466). -/
def State.goOn (s : State) (id : Nat) (r : Grid) : State :=
  if s.ccbPending r.ctx then s else if r.added then s.finishGrid id r else s.addDone id r

/-- A grid retires (R254): triggers that were still owed, every write visible, its shares returned (R330), a passed deadline
recorded (R261), and the control block. -/
def State.retire (s : State) (id : Nat) (r : Grid) : State :=
  let due := r.arrived + r.lpb.deadline * 1400
  let s := ((if r.triggered then s else s.fireTriggers id r).writeAll).returnShares id
  let s := if r.lpb.cls = 0 && due < s.clock then s.logGrid 0x03 r.ctx id 0 (min ((s.clock - due) / 1400) (2 ^ 32 - 1)) else s
  (s.modGrid id (fun r => { r with retired := true, started := false })).syncCcb r.ctx

/-- GRID_RETIRE (R254): the retirement, then the DONE add and the completion. A grid that the host has discarded does not
retire: it goes with the restart (R453), or its shares stand until the teardown of its context (R451). -/
def execGridRetire (id : Nat) (s : State) : Out :=
  match SMap.find s.grids id with
  | none => .next s
  | some r =>
    if r.discarded || !s.gridDone id r || r.doneWait.isSome then .next s
    else if r.retired then .next (s.goOn id r)
    else .next ((s.retire id r).goOn id { r with triggered := true, retired := true, started := false })

/-- A grid runs (R466): some team of it has been placed, and it has neither retired nor come to its end. -/
def State.gridRuns (s : State) (id : Nat) (r : Grid) : Bool := r.placed != 0 && !r.retired && !(r.discarded && s.gridDone id r)

end Sys2Proof.Machine
end

