-- ==== Sys2Proof/Machine/Place.lean ====
section
/-! DEFINITION. Placement: the queues (R253), the order of teams (R257), admission and the choice of cores (R234,
R255, R260, R319), the groups of a placed team (R13, R276), task groups (R242, R258) and batches (R100, R259). -/

namespace Sys2Proof.Machine

/-! ## The order of teams -/

/-- The n-th point of an a × b rectangle taken in strips w wide across a: strip by strip, row by row (R257). -/
def stripPoint (a b w n : Nat) : Nat × Nat :=
  let k := n / (w * b)
  let i := n - k * (w * b)
  let v := min w (a - k * w)
  (k * w + i % v, i / v)

/-- Every second bit of a code, from bit 0 (Morton). -/
def evenBits : Nat → Nat → Nat
  | 0, _ => 0
  | k + 1, m => m % 2 + 2 * evenBits k (m / 4)
def mortonPoint (m : Nat) : Nat × Nat := (evenBits 16 m, evenBits 16 (m / 2))

/-- Hil(n, d) of R257, k levels from side s on. -/
def hilbertFrom : Nat → Nat → Nat → Nat → Nat → Nat × Nat
  | 0, _, _, x, y => (x, y)
  | k + 1, s, t, x, y =>
    let rx := t / 2 % 2
    let ry := (t ^^^ rx) % 2
    let (x, y) := if ry = 0 then (if rx = 1 then (s - 1 - y, s - 1 - x) else (y, x)) else (x, y)
    hilbertFrom k (2 * s) (t / 4) (x + s * rx) (y + s * ry)

/-- The least k with m ≤ 2^k, from k on. -/
def sideLog : Nat → Nat → Nat → Nat
  | 0, _, k => k
  | f + 1, m, k => if m ≤ 2 ^ k then k else sideLog f m (k + 1)

/-- The n-th point inside a × b along a curve, from code d on. -/
def curvePoint (f : Nat → Nat × Nat) (a b : Nat) : Nat → Nat → Nat → Nat × Nat
  | 0, _, _ => (0, 0)
  | fuel + 1, d, n =>
    let p := f d
    if p.1 < a && p.2 < b then (if n = 0 then p else curvePoint f a b fuel (d + 1) (n - 1))
    else curvePoint f a b fuel (d + 1) n

/-- The linear index of the n-th team in traversal order (R233, R257). -/
def Lpb.nthTeam (l : Lpb) (n : Nat) : Nat :=
  let plane := l.teamx * l.teamy
  let i := n % plane
  let w := l.swizzle + 1
  let k := sideLog 16 (max l.teamx l.teamy) 0
  let p := match l.order with
    | 0 => if w = 1 then (i % l.teamx, i / l.teamx) else stripPoint l.teamx l.teamy w i
    | 1 => if w = 1 then (i / l.teamy, i % l.teamy) else (stripPoint l.teamy l.teamx w i).swap
    | 2 => curvePoint mortonPoint l.teamx l.teamy (4 ^ k) 0 i
    | _ => curvePoint (fun d => hilbertFrom k 1 d 0 0) l.teamx l.teamy (4 ^ k) 0 i
  p.1 + l.teamx * (p.2 + l.teamy * (n / plane))

/-! ## Admission -/

/-- Groups that hold their context on a core: resident, or ended with copies of theirs to come (R80). -/
def State.holders (s : State) (core : Nat) : List (Nat × Group) :=
  s.groups.filter (fun e => e.2.core == core && (e.2.life == .resident
    || (e.2.life == .ended && s.copiesOf (fun c => c.group == e.1))))

/-- Lanes of a list of groups, and their vector registers in bytes (R234). -/
def lanesOf (l : List (Nat × Group)) : Nat := l.foldl (fun a e => a + e.2.width) 0
def vrfOf (l : List (Nat × Group)) : Nat := l.foldl (fun a e => a + e.2.width * e.2.vcount * 4) 0

/-- Stash bytes that teams hold on a core (R255, R275). -/
def State.stashHeld (s : State) (core : Nat) : Nat :=
  (s.teams.filter (fun e => e.2.core == core && (e.2.life == .resident || e.2.lingering))).foldl
    (fun a e => a + e.2.tlsSize + e.2.winSize) 0

/-- What a team asks of a core. -/
structure Need where
  groups : Nat
  width : Nat
  vround : Nat
  stash : Nat
  linkres : Nat
  deriving DecidableEq, Repr

/-- R234 and R255 hold on a core after a team's admission, counting some holders and stash bytes and at least a
link reserve on each pair. -/
def needFits (n : Need) (hold : List (Nat × Group)) (reserve stash slices : Nat) : Bool :=
  decide (hold.length + n.groups ≤ 256) && decide (lanesOf hold + n.groups * n.width ≤ 8192)
  && decide (vrfOf hold + n.groups * n.width * n.vround * 4 + reserve ≤ 1536 * 1024)
  && decide (stash + n.stash + 256 * slices ≤ 8 * 2 ^ 20)

/-- The link reserves of a core's pairs when each is at least L bytes. -/
def State.reserveWith (s : State) (core L : Nat) : Nat :=
  (List.range 3).foldl (fun a p => a + max (s.pairCtl core p).reserve L) 0

/-- A grid's Kennel share stands on a core, or can be set aside there (R319, R320). -/
def State.shareFits (s : State) (id : Nat) (r : Grid) (core : Nat) : Bool :=
  r.lpb.ksl == 0 || (s.kennel.shareOf id core).isSome
  || (s.ctx r.ctx).kcfg.canGrant (s.kennel.used r.ctx core) r.lpb.kpart r.lpb.ksl

/-- Cores that the reservation keeps for class D (R260). -/
def State.reserved (s : State) (core : Nat) : Bool := flagBit s.host.dres 63 && flagBit (bits s.host.dres 47 0) core

/-- The reservation keeps a Kennel or a Mire partition that a grid uses for class D (R260): no more of its teams are placed. -/
def State.keepsOut (s : State) (r : Grid) : Bool :=
  (r.lpb.ksl != 0 && s.keeps r.lpb 58 55 r.lpb.kpart)
  || (List.range 16).any (fun q => r.partShare q != 0 && s.keeps r.lpb 62 59 q)

/-- The part serves only LCTX: it is in Listen, or on the way there (R471). -/
def Power.listens (p : Power) : Bool := p.state == .listen || (p.state == .run && p.target == .listen)

/-- The scheduler places teams of a context (R471). -/
def State.serves (s : State) (ctx : Nat) : Bool := !s.pwr.listens || ctx == bits s.pwr.pwrctl 35 20

/-- The power state lets a context place teams on a core (R471): in Listen, and on the way there, LCTX on LCORE alone. -/
def State.placeable (s : State) (ctx core : Nat) : Bool :=
  !s.frozen && s.serves ctx && (match s.pwr.state with
    | .run => s.pwr.target == .run || (s.pwr.target == .listen && core == bits s.pwr.pwrctl 47 42)
    | .listen => core == bits s.pwr.pwrctl 47 42
    | _ => false)

/-- A core admits a team of a grid. -/
def State.admits (s : State) (id : Nat) (r : Grid) (n : Need) (core : Nat) : Bool :=
  s.placeable r.ctx core && (r.lpb.cls == 0 || !s.reserved core) && !s.keepsOut r
  && needFits n (s.holders core) (s.reserveWith core (n.linkres * 2048)) (s.stashHeld core) s.slices
  && s.shareFits id r core

/-- What a team of the grid's team-index space asks, and what a team of one group of some width asks. -/
def Lpb.need (l : Lpb) : Need := ⟨l.ngrp, l.width, l.vround, 256 * (l.tls + l.win), l.linkres⟩
def Lpb.needOne (l : Lpb) (width extra : Nat) : Need := ⟨1, width, l.vround, 256 * (l.tls + l.win) + extra, l.linkres⟩

/-- Among cores, the one with the fewest lanes in use, the lowest of equals (R255). -/
def State.emptiest (s : State) (cores : List Nat) : Option Nat :=
  cores.foldl (fun b c => match b with
    | some a => if lanesOf (s.holders c) < lanesOf (s.holders a) then some c else b
    | none => some c) none

/-- The core of a team of a one-team cluster: class D goes to a reserved core when one admits it (R255). -/
def State.pickCore (s : State) (id : Nat) (r : Grid) (n : Need) : Option Nat :=
  let l := (List.range 48).filter (s.admits id r n)
  match (if r.lpb.cls = 0 then s.emptiest (l.filter s.reserved) else none) with
  | some c => some c
  | none => s.emptiest (l.filter (fun c => !s.reserved c))

/-- The cores of a rectangle from a north-west core, by rank; none where it leaves the mesh. -/
def rectangle (cols rows nw : Nat) : Option (List Nat) :=
  if nw % 8 + cols ≤ 8 && nw / 8 + rows ≤ 6 then
    some ((List.range (cols * rows)).map (fun k => nw + k % cols + 8 * (k / cols)))
  else none

/-- The cores of a cluster: the rectangle with the lowest north-west core whose cores all admit a team; for class D
one of reserved cores first, then one of others, then any (R255; log 24). -/
def State.pickCores (s : State) (id : Nat) (r : Grid) : Option (List Nat) :=
  if r.lpb.cluster = 1 then (s.pickCore id r r.lpb.need).map (fun c => [c])
  else
    let rects := (List.range 48).filterMap (rectangle (r.lpb.ccols + 1) (r.lpb.crows + 1))
    let l := rects.filter (fun cs => cs.all (s.admits id r r.lpb.need))
    if r.lpb.cls = 0 then
      match l.find? (fun cs => cs.all s.reserved) with
      | some cs => some cs
      | none => match l.find? (fun cs => cs.all (fun c => !s.reserved c)) with
        | some cs => some cs
        | none => l.head?
    else l.head?

/-! ## A placed team -/

/-- The lowest number of a range that a list does not hold. -/
def lowestFree (n : Nat) (l : List Nat) : Nat := ((List.range n).find? (fun k => !l.contains k)).getD 0

/-- The partition with the most free lanes on a core among some, the lowest of equals (R255). -/
def State.freePart (s : State) (core : Nat) (parts : List Nat) : Nat :=
  let lanes := fun p => lanesOf ((s.holders core).filter (fun e => e.2.part == p))
  (parts.foldl (fun b p => match b with
    | some a => if lanes p < lanes a then some p else b
    | none => some p) none).getD 0

/-- A group context number and a GCB place of a new group (R369; log 12). -/
def State.freeGcn (s : State) (core : Nat) : Nat := lowestFree 256 ((s.holders core).map (fun e => e.2.gcn))
def State.freeGcb (s : State) (ctx : Nat) : Nat :=
  let c := s.ctx ctx
  let k := lowestFree (c.gcbs.length + 1) (c.gcbs.map (fun a => (a - c.save - 4096) / 28672))
  c.save + 4096 + 28672 * k

/-- What distinguishes the groups of a placement: width, live lanes, entry offset, tasks, batch. -/
structure Start where
  width : Nat
  live : Lanes
  entry : Nat
  tasks : SMap Task := []
  isTask : Bool := false
  batch : Option (Nat × List Nat) := none
  deriving DecidableEq, Repr

/-- One group of a team starts (R13, R369): registers zero but for s0:s1, one entry of its live lanes. -/
def State.addGroup (s : State) (id : Nat) (r : Grid) (team grp core : Nat) (b : Start) : State :=
  let part := s.freePart core (List.range 6)
  let gcb := s.freeGcb r.ctx
  let g : Group := {
    gcn := s.freeGcn core, ctx := r.ctx, grid := id, team := team, grp := grp, core := core, part := part,
    life := .resident, width := b.width, vcount := r.lpb.vround, vdecl := r.lpb.vregs, scount := r.lpb.sregs,
    lpb := r.lpbAddr, code := r.lpb.code, base := r.lpb.code, live := b.live,
    regs := { s := [(0, BitVec.ofNat 32 r.lpbAddr), (1, BitVec.ofNat 32 (r.lpbAddr / 2 ^ 32))] }
    bbt := [⟨b.live, r.lpb.code + b.entry, 0, .runnable, 0, 0⟩]
    trap := { safecnt := r.lpb.safept, mode := r.mode, lmode := r.mode, gcb := gcb }
    tasks := b.tasks, isTask := b.isTask, batch := b.batch }
  let s := s.modCtx r.ctx (fun c => { c with gcbs := c.gcbs ++ [gcb] })
  let gid := s.nextId
  let s := { s with groups := SMap.put s.groups gid g, nextId := gid + 1 }
  s.modTeam team (fun t => { t with groups := t.groups ++ [gid] })
def State.addGroups (s : State) (id : Nat) (r : Grid) (team core : Nat) (b : Start) : Nat → State
  | 0 => s
  | n + 1 => (State.addGroups s id r team core b n).addGroup id r team n core b

/-- A grid's Kennel share on a core is set aside (R319). -/
def State.setShare (s : State) (id : Nat) (r : Grid) (core : Nat) : State :=
  if r.lpb.ksl = 0 || (s.kennel.shareOf id core).isSome then s
  else { s with kennel := { s.kennel with shares := s.kennel.shares ++ [⟨id, r.ctx, core, r.lpb.kpart, r.lpb.ksl⟩] } }

/-- The acquire of a launch, relaunch or restore on a core (R286, R300), of scope sys: path L drops the words that the
core does not own, path T its tensor engine's read cache, and path X its decoded texels; path C keeps no copies. -/
def State.startAcquire (s : State) (core : Nat) : State :=
  { s with
    mem := (s.mem.acquire core 4).dropReads (fun c => c == core)
    texels := s.texels.filter (fun t => t.core != core) }

/-- A team stands on a core with n groups (R255, R256, R276): sleepers of the core wake (R224). -/
def State.addTeam (s : State) (id : Nat) (r : Grid) (index cluster rank core : Nat) (kset : List Nat) (tls : Nat)
    (image : Memory) (n : Nat) (b : Start) : State :=
  let t : Team := {
    ctx := r.ctx, grid := id, index := index, cluster := cluster, rank := rank, core := core, home := core, kset := kset,
    life := .resident, groups := [], tlsSize := tls, winSize := 256 * r.lpb.win, tls := image }
  let team := s.nextId
  let s := { s with teams := SMap.put s.teams team t, nextId := team + 1 }
  ((((s.startAcquire core).setShare id r core).addGroups id r team core b n).setReserve core).wakeCore core

/-! ## Queues -/

/-- Lexicographic order. -/
def lexLt : List Nat → List Nat → Bool
  | a :: r, b :: t => decide (a < b) || (a == b && lexLt r t)
  | [], _ :: _ => true
  | _, [] => false

/-- The place of a grid in the queue of its class (R253, R261): by arrival in the end, and by identifier where two arrived in
one clock (log 160). -/
def Grid.rank (r : Grid) (id : Nat) : List Nat :=
  if r.lpb.cls = 0 then [b2n r.overBudget, r.arrived + 1400 * r.lpb.deadline, 15 - r.lpb.priority, r.arrived, id]
  else [15 - r.lpb.priority, r.arrived, id]

/-- The first of some grids in queue order. -/
def headOf (l : List (Nat × Grid)) : Option (Nat × Grid) :=
  l.foldl (fun b e => match b with
    | some h => if lexLt (e.2.rank e.1) (h.2.rank h.1) then some e else b
    | none => some e) none

/-- The class of a team's grid. -/
def State.teamClass (s : State) (t : Team) : Nat := s.gridClass t.grid

/-- A saved team of the class waits to be placed ahead of everything else (R253); of LCTX alone in Listen (R471). -/
def State.teamWaits (s : State) (cls : Nat) : Bool :=
  s.teams.any (fun e => e.2.life == .saved && e.2.wanted && s.serves e.2.ctx && s.teamClass e.2 == cls)

/-- The ready batches of a grid, each node's first: the time of the oldest record, the node and the records, and whether it had
timed out (R259). A batch is ready when it holds BATCH records or has timed out; of one node the full ones are the older, and
of two nodes whose oldest records were committed in one clock a full batch goes first, of two full ones that of the lower node,
and of two timed-out ones that which timed out first (log 179). -/
def Grid.readyBatches (r : Grid) : List (Nat × Nat × List Nat × Bool) :=
  (r.committed.filterMap (fun e => match r.nodes[e.1]? with
    | some d => if d.batch ≤ e.2.length then
        some ((e.2.head?.map (fun c => c.time)).getD 0, e.1, (e.2.take d.batch).map (fun c => c.addr), false) else none
    | none => none))
  ++ r.ready.map (fun b => (b.time, b.node, b.addrs, true))
def Grid.firstBatch (r : Grid) : Option (Nat × Nat × List Nat × Bool) :=
  r.readyBatches.foldl (fun b e => match b with
    | some h => if e.1 < h.1 then some e else b
    | none => some e) none

/-- A grid's work waits to be placed: task groups, batches or teams. The head grid of a class is the first with such work:
a later one places nothing before it (R253; log 89). -/
def Grid.extraWork (r : Grid) : Bool := !r.tasks.isEmpty || !r.readyBatches.isEmpty
def Grid.hasWork (r : Grid) : Bool := !r.discarded && !r.retired && (decide (r.placed < r.lpb.clusters) || r.extraWork)
def State.headGrid (s : State) (cls : Nat) : Option (Nat × Grid) :=
  headOf (s.grids.filter (fun e => e.2.lpb.cls == cls && s.serves e.2.ctx && e.2.hasWork))

/-- A grid may place a task group or a batch now: it heads its queue, and no saved team of its class stands before it. -/
def State.mayPlace (s : State) (id : Nat) (r : Grid) : Bool :=
  !r.discarded && !s.frozen && !s.teamWaits r.lpb.cls && (s.headGrid r.lpb.cls).map Prod.fst == some id

/-- The Mire shares of a grid can all be set aside now (R335). -/
def State.mireStart (s : State) (r : Grid) : Bool :=
  let cfg := (s.ctx r.ctx).mcfg
  let used := fun q => s.mireTaken r.ctx q + r.partShare q
  let own := (List.range 16).filter (fun q => r.partShare q != 0)
  own.isEmpty || (own.all (fun q => decide (used q ≤ (cfg.part q).ceil)) && decide (0 ≤ cfg.headroom used))

/-- The next cluster of a grid is placed, if cores admit it. -/
def State.placeCluster (s : State) (id : Nat) (r : Grid) : State :=
  match s.pickCores id r with
  | none => s
  | some cores =>
    let size := r.lpb.cluster
    let s := s.modGrid id (fun r => { r with placed := r.placed + 1 })
    let s := if r.placed = 0 then s.syncCcb r.ctx else s
    (List.range size).foldl (fun (s : State) k =>
      let index := if size = 1 then r.lpb.nthTeam r.placed else r.placed * size + k
      s.addTeam id r index (if size = 1 then index else r.placed) k (cores.getD k 0) cores (256 * r.lpb.tls) [] r.lpb.ngrp
        ⟨r.lpb.width, Lanes.below r.lpb.width, r.lpb.entry, [], false, none⟩) s

/-- TEAM_PLACEMENT (R253, R255): the next team, or cluster, of the head grid of a class, once the saved teams of the class
and the grid's own task groups and batches have been placed; its Mire shares are set aside first (R335). -/
def execTeamPlacement (cls : Nat) (s : State) : Out :=
  if s.teamWaits cls || s.frozen then .next s
  else match s.headGrid cls with
  | none => .next s
  | some (id, r) =>
    if r.waiting || r.extraWork then .next s
    else if r.started then .next (s.placeCluster id r)
    else if s.mireStart r then .next ((s.modGrid id (fun r => { r with started := true })).placeCluster id { r with started := true })
    else .next s

/-! ## Task groups and batches -/

/-- The smallest group width that holds n lanes (R242, R259). -/
def widthFor (n : Nat) : Nat := if n ≤ 8 then 8 else if n ≤ 16 then 16 else if n ≤ 32 then 32 else 64

/-- The tasks that the gatherer takes: up to 64 with the oldest task's index, oldest first (R242, R258). -/
def gather (l : List QTask) : List QTask :=
  match l with
  | [] => []
  | t :: _ => (l.filter (fun q => q.index == t.index)).take 64

/-- What the grid's next task group asks of a core: its argument records stand behind its team-local storage. -/
def Grid.taskExtra (r : Grid) : Nat :=
  let ts := gather r.tasks
  (ts.length * (ts.head?.map (fun q => q.record.length)).getD 16 + 255) / 256 * 256
def Grid.taskNeed (r : Grid) : Need := r.lpb.needOne (widthFor (gather r.tasks).length) r.taskExtra

/-- The queue without the tasks taken. -/
def leave (l taken : List QTask) : List QTask := taken.foldl (fun l q => l.erase q) l

/-- TASK_GROUP_FORM (R242, R258): a task group of grid r, with the argument records behind its team-local storage. -/
def execTaskGroupForm (id : Nat) (s : State) : Out :=
  match SMap.find s.grids id with
  | none => .next s
  | some r =>
    let ts := gather r.tasks
    let n := ts.length
    let extra := r.taskExtra
    let w := widthFor n
    match r.taskTable[(ts.head?.map (fun q => q.index)).getD 64]? with
    | none => .next s
    | some e =>
      if !s.mayPlace id r then .next s
      else match s.pickCore id r r.taskNeed with
      | none => .next s
      | some core =>
        let tls := 256 * r.lpb.tls
        let image := Memory.write [] tls (ts.flatMap (fun q => q.record))
        let tasks := (List.range n).zip (ts.map (fun q => (⟨q.index, q.record, true, q.entry, []⟩ : Task)))
        let num := 2 ^ 32 + s.nextId
        .next ((s.modGrid id (fun r => { r with tasks := leave r.tasks ts })).addTeam id r num num 0 core [core] (tls + extra) image 1
          ⟨w, Lanes.below n, e.entry, tasks, true, none⟩)

/-- BATCH_TIMEOUT (R259): the records of a node behind its full batches become a ready batch once the oldest of them has stood
for TIMEOUT × 0.5 µs. -/
def execBatchTimeout (id n : Nat) (s : State) : Out :=
  match SMap.find s.grids id with
  | none => .next s
  | some r =>
    match r.nodes[n]? with
    | none => .next s
    | some d =>
      let l := SMap.getD r.committed n []
      let full := l.length / d.batch * d.batch
      match l.drop full with
      | c :: _ =>
        if c.time + 700 * d.timeout ≤ s.clock then
          .next (s.modGrid id (fun r => { r with
            ready := r.ready ++ [⟨n, c.time, (l.drop full).map (fun c => c.addr)⟩]
            committed := if full = 0 then SMap.erase r.committed n else SMap.put r.committed n (l.take full) }))
        else .next s
      | [] => .next s

/-- BATCH_LAUNCH (R100, R259): node n's ready batch, where it is the grid's first, as a team of one group. -/
def execBatchLaunch (id n : Nat) (s : State) : Out :=
  match SMap.find s.grids id with
  | none => .next s
  | some r =>
    match r.firstBatch, r.nodes[n]? with
    | some (t, k, addrs, timed), some d =>
      if k ≠ n || !s.mayPlace id r then .next s
      else
        let w := widthFor d.batch
        match s.pickCore id r (r.lpb.needOne w 0) with
        | none => .next s
        | some core =>
          let s := s.modGrid id (fun r =>
            if timed then { r with ready := r.ready.erase ⟨n, t, addrs⟩ }
            else { r with committed := SMap.put r.committed n ((SMap.getD r.committed n []).drop d.batch) })
          let num := 2 ^ 32 + s.nextId
          .next (s.addTeam id r num num 0 core [core] (256 * r.lpb.tls) [] 1
            ⟨w, Lanes.below addrs.length, d.entry, [], false, some (n, addrs)⟩)
    | _, _ => .next s

/-- TASK_REQUEUE (R95, R244): an aborted task of a grid whose page is now resident returns to its queue. -/
def execTaskRequeue (id : Nat) (s : State) : Out :=
  match SMap.find s.grids id with
  | none => .next s
  | some r =>
    match r.aborted.find? (fun a => match s.translate ⟨.frontEnd, r.ctx, a.2.2, .read⟩ a.2.1 with
      | .absent => false
      | _ => true) with
    | some a => .next (s.modGrid id (fun r => { r with aborted := r.aborted.erase a, tasks := r.tasks ++ [a.1] }))
    | none => .next s

/-- TEAM_END_RELEASE (R80, R255): an ended team's storage and contexts, once its copies have completed. -/
def execTeamEndRelease (id : Nat) (s : State) : Out :=
  match SMap.find s.teams id with
  | some t => if t.life == .ended && !s.copiesOf (fun c => c.team == id) then .next (s.freeTeam id) else .next s
  | none => .next s

/-- YIELD_HOLD_EXPIRY (R84): the holds of a group's entries that have lasted their time end. -/
def execYieldHoldExpiry (id : Nat) (s : State) : Out := .next (s.modGroup id (fun g => g.unheld s.clock))

/-- CLASS_D_BUDGET_EXHAUSTED (R261): a class D grid whose teams have used its BUDGET of core time, in core-microseconds. -/
def execClassDBudgetExhausted (id : Nat) (s : State) : Out :=
  match SMap.find s.grids id with
  | some r => if r.lpb.cls = 0 && decide (1400 * r.lpb.budget ≤ r.used) then .next (s.modGrid id (fun r => { r with overBudget := true }))
    else .next s
  | none => .next s

end Sys2Proof.Machine
end

