-- ==== Sys2Proof/Machine/Preempt.lean ====
section
/-! DEFINITION. Eviction and relaunch (R264, R265), pre-emption (R266, R267, R380), the save and the restore of a team
with its group context blocks and linked tiles (R184, R350, R369, R370, R379), and user interrupts (R378). -/

namespace Sys2Proof.Machine

/-! ## Saving -/

/-- The bounds of a frame that no trap wrote: frame R (R379). -/
def Group.frameR (g : Group) : Nat := g.trap.gcb + 0x5000

/-- A group's threads as it is saved: the block stands where it stopped, and its next word issues first after the restore
(R380). -/
def Group.standing (g : Group) : Group :=
  { g with
    bbt := g.bbt.map (fun e => { e with held := 0 })
    blk := g.blk.map (fun b => { b with words := [], boundary := true })
    blockAsk := none }

/-- The lowest place of a group's threads. -/
def Group.lowest (g : Group) : Nat := (g.images.head?.map (fun e => e.pc)).getD g.base

/-- The group's context block written at a save, with frame R, which holds its BBT and the steps that a linked one has
queued (R239, R369, R379); none where memory refuses. -/
def State.writeImage (s : State) (g : Group) : Option State :=
  match s.pagesOf g .write g.trap.gcb 1, s.pagesOf g .write g.frameR 2 with
  | .ok hs, .ok ps =>
    let queue := (g.tile.map (fun t => t.queue)).getD []
    let no := if queue.isEmpty then 0 else ((g.tile.map (fun t => t.steps)).getD 0 + 1) % 2 ^ 16
    let h : Header := ⟨0, 0, g.lowest, no, g.images.length, queue.length, 0, true, g.trap.mode, 0⟩
    let s := { s with mem := s.mem.storeRun g.core ((hs.headD 0) / 4) g.gcbWords }
    some (s.storePages g.core ps (frameWords g h g.images queue))
  | _, _ => none

/-- The walk-ahead TLB discards what it holds for a tile's context (R390). -/
def State.dropAhead (s : State) (g : Group) : State :=
  let tag := (s.ctx g.ctx).tag
  { s with trans := { s.trans with tlb := s.trans.tlb.filter (fun t => !(t.cache == .ahead g.core && t.ctxid == tag)) } }

/-- A tile leaves its pair and its tensor engine. -/
def State.leavePair (s : State) (id : Nat) (g : Group) : State :=
  match g.tile with
  | some t => (s.modPair g.core t.pairNo (fun p => { p with tiles := p.tiles.erase id })).dropAhead g
  | none => s

/-- One group is saved: its tile leaves the grid at a step boundary, its waits stand as they are (R265, R349, R379). -/
def State.saveGroup (s : State) (id : Nat) : State :=
  let s := s.drainTile id
  match SMap.find s.groups id with
  | none => s
  | some g =>
    let g := g.standing
    match s.writeImage g with
    | none => s.doubleTrap id g.lowest 0x3F
    | some s =>
      (s.leavePair id g).setGroup id { g with
        life := .saved
        tile := g.tile.map (fun t => { t with queue := [] })
        trap := { g.trap with preempt := false, stopped := false, forced := false, safept := false, uipend := false } }

/-- Every window line of a team is written back and leaves it; the mappings stay (R143). -/
def State.closeWindows (s : State) (id : Nat) (t : Team) : State :=
  (List.range 8).foldl (fun (s : State) n => s.dropLines id n)
    { s with mem := (List.range 8).foldl (fun (m : MemSys) n => (t.present n).foldl (fun (m : MemSys) l => m.evictLine t.core l) m) s.mem }

/-- The save acts as an acquire and release of scope dev for each of its threads (R286). -/
def State.saveFence (s : State) (id : Nat) : State :=
  (s.liveGroups id).foldl (fun (s : State) e => (s.releaseBy e.1 3).acquireBy e.1 3) s

/-- A pre-empted group's tasks that still have replay abort and return to their queue; what they leave is checked
(R76, R240, R380). -/
def State.abortSaved (s : State) (id : Nat) : State :=
  match SMap.find s.groups id with
  | some g => if g.tasks.any (fun e => e.2.replay) then (s.abortTasks id (BitVec.allOnes 64) none).checkWaits id else s
  | none => s

/-- The copies of a team are suspended until its restore (R266). -/
def State.pauseCopies (s : State) (id : Nat) : State :=
  { s with copies := s.copies.map (fun e => (e.1, if e.2.team = id then { e.2 with paused := true } else e.2)) }

/-- A team is saved whole and its core's resources are free (R264, R267, R379). What the save writes is released with the
threads' own stores (R286, R300). At pre-emption its copies are suspended and the team is queued at once. -/
def State.saveTeam (s : State) (id : Nat) (preempt : Bool) : State :=
  let s := if preempt then (s.liveGroups id).foldl (fun (s : State) e => s.abortSaved e.1) s else s
  match SMap.find s.teams id with
  | none => s
  | some t =>
    let l := (s.liveGroups id).map Prod.fst
    if t.life != .resident || l.isEmpty then s
    else
      let s := s.settleTargets (fun w => l.contains w.group)
      let s := l.foldl (fun (s : State) g => s.saveGroup g) ((s.closeWindows id t).saveFence id)
      let s := { s with mem := s.mem.release t.core 3 }
      if (s.liveGroups id).isEmpty then s
      else
        let s := if preempt then s.pauseCopies id else s
        (s.modTeam id (fun t => { t with life := .saved, wanted := preempt })).setReserve t.core

/-! ## Eviction and relaunch -/

/-- The waits in which a team may be evicted (R264); a waiter that polls prevents it. -/
def evictable : Park → Bool
  | .waitcmp _ _ _ _ polls => !polls
  | .pbWait _ _ _ _ => true
  | .talloc _ _ _ _ => true
  | .rsv _ _ _ _ => true
  | .ctrWait _ _ _ => true
  | _ => false

/-- A context's eviction threshold in clocks (R264, R443). -/
def Ctx.threshold (c : Ctx) : Nat := 1400 * (if c.evt = 0 then 20 else c.evt)

/-- Some group of a team, or of one that pairing joins to it, only runs out its steps (R182): no save comes before it has
ended. -/
def State.drains (s : State) (id : Nat) : Bool :=
  let l := s.companions id
  s.groups.any (fun e => l.contains e.2.team && e.2.live == 0 && e.2.life == .resident)

/-- Every live thread of a team has been parked in such waits for the threshold (R264). -/
def State.idleTeam (s : State) (id : Nat) : Bool :=
  match SMap.find s.teams id with
  | some t =>
    t.life == .resident && !s.drains id && !(s.liveGroups id).isEmpty && (s.liveGroups id).all (fun e =>
      e.2.bbt.isEmpty && e.2.blk.isNone && e.2.async.isNone && !s.stashStuck e.1
      && e.2.parked.all (fun p => evictable p.why && decide (p.at_ + (s.ctx t.ctx).threshold ≤ s.clock)))
  | none => false

/-- EVICTION (R264): a team, with those that pairing joins to it. -/
def execEviction (id : Nat) (s : State) : Out :=
  let l := s.companions id
  if l.all s.idleTeam then .next (l.foldl (fun (s : State) t => s.saveTeam t false) s) else .next s

/-- Whether a saved wait can end now by its barrier, its space or a cause (R265); the notifying writes and adds queue the
waits on words and counters as they are evaluated. -/
def State.canEnd (s : State) (g : Group) (p : Parked) : Bool :=
  match p.why with
  | .pbWait t o k _ => match SMap.find s.teams t with
    | some m => m.pb o 2 == 0 || m.pb o 0 != k
    | none => true
  | .talloc _ units _ part => (s.kennelMay g units part p.born).isSome
  | .rsv _ _ node total => s.mireMay g (some node) (total * (s.recSize g node / 16)) p.born
  | .trap _ _ _ => true
  | _ => false

/-- RELAUNCH (R265): an evicted team one of whose waits can end is queued. -/
def execRelaunch (id : Nat) (s : State) : Out :=
  match SMap.find s.teams id with
  | some t =>
    if t.life == .saved && (s.liveGroups id).any (fun e => !e.2.bbt.isEmpty || e.2.parked.any (s.canEnd e.2)) then
      .next (s.wantTeams id)
    else .next s
  | none => .next s

/-! ## Admission of saved teams -/

/-- What a saved team asks of a core. -/
def State.needOf (s : State) (id : Nat) (t : Team) : Need :=
  let l := s.liveGroups id
  ⟨l.length, (l.head?.map (fun e => e.2.width)).getD 8, (l.head?.map (fun e => e.2.vcount)).getD 8, t.tlsSize + t.winSize,
    ((SMap.find s.grids t.grid).map (fun r => r.lpb.linkres)).getD 0⟩

/-- A core admits a saved team. -/
def State.admitsSaved (s : State) (id core : Nat) : Bool :=
  match SMap.find s.teams id with
  | some t => (match SMap.find s.grids t.grid with
    | some r => s.admits t.grid r (s.needOf id t) core
    | none => false)
  | none => false

/-- The share and the link reserve of a core with a team of a grid on it. -/
def State.settleTeam (s : State) (grid core : Nat) : State :=
  (match SMap.find s.grids grid with
    | some r => s.setShare grid r core
    | none => s).setReserve core

/-- A saved team counted on a core, for the admission of those that go with it (R234). -/
def State.standIn (s : State) (id core : Nat) : State :=
  match SMap.find s.teams id with
  | some t =>
    let s := s.modTeam id (fun t => { t with core := core, life := .resident })
    let stand := fun (g : Group) => if g.team = id ∧ g.live ≠ 0 then { g with core := core, life := Life.resident } else g
    let s : State := { s with groups := s.groups.map (fun e => (e.1, stand e.2)) }
    s.settleTeam t.grid core
  | none => s

/-- Cores that admit teams together, one after another. -/
def State.admitsAll (s : State) : List (Nat × Nat) → Bool
  | [] => true
  | (id, core) :: r => s.admitsSaved id core && State.admitsAll (s.standIn id core) r

/-- Cores for teams that go together: the arrangement of their last cores, moved to one mesh row (R184, R267). -/
def State.pickTogether (s : State) (ids : List Nat) : Option (List (Nat × Nat)) :=
  let last := ids.map (fun i => (i, ((SMap.find s.teams i).map (fun t => t.core)).getD 0))
  let base := (last.map (fun e => e.2 % 8)).min?.getD 0
  let at_ := fun c => last.map (fun e => (e.1, c + (e.2 % 8 - base)))
  ((List.range 48).filter (fun c => (at_ c).all (fun e => e.2 / 8 == c / 8))).map at_ |>.find? s.admitsAll

/-- The cores on which a queued team is restored, with those that pairing joins to it (R253, R267). -/
def State.restoreCores (s : State) (id : Nat) : Option (List (Nat × Nat)) :=
  match s.companions id, SMap.find s.teams id with
  | [_], some t => (match SMap.find s.grids t.grid with
    | some r => (s.pickCore t.grid r (s.needOf id t)).map (fun c => [(id, c)])
    | none => none)
  | ids, _ => s.pickTogether ids

/-! ## Pre-emption -/

/-- A pre-emption request for a team, with those that pairing joins to it (R184, R266). -/
def State.request (s : State) (id : Nat) : State :=
  (s.companions id).foldl (fun (s : State) t =>
    match SMap.find s.teams t with
    | some m =>
      if m.life != .resident then s
      else (s.liveGroups t).foldl (fun (s : State) e => s.modGroup e.1 (fun g =>
        if g.trap.preempt then g else { g with trap := { g.trap with preempt := true, asked := s.clock } })) s
    | none => s) s

/-- An element put into an ordered list. -/
def insertBy {α : Type} (lt : α → α → Bool) (x : α) : List α → List α
  | [] => [x]
  | y :: r => if lt x y then x :: y :: r else y :: insertBy lt x r

/-- The order in which teams are pre-empted (R266): lowest class, lowest PRIORITY, youngest. -/
def State.victimKey (s : State) (t : Team) : List Nat :=
  match SMap.find s.grids t.grid with
  | some r => [2 - r.lpb.cls, r.lpb.priority]
  | none => [2, 0]
def State.goesBefore (s : State) (a b : Nat × Team) : Bool :=
  lexLt (s.victimKey a.2) (s.victimKey b.2) || (s.victimKey a.2 == s.victimKey b.2 && decide (b.1 < a.1))

/-- The teams of class I and B on a core, in that order. -/
def State.victims (s : State) (core : Nat) : List (Nat × Team) :=
  (s.teams.filter (fun e => e.2.core == core && e.2.life == .resident && s.teamClass e.2 != 0)).foldl
    (fun r e => insertBy s.goesBefore e r) []

/-- Class D work that waits for room (R253, R266): a saved team, a task group, a batch, or a team or cluster of the index
space. What each of its teams asks of a core, the rectangle of its cores, and whether cores admit it already. -/
structure Want where
  id : Nat
  r : Grid
  need : Need
  cols : Nat
  rows : Nat
  fits : Bool
def State.wantOne (s : State) (id : Nat) (r : Grid) (need : Need) : Want := ⟨id, r, need, 1, 1, (s.pickCore id r need).isSome⟩

/-- The saved team of class D that waits first, if any (log 162). -/
def State.wantSaved (s : State) : Option Want :=
  match s.teams.find? (fun e => e.2.life == .saved && e.2.wanted && s.serves e.2.ctx && s.teamClass e.2 == 0) with
  | some (id, t) => (SMap.find s.grids t.grid).map (fun r =>
      ⟨t.grid, r, s.needOf id t, (s.companions id).length, 1, (s.restoreCores id).isSome⟩)
  | none => none

/-- The class D work that is to be placed next, where it waits for cores alone. -/
def State.demand (s : State) : Option Want :=
  match s.wantSaved, s.headGrid 0 with
  | some w, _ => some w
  | none, none => none
  | none, some (id, r) =>
    if s.teamWaits 0 then none
    else if !r.tasks.isEmpty then some (s.wantOne id r r.taskNeed)
    else match (r.firstBatch).bind (fun b => r.nodes[b.2.1]?) with
    | some d => some (s.wantOne id r (r.lpb.needOne (widthFor d.batch) 0))
    | none =>
      if r.waiting || !(r.started || s.mireStart r) then none
      else some ⟨id, r, r.lpb.need, r.lpb.ccols + 1, r.lpb.crows + 1, (s.pickCores id r).isSome⟩

/-- The link reserves of a core's pairs once some teams had left it and each had fallen to L bytes: one on which a tile of
another team stands keeps what it has (R337). -/
def State.reserveLeft (s : State) (core L : Nat) (gone : List Nat) : Nat :=
  (List.range 3).foldl (fun a p =>
    let c := s.pairCtl core p
    let stays := c.tiles.any (fun id => ((SMap.find s.groups id).map (fun g => !gone.contains g.team)).getD false)
    a + (if stays then max c.reserve L else L)) 0

/-- A core would admit a team of the work once some teams had left it (R255, R266). -/
def State.room (s : State) (w : Want) (gone : List Nat) (core : Nat) : Bool :=
  let hold := (s.holders core).filter (fun e => !gone.contains e.2.team)
  let teams := s.teams.filter (fun e => e.2.core == core && !gone.contains e.1)
  let stash := (teams.filter (fun e => e.2.life == .resident || e.2.lingering)).foldl (fun a e => a + e.2.tlsSize + e.2.winSize) 0
  let most := (teams.filter (fun e => e.2.life == .resident)).foldl (fun a e =>
    max a (((SMap.find s.grids e.2.grid).map (fun q => q.lpb.linkres)).getD 0)) w.need.linkres
  needFits w.need hold (s.reserveLeft core (2048 * most) gone) stash s.slices && s.shareFits w.id w.r core
    && s.placeable w.r.ctx core && !s.keepsOut w.r

/-- The teams of a core for which requests stand. -/
def State.askedOn (s : State) (core : Nat) : List Nat :=
  ((s.victims core).map Prod.fst).filter (fun t => (s.liveGroups t).any (fun e => e.2.trap.preempt))

/-- The first victims of a core whose departure makes room, if any does. -/
def State.makeRoom (s : State) (w : Want) (core : Nat) : Option (List (Nat × Team)) :=
  let l := s.victims core
  ((List.range (l.length + 1)).map (fun k => l.take k)).find? (fun g => s.room w (g.map Prod.fst) core)

/-- The requests that make room on every core of a rectangle, the first victim before the others; none where some core
cannot make it. -/
def State.clearing (s : State) (w : Want) : List Nat → Option (List (Nat × Team))
  | [] => some []
  | c :: r => match s.makeRoom w c, State.clearing s w r with
    | some l, some m => some (l.foldl (fun m e => insertBy s.goesBefore e m) m)
    | _, _ => none

/-- The rectangle whose first victim goes before those of the others. -/
def State.bestClearing (s : State) (l : List (List (Nat × Team))) : Option (List (Nat × Team)) :=
  l.foldl (fun b e => match b, e with
    | _, [] => b
    | some (h :: t), v :: _ => if s.goesBefore v h then some e else some (h :: t)
    | _, _ => some e) none

/-- PREEMPT_REQUEST (R266): for class D work that no core admits, the unreserved core with the team ranked first among
those where pre-emption can make room, or for a cluster the rectangle of such cores (log 162); nothing while standing
requests already make it. -/
def execPreemptRequest (s : State) : Out :=
  match s.demand with
  | none => .next s
  | some w =>
    let rects := ((List.range 48).filterMap (rectangle w.cols w.rows)).filter (fun cs => cs.all (fun c => !s.reserved c))
    if w.fits || rects.any (fun cs => cs.all (fun c => s.room w (s.askedOn c) c)) then .next s
    else match s.bestClearing (rects.filterMap (s.clearing w)) with
    | some l => .next (l.foldl (fun (s : State) e => s.request e.1) s)
    | none => .next s

/-- FORCED_SAFE_POINT (R266, R349, R380): a requested group stops: at once where every live thread is parked, at a
step boundary where it is linked, else at a word boundary after SAFECNT has reached 0 or 10 µs have passed. -/
def execForcedSafePoint (id : Nat) (s : State) : Out :=
  match SMap.find s.groups id with
  | none => .next s
  | some g =>
    let late := g.async.isNone && decide (g.trap.asked + 14000 ≤ s.clock)
    if g.life == .resident && g.live != 0 && g.trap.preempt && !g.trap.stopped && g.atBoundary && !s.runsOut g
        && (g.async == some 5 || late) then
      .next ((s.drainTile id).modGroup id (fun g =>
        { g with trap := { g.trap with stopped := true, forced := !g.allParked, asked := s.clock } }))
    else .next s

/-- COPY_CANCEL (R266): 20 µs after a forced safe point, the copies of the group that still run are suspended; their
uncounted chunks are issued again after the restore. -/
def execCopyCancel (id : Nat) (s : State) : Out :=
  match SMap.find s.groups id with
  | none => .next s
  | some g =>
    if g.trap.stopped && g.trap.forced && decide (g.trap.asked + 28000 ≤ s.clock) then
      .next { s with copies := s.copies.map (fun e => (e.1, if e.2.group = id then { e.2 with paused := true } else e.2)) }
    else .next s

/-- The copies of a stopped group hold up its save: after SAFEPT until they have completed (R85), at a forced safe point
until they have completed or are suspended (R266). -/
def State.copiesHold (s : State) (id : Nat) (g : Group) : Bool :=
  (g.trap.safept || g.trap.forced) && s.copiesOf (fun c => c.group == id && !c.paused)

/-- A team is not to be saved: a recovery, or a restart that ends its grid, has stopped it to end it (R453, R467). -/
def State.ending (s : State) (id : Nat) : Bool :=
  s.frozen || (s.host.restart
    && (((SMap.find s.teams id).bind (fun t => SMap.find s.grids t.grid)).map (fun r => r.discarded)).getD false)

/-- TEAM_SAVE (R267): once every group of a requested team has stopped; on the way to Listen the save is an eviction's,
and a team of LCTX is queued at once (R471). -/
def execTeamSave (id : Nat) (s : State) : Out :=
  let l := s.liveGroups id
  if !l.isEmpty && !s.ending id && !s.drains id && l.all (fun e => e.2.life == .resident && e.2.trap.stopped && !s.stashStuck e.1
      && !s.copiesHold e.1 e.2) then
    .next (if s.pwr.busy && s.pwr.target == .listen then
        (let t := s.saveTeam id false
        if (SMap.find s.teams id).any (fun t => t.ctx == bits s.pwr.pwrctl 35 20) then t.wantTeams id else t)
      else s.saveTeam id true)
  else .next s

/-! ## Restoring -/

/-- The zero fields of a context block's live contents: the control word's, the 112 bytes after it, the claim entries' (R7,
R369, R370). -/
def gcbZeros (ws : List Word) : Bool :=
  let x := wordsNat (ws.take 4)
  bits x 71 66 == 0 && bits x 8 8 == 0 && bits x 3 0 == 0 && ((ws.drop 4).take 28).all (fun w => w == 0)
    && (List.range 16).all (fun i => bits (ws.getD (64 + 4 * i) 0).toNat 9 0 == 0)

/-- The 8-byte numbers h0 to h15 and the claim entries of a context block. -/
def Regs.loadHandles (r : Regs) (ws : List Word) : Regs :=
  (List.range 16).foldl (fun r i =>
    let c := wordsNat ((ws.drop (64 + 4 * i)).take 4)
    (r.setH i (joinPair (ws.getD (32 + 2 * i) 0) (ws.getD (33 + 2 * i) 0))).setClaim i
      (BitVec.ofNat 64 (bits c 127 64)) (BitVec.ofNat 64 (bits c 63 10 * 2 ^ 10))) r

/-- UHVEC as a restore takes it (R220). -/
def cleanUhvec (w : Word) : Word := if w.toNat % 12 = 0 then w else 0xFFFFFFFF

/-- The level of a control word; none for 11. -/
def levelOf (n : Nat) : Option Level :=
  match n with
  | 0 => some .none
  | 1 => some .user
  | 2 => some .super
  | _ => none

/-- The linked tile that a control word leaves a group (R370; log 91): none with LINKED 0. Pairing can end there, and does
not begin. -/
def tileLoaded (t : Option LinkTile) (x : Nat) : Option LinkTile :=
  if !flagBit x 24 then none
  else
    let u := t.getD { n := 1, int := false, pairNo := 0 }
    some { u with n := bits x 23 18 + 1, int := flagBit x 17, paired := u.paired && flagBit x 16, leader := u.paired && flagBit x 16 && flagBit x 15 }

/-- The leash record that a control word gives (R351, R370): the group's own, age included, where it names the same leash,
or where that leash has been passed to the group since its save. -/
def leashLoaded (l : LeashRec) (now x : Nat) : LeashRec :=
  let state := bits x 7 6 % 3
  if state = 0 then {}
  else if (state = l.state ∨ l.due = true) ∧ bits x 14 9 = l.core ∧ bits x 5 4 = l.pair then l
  else ⟨state, bits x 14 9, bits x 5 4, now, false⟩

/-- The level that a control word gives is active already (R369). -/
def TrapRegs.stands (t : TrapRegs) : Level → Bool
  | .none => true
  | .user => t.inU
  | .super => t.level == .super

/-- The trap registers at the level that a control word gives (R369, R370; log 91): a level that it makes active takes its
cause from its frame, and the live threads and the constant window as they stand; those that it leaves hold none. -/
def TrapRegs.leveled (t : TrapRegs) (lvl : Level) (live : Lanes) (win cause : Nat) : TrapRegs :=
  match lvl with
  | .none => { t with level := .none, inU := false, causeU := 0, causeS := 0 }
  | .user =>
    let t := if t.inU then t else { t with inU := true, causeU := cause, winU := win, liveU := live }
    { t with level := .user, causeS := 0 }
  | .super => if t.level = .super then t else { t with level := .super, causeS := cause, winS := win, liveS := live }

/-- A level that stands in the frames of a group: its withdrawn requests wait for its return (R365). -/
def TrapRegs.keeps (t : TrapRegs) : Level → Bool
  | .none => true
  | l => t.stands l

/-- The group as its context block gives it (R369, R370, R379; log 91), with no level for LEVEL 11; `cause` is that of the
frame of a level that the block makes active. -/
def Group.loaded (g : Group) (now : Nat) (ws : List Word) (cause : Nat) : Group :=
  let x := wordsNat (ws.take 4)
  let t := g.trap.leveled ((levelOf (bits x 30 29)).getD .none) g.live (bits x 59 56 * 256 + bits x 55 48) cause
  { g with
    frameWait := g.frameWait.map (fun w => { w with req := none })
    firsts := g.firsts.filter (fun f => t.keeps f.frame)
    gcn := bits x 79 72, width := 8 * 2 ^ bits x 32 31, vdecl := bits x 47 41, vcount := (bits x 47 41 + 7) / 8 * 8
    scount := bits x 40 33
    tile := tileLoaded g.tile x
    leash := leashLoaded g.leash now x
    regs := { (g.regs.loadHandles ws) with
      fstat := BitVec.ofNat 32 (bits x 65 60), cwBank := bits x 59 56, cwIdx := bits x 55 48 }
    trap := { t with
      uhvec := cleanUhvec (BitVec.ofNat 32 (bits x 127 96)), safecnt := bits x 95 80, mode := flagBit x 28
      lmode := flagBit x 27, uien := flagBit x 26, uipend := flagBit x 25 || g.trap.uipend } }

/-- A wait that a restore leaves as it stands: a sleep, or a cause to be taken. -/
def Park.stays : Park → Bool
  | .sleep _ => true
  | .trap _ _ _ => true
  | _ => false

/-- The parked threads of a restored group: sleeps go on for their time, or are over; the other words are to issue again
with the age of their first issue (R224, R235, R265), a LEASH.TAKE at its place in the queue (R351). -/
def Group.unsaved (g : Group) (now : Nat) : Group :=
  let over_ := fun (p : Parked) => match p.why with
    | .sleep u => u != 0 && decide (u ≤ now)
    | _ => false
  let again := g.parked.filter (fun p => !p.why.stays)
  let g1 := { g with
    parked := g.parked.filter (fun p => p.why.stays)
    firsts := g.firsts ++ again.filterMap (Parked.first now .none) }
  let g2 := again.foldl (fun (g : Group) p => g.enter p.map p.pc p.slot) g1
  (g1.parked.filter over_).foldl (fun (g : Group) p => g.resumeNext p) g2

/-- The recorded steps of frame R (R350, R379); none where it breaks R372 or R373. -/
def Group.recorded (g : Group) (now : Nat) (ws : List Word) : Option (List QStep) :=
  let n := (headerOf (wordsNat (ws.take 16))).nstep
  if n = 3 || !frameZeros ws then none else stepsOf g.live now (ws.drop 448) n

/-- The CAUSE in the header of the frame of a level that a group's context block makes active (R369, R372), 0 where it is
active already; none where memory refuses it. -/
def State.causeAt (s : State) (g : Group) (lvl : Level) : Option Nat :=
  if g.trap.stands lvl then some 0
  else match s.pagesOf g .read (g.trap.gcb + (if lvl = .user then 0x1000 else 0x3000)) 1 with
  | .ok l => some (headerOf (wordsNat (s.mem.coreWords g.core ((l.headD 0) / 4) 16))).cause
  | .error _ => none

/-- The leashes follow a group's record where system software has rewritten it (R351, R369). -/
def State.followLeash (s : State) (id : Nat) (was : LeashRec) : State :=
  match SMap.find s.groups id with
  | some g =>
    if g.leash = was then s
    else
      let s := if was.state = 1 then s.leashPass was.core was.pair else s
      if g.leash.state = 1 ∧ (s.pairCtl g.leash.core g.leash.pair).leashOwner.isNone then
        s.modPair g.leash.core g.leash.pair (fun p => { p with leashOwner := some id })
      else s
  | none => s

/-- A tile's partner runs unpaired where the group's saved control word has ended the pairing. -/
def State.followPair (s : State) (was now : Option LinkTile) : State :=
  match was with
  | some t =>
    if t.paired && !((now.map (fun u => u.paired)).getD false) then
      s.modGroup t.partner (fun h => { h with tile := h.tile.map (fun u => { u with paired := false, leader := false }) })
    else s
  | none => s

/-- A group stands again on a core (R379): context block, steps, waits. A group context number that another group of the
core has is replaced by a free one. A block, or a frame R, that the part refuses ends it by double trap with CAUSE2 0x01
(R7, R370; log 91). -/
def State.restoreGroup (s : State) (id core : Nat) : State :=
  match SMap.find s.groups id with
  | none => s
  | some g =>
    let parts := match g.tile with
      | some t => if t.paired then [2 * t.pairNo, 2 * t.pairNo + 1] else List.range 6
      | none => List.range 6
    let part := s.freePart core parts
    let gcn := s.freeGcn core
    let taken := (s.holders core).map (fun e => e.2.gcn)
    let g := { g with core := core, part := part, gcn := gcn, life := Life.resident, ready := false }
    let s := s.setGroup id g
    match s.pagesOf g .read g.trap.gcb 1, (if g.tile.isSome then s.pagesOf g .read g.frameR 2 else .ok []) with
    | .ok hs, .ok ps =>
      let ws := s.readPages core hs
      let lvl := levelOf (bits (wordsNat (ws.take 4)) 30 29)
      match s.causeAt g (lvl.getD .none) with
      | some cause =>
        let h := g.loaded s.clock ws cause
        let h := { h with gcn := if taken.contains h.gcn then gcn else h.gcn }
        let steps := if h.tile.isSome then h.recorded s.clock (s.readPages core ps) else some []
        let h : Group := { h with tile := h.tile.map (fun (t : LinkTile) =>
          { t with pairNo := part / 2, pending := true, queue := steps.getD [] }) }
        let s := ((s.setGroup id (h.unsaved s.clock)).followLeash id g.leash).followPair g.tile h.tile
        if lvl.isNone || steps.isNone || !gcbZeros ws then s.doubleTrap id h.lowest 0x01 else s
      | none => s.doubleTrap id g.lowest 0x3F
    | _, _ => s.doubleTrap id g.lowest 0x3F

/-- A team stands again on a core: storage as saved, copies go on, the sleepers of the core wake, and the waits for the
team end (R224, R245, R266, R276). A group that the restore has ended may complete a barrier of the others (R240). -/
def State.restoreTeam (s : State) (id core : Nat) : State :=
  match SMap.find s.teams id with
  | none => s
  | some t =>
    let s := (s.startAcquire core).modTeam id (fun t => { t with core := core, life := .resident, wanted := false })
    let s := (s.liveGroups id).foldl (fun (s : State) e => s.restoreGroup e.1 core) (s.settleTeam t.grid core)
    let move := fun (c : Copy) => if c.team = id then { c with core := core, paused := false } else c
    let s : State := { s with copies := s.copies.map (fun e => (e.1, move e.2)) }
    ((s.wakeSleepers (fun g => g.life == .resident && g.core == core && g.team != id)).resumeWhere (fun w => w == .rank id)).complete id

/-- TEAM_RESTORE (R253, R265, R267, R379): a saved team that is queued, with those that pairing joins to it. -/
def execTeamRestore (id : Nat) (s : State) : Out :=
  let ready := (s.companions id).all (fun i => match SMap.find s.teams i with
    | some t => t.life == .saved && t.wanted
    | none => false)
  if !ready || s.frozen then .next s
  else match s.restoreCores id with
  | some l => .next (l.foldl (fun (s : State) e => s.restoreTeam e.1 e.2) s)
  | none => .next s

/-! ## User interrupts -/

/-- USER_INTERRUPT_DELIVERY (R378): cause 0x10 with the payload, unless a cause before it in R375 stands. -/
def execUserInterruptDelivery (id : Nat) (s : State) : Out :=
  match SMap.find s.groups id with
  | none => .next s
  | some g =>
    if g.async == some 4 && g.life == .resident && g.live != 0 then
      .next ((s.modGroup id (fun g => { g with trap := { g.trap with uipend := false } })).deliverAsync id 0x10 g.trap.uiload.toNat)
    else .next s

end Sys2Proof.Machine
end

