-- ==== Sys2Proof/Machine/Zstd.lean ====
section
/-! DEFINITION. The Zstandard frames of RFC 8878 that a texture page may be stored as (R397): entropy tables, literals,
sequences, blocks and the content checksum. The spec names the standard and does not restate it (log 10). -/

namespace Sys2Proof.Machine

/-! ## Bit streams -/

/-- A stream read backwards from its highest set bit: its bits as a number, and the position, below 0 past its start. -/
structure BackBits where
  src : Nat
  pos : Int
  deriving DecidableEq, Repr

/-- The next n bits, zeros beyond the start. -/
def BackBits.read (b : BackBits) (n : Nat) : Nat × BackBits :=
  let p := b.pos - n
  let v := if 0 ≤ p then b.src / 2 ^ p.toNat % 2 ^ n else if 0 ≤ b.pos then b.src % 2 ^ b.pos.toNat * 2 ^ (-p).toNat else 0
  (v, { b with pos := p })

/-- A stream of some bytes; none where the last of them is 0. -/
def BackBits.of (d : List Byte) : Option BackBits :=
  if d.getLast?.getD 0 = 0 then none else some ⟨natOf d, Nat.log2 (natOf d)⟩

/-! ## FSE tables -/

/-- A decoding table: its accuracy, and by state the symbol, the bits to read and the base of the next state. -/
structure Fse where
  log : Nat
  cells : Array (Nat × Nat × Nat)
  deriving DecidableEq, Repr

/-- The zeros that repeat flags add behind a probability of 0: the position behind them, and how many. -/
def fseZeros (src : Nat) : Nat → Nat → Nat → Nat × Nat
  | 0, pos, n => (pos, n)
  | f + 1, pos, n => let r := src / 2 ^ pos % 4; if r = 3 then fseZeros src f (pos + 2) (n + 3) else (pos + 2, n + r)

/-- The probabilities of symbols 0 to `top`, from a bit position on, and the position behind them; −1 is "less than one". -/
def fseProbs (src top : Nat) : Nat → Nat → Nat → List Int → Option (List Int × Nat)
  | 0, _, _, _ => none
  | f + 1, pos, rest, acc =>
    if rest = 0 then some (acc.reverse, pos)
    else if top < acc.length then none
    else
      let n := Nat.log2 (rest + 1) + 1
      let short := 2 ^ n - 1 - (rest + 1)
      let v := src / 2 ^ pos % 2 ^ n
      let small := decide (v % 2 ^ (n - 1) < short)
      let v := if small then v % 2 ^ (n - 1) else if 2 ^ (n - 1) ≤ v then v - short else v
      let pos := pos + (if small then n - 1 else n)
      let cost := if v = 0 then 1 else v - 1
      if rest < cost then none
      else if v = 1 then
        let (pos, k) := fseZeros src 128 pos 0
        fseProbs src top f pos rest (List.replicate k 0 ++ 0 :: acc)
      else fseProbs src top f pos (rest - cost) (((v : Int) - 1) :: acc)

/-- The table of some probabilities. -/
def fseOf (log : Nat) (probs : List Int) : Fse :=
  let size := 2 ^ log
  let l := probs.zipIdx
  let rare := (l.filter (fun e => e.1 == -1)).map Prod.snd
  let high := size - rare.length
  let step := size / 2 + size / 8 + 3
  let places := ((List.range size).map (fun k => k * step % size)).filter (fun p => decide (p < high))
  let spread := l.flatMap (fun e => List.replicate (if e.1 = -1 then 0 else e.1.toNat) e.2)
  let syms := ((places.zip spread) ++ (rare.zipIdx.map (fun e => (size - 1 - e.2, e.1)))).foldl
    (fun (a : Array Nat) e => a.setIfInBounds e.1 e.2) (Array.replicate size 0)
  let first := (probs.map (fun p => if p = -1 then 1 else p.toNat)).toArray
  ⟨log, (syms.toList.foldl (fun (a : Array Nat × Array (Nat × Nat × Nat)) s =>
    let x := a.1.getD s 1
    let n := log - Nat.log2 x
    (a.1.setIfInBounds s (x + 1), a.2.push (s, n, x * 2 ^ n - size))) (first, #[])).2⟩

/-- A table of one symbol, which reads no bits. -/
def fseSingle (sym : Nat) : Fse := ⟨0, #[(sym, 0, 0)]⟩

/-- A table description: the table and the bytes that it takes; none where it is malformed or too accurate. -/
def fseRead (d : List Byte) (top most : Nat) : Option (Fse × Nat) :=
  let src := natOf (d.take 512)
  let log := 5 + src % 16
  if most < log then none
  else match fseProbs src top 600 4 (2 ^ log) [] with
  | some (p, pos) => if top + 1 < p.length || d.length < (pos + 7) / 8 then none else some (fseOf log p, (pos + 7) / 8)
  | none => none

def Fse.symbol (t : Fse) (st : Nat) : Nat := (t.cells.getD st (0, 0, 0)).1
def Fse.next (t : Fse) (st : Nat) (b : BackBits) : Nat × BackBits :=
  let (_, n, base) := t.cells.getD st (0, 0, 0)
  let (v, b) := b.read n
  (base + v, b)

/-! ## Huffman trees -/

/-- A tree's decoding table: the longest code, and by its bits the symbol and its length. -/
structure Huff where
  log : Nat
  cells : Array (Nat × Nat)
  deriving DecidableEq, Repr

/-- Weights that two interleaved states of a table give. -/
def huffFse (t : Fse) : Nat → Nat → Nat → BackBits → List Nat → List Nat
  | 0, _, _, _, acc => acc.reverse
  | f + 1, a, c, b, acc =>
    let acc := t.symbol a :: acc
    let (a, b) := t.next a b
    if b.pos < 0 then (t.symbol c :: acc).reverse else huffFse t f c a b acc

/-- The weights of a tree description without the last one, and the bytes that it takes. -/
def huffWeights (d : List Byte) : Option (List Nat × Nat) :=
  let h := (d.headD 0).toNat
  if d.isEmpty then none
  else if 128 ≤ h then
    let n := h - 127
    let k := (n + 1) / 2
    if d.length < 1 + k then none
    else some ((List.range n).map (fun i => let x := (d.getD (1 + i / 2) 0).toNat; if i % 2 = 0 then x / 16 else x % 16), 1 + k)
  else
    let body := (d.drop 1).take h
    if d.length < 1 + h then none
    else match fseRead body 255 6 with
    | none => none
    | some (t, used) => match BackBits.of (body.drop used) with
      | none => none
      | some b =>
        let (a, b) := b.read t.log
        let (c, b) := b.read t.log
        if b.pos < 0 then none else some (huffFse t 256 a c b [], 1 + h)

/-- The tree of some weights, the last of which follows from the others. -/
def huffOf (w : List Nat) : Option Huff :=
  let sum := w.foldl (fun a x => a + (if x = 0 then 0 else 2 ^ (x - 1))) 0
  let log := Nat.log2 sum + 1
  let left := 2 ^ log - sum
  if sum = 0 || w.any (fun x => decide (12 < x)) || 11 < log || 2 ^ Nat.log2 left ≠ left || 255 < w.length then none
  else
    let w := (w ++ [Nat.log2 left + 1]).zipIdx
    let cells := (List.range log).flatMap (fun k => (w.filter (fun e => e.1 == k + 1)).flatMap (fun e =>
      List.replicate (2 ^ k) (e.2, log - k)))
    some ⟨log, cells.toArray⟩

/-- The literals of one stream. -/
def huffStream (h : Huff) : Nat → Nat → BackBits → List Byte → Option (List Byte)
  | 0, _, _, _ => none
  | f + 1, st, b, acc =>
    if b.pos ≤ -(h.log : Int) then (if b.pos = -(h.log : Int) then some acc.reverse else none)
    else
      let (sym, n) := h.cells.getD st (0, 0)
      let (v, b) := b.read n
      huffStream h f (st * 2 ^ n % 2 ^ h.log + v) b (BitVec.ofNat 8 sym :: acc)
def huffDecode (h : Huff) (d : List Byte) : Option (List Byte) :=
  match BackBits.of d with
  | some b => let (st, b) := b.read h.log; huffStream h (8 * d.length + 16) st b []
  | none => none

/-! ## Literals -/

/-- What a frame carries from block to block: the tree, the tables of literal lengths, offsets and match lengths, the last
three offsets, and the bytes so far. -/
structure Zstd where
  huff : Option Huff := none
  ll : Option Fse := none
  off : Option Fse := none
  ml : Option Fse := none
  reps : Nat × Nat × Nat := (1, 4, 8)
  out : Array Byte := #[]

/-- The literals of a block, the tree to keep, and the bytes that the section takes. -/
def zLiterals (z : Zstd) (d : List Byte) : Option (List Byte × Option Huff × Nat) :=
  let x := natOf (d.take 5)
  let kind := x % 4
  let fmt := x / 4 % 4
  if d.isEmpty then none
  else if kind < 2 then
    let (hd, n) := if fmt % 2 = 0 then (1, x / 8 % 32) else if fmt = 1 then (2, x / 16 % 2 ^ 12) else (3, x / 16 % 2 ^ 20)
    let used := hd + (if kind = 0 then n else 1)
    if d.length < used then none
    else some (if kind = 0 then (d.drop hd).take n else List.replicate n (d.getD hd 0), z.huff, used)
  else
    let (hd, w) := if fmt < 2 then (3, 10) else if fmt = 2 then (4, 14) else (5, 18)
    let n := x / 16 % 2 ^ w
    let c := x / 2 ^ (4 + w) % 2 ^ w
    let body := (d.drop hd).take c
    if d.length < hd + c then none
    else
      let tree := if kind = 2 then (huffWeights body).bind (fun e => (huffOf e.1).map (fun h => (h, e.2))) else z.huff.map (fun h => (h, 0))
      match tree with
      | none => none
      | some (h, k) =>
        let data := body.drop k
        let lits :=
          if fmt = 0 then huffDecode h data
          else
            let s1 := natOf (data.take 2)
            let s2 := natOf ((data.drop 2).take 2)
            let s3 := natOf ((data.drop 4).take 2)
            let r := data.drop 6
            if data.length < 6 + s1 + s2 + s3 then none
            else match huffDecode h (r.take s1), huffDecode h ((r.drop s1).take s2), huffDecode h ((r.drop (s1 + s2)).take s3),
                huffDecode h (r.drop (s1 + s2 + s3)) with
              | some a, some b, some c, some e =>
                if a.length = (n + 3) / 4 ∧ b.length = a.length ∧ c.length = a.length then some (a ++ b ++ c ++ e) else none
              | _, _, _, _ => none
        match lits with
        | some l => if l.length = n then some (l, some h, hd + c) else none
        | none => none

/-! ## Sequences -/

/-- The base and the extra bits of literal-length and match-length codes. -/
def llCode (c : Nat) : Nat × Nat :=
  if c < 16 then (c, 0)
  else [(16, 1), (18, 1), (20, 1), (22, 1), (24, 2), (28, 2), (32, 3), (40, 3), (48, 4), (64, 6), (128, 7), (256, 8), (512, 9),
    (1024, 10), (2048, 11), (4096, 12), (8192, 13), (16384, 14), (32768, 15), (65536, 16)].getD (c - 16) (0, 0)
def mlCode (c : Nat) : Nat × Nat :=
  if c < 32 then (c + 3, 0)
  else [(35, 1), (37, 1), (39, 1), (41, 1), (43, 2), (47, 2), (51, 3), (59, 3), (67, 4), (83, 4), (99, 5), (131, 7), (259, 8),
    (515, 9), (1027, 10), (2051, 11), (4099, 12), (8195, 13), (16387, 14), (32771, 15), (65539, 16)].getD (c - 32) (0, 0)

/-- The predefined tables. -/
def llDefault : Fse := fseOf 6 ([4, 3] ++ List.replicate 11 2 ++ [1, 1, 1] ++ List.replicate 9 2 ++ [3, 2] ++ List.replicate 5 1
  ++ List.replicate 4 (-1))
def mlDefault : Fse := fseOf 6 ([1, 4, 3] ++ List.replicate 6 2 ++ List.replicate 37 1 ++ List.replicate 7 (-1))
def offDefault : Fse := fseOf 5 (List.replicate 6 1 ++ [2, 2, 2] ++ List.replicate 15 1 ++ List.replicate 5 (-1))

/-- One of the three tables by its mode, and the bytes that its description takes. -/
def zTable (mode : Nat) (d : List Byte) (dflt : Fse) (old : Option Fse) (top most : Nat) : Option (Fse × Nat) :=
  match mode with
  | 0 => some (dflt, 0)
  | 1 => if d.isEmpty || top < (d.headD 0).toNat then none else some (fseSingle (d.headD 0).toNat, 1)
  | 2 => fseRead d top most
  | _ => old.map (fun t => (t, 0))

/-- A sequence: literals, match length, and its offset value. -/
def zSequences (ll off ml : Fse) : Nat → Nat → Nat → Nat → BackBits → List (Nat × Nat × Nat) → Option (List (Nat × Nat × Nat))
  | 0, _, _, _, b, acc => if b.pos = 0 then some acc.reverse else none
  | n + 1, a, o, m, b, acc =>
    let oc := off.symbol o
    let (lb, lx) := llCode (ll.symbol a)
    let (mb, mx) := mlCode (ml.symbol m)
    let (ov, b) := b.read oc
    let (mv, b) := b.read mx
    let (lv, b) := b.read lx
    let acc := (lb + lv, mb + mv, 2 ^ oc + ov) :: acc
    if n = 0 then (if b.pos = 0 then some acc.reverse else none)
    else
      let (a, b) := ll.next a b
      let (m, b) := ml.next m b
      let (o, b) := off.next o b
      zSequences ll off ml n a o m b acc

/-- The offset that an offset value names, and the last three offsets behind it. -/
def zOffset (r : Nat × Nat × Nat) (lits v : Nat) : Nat × (Nat × Nat × Nat) :=
  if 3 < v then (v - 3, v - 3, r.1, r.2.1)
  else
    let k := v - 1 + (if lits = 0 then 1 else 0)
    match k with
    | 0 => (r.1, r)
    | 1 => (r.2.1, r.2.1, r.1, r.2.2)
    | 2 => (r.2.2, r.2.2, r.1, r.2.1)
    | _ => (r.1 - 1, r.1 - 1, r.1, r.2.1)

/-- n bytes copied from an offset back. -/
def zMatch (off : Nat) : Nat → Array Byte → Array Byte
  | 0, a => a
  | n + 1, a => zMatch off n (a.push (a.getD (a.size - off) 0))

/-- The sequences carried out over the literals; none where an offset reaches beyond the window or the frame. -/
def zExecute (window : Nat) : List (Nat × Nat × Nat) → List Byte → Zstd → Option Zstd
  | [], lits, z => some { z with out := z.out ++ lits.toArray }
  | (ll, ml, v) :: r, lits, z =>
    let (off, reps) := zOffset z.reps ll v
    let out := z.out ++ (lits.take ll).toArray
    if lits.length < ll || off = 0 || out.size < off || window < off then none
    else zExecute window r (lits.drop ll) { z with reps := reps, out := zMatch off ml out }

/-! ## Blocks and the frame -/

/-- A compressed block. -/
def zBlock (window : Nat) (z : Zstd) (d : List Byte) : Option Zstd :=
  match zLiterals z d with
  | none => none
  | some (lits, huff, used) =>
    let d := d.drop used
    let z := { z with huff := huff }
    let b0 := (d.headD 0).toNat
    let (hd, n) := if b0 < 128 then (1, b0) else if b0 < 255 then (2, (b0 - 128) * 256 + (d.getD 1 0).toNat)
      else (3, natOf ((d.drop 1).take 2) + 0x7F00)
    if d.length < hd then none
    else if n = 0 then (if d.length = 1 then zExecute window [] lits z else none)
    else
      let modes := (d.getD hd 0).toNat
      let d := d.drop (hd + 1)
      if modes % 4 ≠ 0 then none
      else match zTable (modes / 64) d llDefault z.ll 35 9 with
      | none => none
      | some (tl, kl) => match zTable (modes / 16 % 4) (d.drop kl) offDefault z.off 31 8 with
        | none => none
        | some (tf, ko) => match zTable (modes / 4 % 4) (d.drop (kl + ko)) mlDefault z.ml 52 9 with
          | none => none
          | some (tm, km) => match BackBits.of (d.drop (kl + ko + km)) with
            | none => none
            | some b =>
              let (a, b) := b.read tl.log
              let (o, b) := b.read tf.log
              let (m, b) := b.read tm.log
              match zSequences tl tf tm n a o m b [] with
              | none => none
              | some l => zExecute window l lits { z with ll := some tl, off := some tf, ml := some tm }

/-- Blocks up to the last, and what stands behind them. A block regenerates at most 128 KiB or a window. -/
def zBlocks (window : Nat) : Nat → Zstd → List Byte → Option (Zstd × List Byte)
  | 0, _, _ => none
  | f + 1, z, d =>
    let x := natOf (d.take 3)
    let n := x / 8
    let most := min window (2 ^ 17)
    let body := (d.drop 3).take n
    let next : Option (Zstd × Nat) := match x / 2 % 4 with
      | 0 => if body.length = n ∧ n ≤ most then some ({ z with out := z.out ++ body.toArray }, n) else none
      | 1 => if n ≤ most ∧ 4 ≤ d.length then some ({ z with out := z.out ++ Array.replicate n (d.getD 3 0) }, 1) else none
      | 2 => if body.length = n ∧ n ≤ most then (zBlock window z body).map (fun z => (z, n)) else none
      | _ => none
    match next with
    | none => none
    | some (y, used) =>
      if d.length < 3 || z.out.size + most < y.out.size then none
      else if x % 2 = 1 then some (y, d.drop (3 + used)) else zBlocks window f y (d.drop (3 + used))

/-- XXH64 with seed 0. -/
def xxP (k : Nat) : DWord :=
  [0x9E3779B185EBCA87, 0xC2B2AE3D27D4EB4F, 0x165667B19E3779F9, 0x85EBCA77C2B2AE63, 0x27D4EB2F165667C5].getD (k - 1) 0
def xxRound (acc x : DWord) : DWord := (acc + x * xxP 2).rotateLeft 31 * xxP 1
def xxMerge (h acc : DWord) : DWord := (h ^^^ xxRound 0 acc) * xxP 1 + xxP 4
def xxTail : Nat → DWord → List Byte → DWord
  | 0, h, _ => h
  | f + 1, h, d =>
    if 8 ≤ d.length then
      xxTail f ((h ^^^ xxRound 0 (BitVec.ofNat 64 (natOf (d.take 8)))).rotateLeft 27 * xxP 1 + xxP 4) (d.drop 8)
    else if 4 ≤ d.length then
      xxTail f ((h ^^^ BitVec.ofNat 64 (natOf (d.take 4)) * xxP 1).rotateLeft 23 * xxP 2 + xxP 3) (d.drop 4)
    else match d with
      | b :: r => xxTail f ((h ^^^ b.setWidth 64 * xxP 5).rotateLeft 11 * xxP 1) r
      | [] => h
def xxStripes : Nat → List DWord → List Byte → List DWord × List Byte
  | 0, v, d => (v, d)
  | f + 1, v, d =>
    if d.length < 32 then (v, d)
    else xxStripes f ((v.zipIdx).map (fun e => xxRound e.1 (BitVec.ofNat 64 (natOf ((d.drop (8 * e.2)).take 8))))) (d.drop 32)
def xxh64 (d : List Byte) : DWord :=
  let v : List DWord := [xxP 1 + xxP 2, xxP 2, 0, 0 - xxP 1]
  let (w, r) := xxStripes (d.length / 32) v d
  let turns := [1, 7, 12, 18]
  let h := if d.length < 32 then xxP 5
    else w.foldl xxMerge ((w.zipIdx).foldl (fun a e => a + e.1.rotateLeft (turns.getD e.2 0)) 0)
  let h := xxTail 40 (h + BitVec.ofNat 64 d.length) r
  let h := (h ^^^ h >>> 33) * xxP 2
  let h := (h ^^^ h >>> 29) * xxP 3
  h ^^^ h >>> 32

/-- The bytes of exactly one frame with a Window_Size of 64 KiB or less, without a Dictionary_ID, whose content size and
checksum, where present, match (R397); none of any other. -/
def zstdDecode (d : List Byte) : Option (List Byte) :=
  let fhd := (d.getD 4 0).toNat
  let single := flagBit fhd 5
  let wd := (d.getD 5 0).toNat
  let base := 2 ^ (10 + wd / 8)
  let d1 := d.drop (if single then 5 else 6)
  let fcs := match fhd / 64 with
    | 0 => if single then 1 else 0
    | 1 => 2
    | 2 => 4
    | _ => 8
  let size := natOf (d1.take fcs) + (if fcs = 2 then 256 else 0)
  let window := if single then size else base + base / 8 * (wd % 8)
  if natOf (d.take 4) ≠ 0xFD2FB528 || flagBit fhd 3 || fhd % 4 ≠ 0 || 65536 < window || d1.length < fcs then none
  else match zBlocks window d.length {} (d1.drop fcs) with
  | none => none
  | some (z, rest) =>
    let out := z.out.toList
    let sum := if flagBit fhd 2 then bytesOf 4 (xxh64 out).toNat else []
    if rest = sum ∧ (fcs = 0 ∨ out.length = size) then some out else none

end Sys2Proof.Machine
end

