-- ==== Sys2Proof/Machine/Events.lean ====
section
/-! DEFINITION. Events of the memory hierarchy (R277, R281, R284), waits on words and counters (R159, R160, R162, R154,
R449), page requests (R392 to R394), and fills of texture pages (R396, R397). -/

namespace Sys2Proof.Machine

/-! ## Window lines -/

/-- A fill that cannot be made: its touchers issue again and take the cause at their words, each with its own address
(R95, R391, R392; log 150). -/
def State.failLine (s : State) (t n l cause : Nat) : State :=
  let key := n * 65536 + l
  let touched := s.groups.any (fun e => e.2.parked.any (fun p => p.why == .window t n l))
  let mark := fun (m : SMap WinLine) =>
    if touched then SMap.put m key ⟨false, 0, false, false, 12, cause⟩ else SMap.erase m key
  let s := s.modTeam t (fun t => { t with lines := mark t.lines })
  s.resumeWhere (fun w => w == .window t n l)

/-- A fill whose translation fails in stage 2: its touchers wait for the page, the line absent (R392). -/
def State.lineWaits (s : State) (t n l k va : Nat) : State :=
  let s := s.modTeam t (fun t => { t with lines := SMap.erase t.lines (n * 65536 + l) })
  { s with groups := s.groups.map (fun e => (e.1, { e.2 with
      parked := e.2.parked.map (fun p => if p.why = .window t n l then { p with why := .page k p.map va } else p) })) }

/-- STASH_LINE_FILL (R277, R391): a touched line of a resident team is translated, the core's L1 gives up the line,
and the window holds it whole; its touchers proceed. -/
def execStashLineFill (t n l : Nat) (s : State) : Out :=
  match SMap.find s.teams t with
  | none => .next s
  | some m =>
    match SMap.find m.lines (n * 65536 + l), SMap.find m.windows n with
    | some e, some w =>
      if e.present || e.cause != 0 || m.life != .resident then .next s
      else
        let s := s.forGrid m.grid
        let va := w.lineAddr l
        let engine := if w.tensor then Cache.ahead m.core else .core m.core
        let q : TransReq := ⟨engine, m.ctx, true, .read⟩
        (match s.translate q va with
        | .ok pa leaf =>
          let line := pa / 256
          let mem := ((s.mem.evictLine m.core line).fillSector m.core (2 * line)).fillSector m.core (2 * line + 1)
          let s := ({ s with mem := mem }).cacheXlat q va
          let s := s.modTeam t (fun t => { t with
            lines := SMap.put t.lines (n * 65536 + l) ⟨true, pa / 256 * 256, leaf.w, leaf.u, leaf.bits, 0⟩ })
          .next (s.resumeWhere (fun w => w == .window t n l))
        | .absent => .next (s.failLine t n l 0x05)
        | .denied => .next (s.failLine t n l 0x06)
        | .soft => .next (s.failLine t n l 0x15)
        | .stage2 gpa =>
          let (s, k) := s.postPage engine m.ctx (if w.tensor then 2 else 0) true false gpa
          .next (s.lineWaits t n l k va))
    | _, _ => .next s

/-! ## Ownership -/

/-- A line that a window of a core holds, which the core's L1 does not allocate (R277). -/
def State.inWindow (s : State) (core line : Nat) : Bool :=
  s.teams.any (fun e => e.2.core == core && e.2.life == .resident && e.2.lines.any (fun w => w.2.present && w.2.pa / 256 == line))

/-- OWNERSHIP_REGISTRATION (R281): a registration in flight reaches its slice, with that of the other word of a wide store
(R385; log 141). -/
def execOwnershipRegistration (c w : Nat) (s : State) : Out := .next { s with mem := s.mem.ack c w }

/-- RECALL (R281): a displaced owner clears a word that another core owns at the slice. -/
def execRecall (c w : Nat) (s : State) : Out :=
  match SMap.find s.mem.registry w, SMap.find s.mem.l1 (l1Key c w) with
  | some o, some e => if o.core ≠ c ∧ e.owned = true then .next { s with mem := s.mem.recallFrom c w } else .next s
  | _, _ => .next s

/-- The reply to a core's miss for a sector of memory may come at any time: to a load that has issued, or ahead of one whose
answer it then is (R308; log 163). -/
def State.mayFill (s : State) (c x : Nat) : Bool := decide (c < 48) && decide (x < 2 ^ 41) && !s.inWindow c (x / 2)

/-- FORWARDED_READ, READ_MISS (R281): the reply to a core's miss fills a word, or its sector. -/
def execForwardedRead (c w : Nat) (s : State) : Out :=
  if s.mayFill c (w / 32) then .next { s with mem := s.mem.fillWord c w } else .next s
def execReadMiss (c x : Nat) (s : State) : Out :=
  if s.mayFill c x then .next { s with mem := { (s.mem.fillSector c x) with misses := s.mem.misses.erase (c, x) } } else .next s

/-- SECTOR_WRITE_BACK (R160, R279, R281, R284): a core's dirty sector to its slice; from c = 48 on, a dirty sector of L2
slice c − 48 to the SLC. -/
def execSectorWriteBack (c x : Nat) (s : State) : Out :=
  if c < 48 then
    (match SMap.find s.mem.dirty (secKey c x) with
    | some _ => .next { s with mem := (s.mem.backSector c x).note (x / 2) }
    | none => .next s)
  else if s.mem.dirtyL2.contains x && c - 48 == l2Slice (x / 2) then .next { s with mem := s.mem.pushSector x }
  else .next s

/-- L1_EVICTION (R281): a line that no window of the core holds. -/
def execL1Eviction (c l : Nat) (s : State) : Out :=
  if s.inWindow c l || 47 < c then .next s else .next { s with mem := s.mem.evictLine c l }

/-! ## Waits -/

/-- Whether a device wait's condition holds, read as the core reads the watched word. -/
def State.waitHolds (s : State) (core : Nat) : Park → Bool
  | .waitcmp pa v c _ _ => waitCond c (s.mem.waitWord core (pa / 4)).toNat v.toNat
  | .ctrWait pa target _ => target ≤ s.mem.counter core pa
  | _ => false

/-- The scope of a device wait's acquire, and whether it watches a line. -/
def Park.waitScope : Park → Nat
  | .waitcmp _ _ _ e _ => e
  | .ctrWait _ _ e => e
  | _ => 0
def Park.watches (l : Nat) : Park → Bool
  | .waitcmp pa _ _ _ polls => !polls && pa / 256 == l
  | .ctrWait pa _ _ => pa / 256 == l
  | _ => false

/-- The words that a device wait reads, and what its reading of them leaves (R281, R294). -/
def State.waitSees (s : State) (core : Nat) : Park → State
  | .waitcmp pa _ _ _ _ => s.waitRead core (pa / 4) 1
  | .ctrWait pa _ _ => s.waitRead core (pa / 4) 2
  | _ => s

/-- Threads whose wait has ended go on at the next packet with an acquire at its scope; a wake on a core ends its sleeps
(R224). -/
def State.wake (s : State) (id : Nat) (p : Parked) : State :=
  match SMap.find s.groups id with
  | some g => ((((s.waitSees g.core p.why).setGroup id (g.resumeNext p)).acquireBy id p.why.waitScope).wakeCore g.core)
  | none => s

/-- The write that has been noted can end the wait of a saved team, which is queued for relaunch at it (R265): for a
counter, where it has been added to. -/
def State.mayEnd (s : State) : Park → Bool
  | .ctrWait pa _ _ => s.mem.adds.contains pa
  | _ => true

/-- The device waiters of a line are evaluated (R160, R265). -/
def State.evaluate (s : State) (l : Nat) : State :=
  let s := (s.waiters (fun _ w => w.watches l)).foldl (fun (s : State) w =>
    if w.g.life != .resident then (if s.mayEnd w.p.why then s.wantTeam w.g else s)
    else if s.waitHolds w.g.core w.p.why then s.wake w.id w.p
    else s) s
  { s with mem := { s.mem with adds := s.mem.adds.filter (fun a => a / 256 != l) } }

/-- The host waits of a line, each with its word read at the SLC: one whose condition holds is removed and its wake word
written (R449, R456). -/
def State.hostEvaluate (s : State) (l : Nat) : State :=
  (s.host.waits.filter (fun w => w.pa / 256 == l)).foldl (fun (s : State) w =>
    let (s, d) := s.hRead w.pa 4
    if waitCond w.cond (natOf d) w.value then
      ({ s with host := { s.host with waits := s.host.waits.erase w } }).hWrite w.wakea (bytesOf 8 w.token)
    else s) s

/-- The entry that the part keeps for the PWAKE word: in Listen, the word non-zero wakes the part (R471). -/
def State.pwakeEvaluate (s : State) (l : Nat) : State :=
  let a := s.pwr.pwake
  if s.pwr.target == .listen && a / 256 == l then
    let (s, d) := s.hRead a 4
    if natOf d ≠ 0 then { s with pwr := { s.pwr with wakeDue := true } } else s
  else s

/-- NOTIFY_EVALUATE (R160): the waiters on a line with a notifying write, once no store to the line still has its
registration in flight (R281), so that the write is visible to them. -/
def execNotifyEvaluate (l : Nat) (s : State) : Out :=
  if s.mem.notify.contains l && !s.mem.regq.any (fun e => e.2 / 64 == l) then
    .next (((({ s with mem := { s.mem with notify := s.mem.notify.erase l } }).evaluate l).hostEvaluate l).pwakeEvaluate l)
  else .next s

/-- WAITCMP_POLL (R162): the k-th wait of a group, which polls. -/
def execWaitcmpPoll (id k : Nat) (s : State) : Out :=
  match SMap.find s.groups id with
  | none => .next s
  | some g =>
    match g.parked[k]? with
    | none => .next s
    | some p =>
      match p.why with
      | .waitcmp _ _ _ _ true =>
        if g.life == .resident && s.waitHolds g.core p.why then .next (s.wake id p) else .next s
      | _ => .next s

/-! ## Page requests -/

/-- PRQ_HEAD_POLL (R393): a request that found the ring full takes a slot once one is free. -/
def execPrqHeadPoll (k : Nat) (s : State) : Out :=
  match SMap.find s.trans.reqs k with
  | some q =>
    if q.record.isSome then .next s
    else
      let t := { s with trans := { s.trans with reqs := SMap.erase s.trans.reqs k, nextReq := k } }
      let (t, _) := t.postPage q.engine q.ctx q.path q.stage2 q.wr q.addr
      .next { t with trans := { t.trans with nextReq := s.trans.nextReq } }
  | none => .next s

/-- A wait becomes the cause that a failed page request gives its threads (R364, R392). -/
def Park.pageFailed (k : Nat) : Park → Park
  | .page j m va => if j = k then .trap 0x06 m va else .page j m va
  | w => w

/-- The words that await a page request issue again, or all take cause 0x06 when it failed (R392, R394). -/
def State.pageWords (s : State) (k : Nat) (failed : Bool) : State :=
  if failed then { s with groups := s.groups.map (fun e => (e.1, { e.2 with
      parked := e.2.parked.map (fun p => { p with why := p.why.pageFailed k }) })) }
  else s.resumeWhere (fun w => match w with
    | .page j _ _ => j == k
    | _ => false)

/-- The traps whose frames await it are taken, or end their groups by double trap (R366, R392). -/
def State.pageFrames (s : State) (k : Nat) (failed : Bool) : State :=
  (s.groups.filter (fun e => (e.2.frameWait.bind (fun w => w.req)) == some k)).foldl (fun (s : State) e =>
    if failed then s.doubleTrap e.1 ((e.2.frameWait.map (fun w => w.pc)).getD 0) 0x3F
    else s.modGroup e.1 (fun g => { g with frameWait := g.frameWait.map (fun w => { w with req := none }) })) s

/-- The queued steps that await it fetch again, or hold the step cause 0x06. -/
def QStep.resolved (q : QStep) (k : Nat) (failed : Bool) : QStep :=
  match q.waits with
  | some (j, va) => if j = k then { q with waits := none, held := if failed then some (0x06, va) else q.held } else q
  | none => q
def State.pageSteps (s : State) (k : Nat) (failed : Bool) : State :=
  { s with groups := s.groups.map (fun e => (e.1, { e.2 with
      tile := e.2.tile.map (fun t => { t with queue := t.queue.map (fun q => q.resolved k failed) }) })) }

/-- The copies that await it go on, or end with cause 0x13 (R152, R392). -/
def State.pageCopies (s : State) (k addr : Nat) (failed : Bool) : State :=
  (s.copies.filter (fun e => e.2.waits == some k)).foldl (fun (s : State) e =>
    if failed then s.failCopy e.1 e.2 addr
    else { s with copies := SMap.put s.copies e.1 { e.2 with waits := none } }) s

/-- The launches and the retiring grids that await it walk again, or fail (R392). -/
def State.pageEngines (s : State) (k : Nat) (failed : Bool) : State :=
  { s with
    host := { s.host with launches := s.host.launches.map (fun i =>
      if i.waits = some k then { i with waits := none, failed := failed } else i) }
    grids := s.grids.map (fun e => (e.1, if e.2.doneWait = some k then { e.2 with doneWait := none, doneFailed := failed } else e.2)) }

/-- A residency code is written through path H, a notifying write of scope sys (R396, R397); where its page is not present,
once the page request has been resolved (R392). -/
def State.putCode (s : State) (ctx va bit code : Nat) : State :=
  match s.hPlace .streaming ctx va with
  | .ok pa =>
    if s.svc.covers pa 4 then s.violate
    else
      let (m, _) := s.mem.atomicSys (pa / 4) (fun w => (w &&& ~~~((3 : Word) <<< bit)) ||| BitVec.ofNat 32 (code * 2 ^ bit))
      { s with mem := m.note (pa / 256) }
  | .error none => s
  | .error (some (st2, a)) => s.hWait .streaming 6 ctx va (.code bit code) st2 a

/-- A write of path H whose page request has been resolved is made, or refused (R392, R434). -/
def State.hRetry (s : State) (failed : Bool) (w : HWait) : State :=
  match w.kind, failed with
  | .record p kind code, false => s.toCaddr w.ctx p kind code true
  | .record p kind code, true => s.toError p kind code
  | .control, false => s.putCcb w.ctx
  | .code bit code, false => s.putCode w.ctx w.va bit code
  | _, true => s
def State.pageWrites (s : State) (k : Nat) (failed : Bool) : State :=
  (s.hwaits.filter (fun w => w.req == k)).foldl (fun (s : State) w => s.hRetry failed w)
    { s with hwaits := s.hwaits.filter (fun w => w.req != k) }

/-- A fill leaves the engine with its page's code (R397). -/
def State.endFill (s : State) (k : Nat) (f : Fill) (code : Nat) : State :=
  ({ s with stream := { s.stream with fills := SMap.erase s.stream.fills k } }).putCode f.ctx f.mapWord f.bit code

/-- The fills that await it go on, or fail their pages. -/
def State.pageFills (s : State) (k : Nat) (failed : Bool) : State :=
  (s.stream.fills.filter (fun e => e.2.waits == some k)).foldl (fun (s : State) e =>
    if failed then s.endFill e.1 e.2 3
    else { s with stream := { s.stream with fills := SMap.put s.stream.fills e.1 { e.2 with waits := none } } }) s

/-- A page request ends: whatever awaits it walks again from the root, or fails. -/
def State.resolvePage (s : State) (k : Nat) (q : PageReq) (failed : Bool) : State :=
  let s := ({ s with trans := { s.trans with reqs := SMap.erase s.trans.reqs k } }).forget q.engine q.ctx q.addr
  ((((((s.pageWords k failed).pageFrames k failed).pageSteps k failed).pageCopies k q.addr failed).pageEngines k failed).pageWrites k failed).pageFills
    k failed

/-- PAGE_REQUEST_RESOLVED (R394): STATUS of a posted request is no longer 0. -/
def execPageRequestResolved (k : Nat) (s : State) : Out :=
  match SMap.find s.trans.reqs k with
  | some q =>
    (match q.record with
    | some a =>
      let (s, d) := s.hRead (a + 28) 4
      if natOf d = 0 then .next s else .next (s.resolvePage k q (natOf d == 2))
    | none => .next s)
  | none => .next s

/-! ## Texture pages from the Peat tier -/

/-- A fill awaits a page (R392, path 6). -/
def State.fillWaits (s : State) (k : Nat) (f : Fill) (st2 wr : Bool) (addr : Nat) : State :=
  let (s, r) := s.postPage .streaming f.ctx 6 st2 wr addr
  { s with stream := { s.stream with fills := SMap.put s.stream.fills k { f with waits := some r } } }

/-- PEAT_FILL_START (R397): the first queued fill reads its index entry, while fewer than 256 run, the queue pair has been
granted and the root port has come up (R473): without it the fills stay queued (log 188). The read commands for its blocks go
out. -/
def execPeatFillStart (s : State) : Out :=
  match s.stream.fills.find? (fun e => !e.2.running && e.2.waits.isNone) with
  | none => .next s
  | some (k, f) =>
    if !s.stream.granted || s.pwr.brupFail == 6 || decide (256 ≤ (s.stream.fills.filter (fun e => e.2.running)).length) then .next s
    else
      let q : TransReq := ⟨.streaming, f.ctx, false, .read⟩
      match s.frontPage q f.index 16 with
      | .error none => .next (s.endFill k f 3)
      | .error (some (st2, a)) => .next (s.fillWaits k f st2 false a)
      | .ok d =>
        let s := s.touchPage q f.index 16
        let x := natOf d
        let clen := bits x 113 96
        if !flagBit x 0 || bits x 127 114 != 0 || bits x 95 64 != 0 || bits x 15 2 != 0 || clen = 0 || 69632 < clen then
          .next (s.endFill k f 3)
        else
          let s := s.cacheXlat q f.index
          let f := { f with running := true, lba := bits x 63 16, clen := clen, raw := flagBit x 1 }
          .next { s with stream := { s.stream with
            fills := SMap.put s.stream.fills k f, reads := s.stream.reads ++ [(f.lba, (clen + 4095) / 4096)] } }

/-- The physical pages of a texture page's frame, or the access that fails. -/
def State.frame16 (s : State) (q : TransReq) (va : Nat) : Nat → Except (Option (Bool × Nat)) (List Nat)
  | 0 => .ok []
  | n + 1 => match s.translate q va with
    | .ok pa _ => (match State.frame16 s q (va + 4096) n with
      | .ok l => .ok (pa :: l)
      | .error e => .error e)
    | .absent => .error (some (false, va))
    | .denied => .error none
    | .soft => .error none
    | .stage2 gpa => .error (some (true, gpa))

/-- The decoded bytes of a fill (R397 step 3): a copy, or one Zstandard frame; none where the stored bytes break it. -/
def Fill.decoded (f : Fill) (d : List Byte) : Option (List Byte) :=
  let b := d.take f.clen
  match (if f.raw then some b else zstdDecode b) with
  | some o => if o.length = 65536 then some o else none
  | none => none

/-- 4096 bytes of a list to each page, through path H. -/
def State.writePages (s : State) : List Nat → List Byte → State
  | [], _ => s
  | pa :: r, d => State.writePages (s.hWrite pa (d.take 4096)) r (d.drop 4096)

/-- PEAT_FILL_COMPLETE (R397): the stored blocks of a running fill have arrived as d, or the read has failed. -/
def execPeatFillComplete (k : Nat) (ok : Bool) (d : List Byte) (s : State) : Out :=
  match SMap.find s.stream.fills k with
  | none => .next s
  | some f =>
    if !f.running || f.waits.isSome then .next s
    else if !ok then .next (s.endFill k f 3)
    else
      match f.decoded d with
      | none => .next (s.endFill k f 3)
      | some o =>
        match s.frame16 ⟨.streaming, f.ctx, false, .write⟩ f.page 16 with
        | .error none => .next (s.endFill k f 3)
        | .error (some (st2, a)) => .next (s.fillWaits k f st2 true a)
        | .ok pages => .next ((s.writePages pages o).endFill k f 1)

end Sys2Proof.Machine
end

