-- ==== Sys2Proof/Machine/Float.lean ====
section
/-! DEFINITION. Float and packed 16-bit float vector words (R112, R113, R115 to R120). -/

namespace Sys2Proof.Machine

/-- FADD, FSUB, FMUL and FMA: rounded once to FP32, optionally saturated (R115). -/
def execFadd (d : Nat) (a b : Src) (m : Bool) (s : State) : Out := stat2 s .flt d a b (fadd32 m)
def execFsub (d : Nat) (a b : Src) (m : Bool) (s : State) : Out := stat2 s .flt d a b (fsub32 m)
def execFmul (d : Nat) (a b : Src) (m : Bool) (s : State) : Out := stat2 s .flt d a b (fmul32 m)
def execFma (d : Nat) (a b : Src) (m : Bool) (s : State) : Out := stat3 s .flt d a b (fma32 m)

/-- FMIN and FMAX: an operand's own code, no status (R116). -/
def execFmin (d : Nat) (a b : Src) (s : State) : Out := vec2 s .flt d a b (fpick32 false)
def execFmax (d : Nat) (a b : Src) (s : State) : Out := vec2 s .flt d a b (fpick32 true)

/-- FCMP (R112) and FSEL, whose literal is a float (R113). -/
def execFcmp (p cc : Nat) (a b : Src) (s : State) : Out := cmp2 s .flt p a b (fltCond cc)
def execFsel (d p : Nat) (a : Src) (b : Nat) (n : Bool) (s : State) : Out :=
  issueRegs s (fun c g s => s.src1 c g .flt a (fun x =>
    g.regs.writeLanes d (fun t => if (g.regs.getP p).has t != n then x t else g.regs.getV t b) (c.lanes g)))

/-- The correctly rounded functions of the X pipe (R117). -/
def execFrcp (d : Nat) (a : Src) (s : State) : Out := stat1 s .flt d a (unary32 frcp)
def execFrsq (d : Nat) (a : Src) (s : State) : Out := stat1 s .flt d a (unary32 frsq)
def execFsqrt (d : Nat) (a : Src) (s : State) : Out := stat1 s .flt d a (unary32 fsqrt)
def execFexp2 (d : Nat) (a : Src) (s : State) : Out := stat1 s .flt d a (unary32 fexp2)
def execFlog2 (d : Nat) (a : Src) (s : State) : Out := stat1 s .flt d a (unary32 flog2)
def execFsin (d : Nat) (a : Src) (s : State) : Out := stat1 s .flt d a (unary32 fsin)
def execFcos (d : Nat) (a : Src) (s : State) : Out := stat1 s .flt d a (unary32 fcos)

/-- FFRC (R118) and FRND in the mode of SB (R119). -/
def execFfrc (d : Nat) (a : Src) (s : State) : Out := stat1 s .flt d a (unary32 ffrc)
def execFrnd (d : Nat) (a : Src) (r : Nat) (s : State) : Out := stat1 s .flt d a (unary32 (frnd r))

/-- The packed words: each half as the FP32 word of its kind, in FP16 or BF16 (R120). -/
def execHadd2 (d : Nat) (a b : Src) (m : Bool) (s : State) : Out :=
  let f := halfFmt m
  stat2 s (.half m) d a b (packed2 (fun x y => f.sum false (f.decode x) (f.decode y)))
def execHmul2 (d : Nat) (a b : Src) (m : Bool) (s : State) : Out :=
  let f := halfFmt m
  stat2 s (.half m) d a b (packed2 (fun x y => f.product false (f.decode x) (f.decode y)))
def execHfma2 (d : Nat) (a b : Src) (m : Bool) (s : State) : Out :=
  let f := halfFmt m
  stat3 s (.half m) d a b (packed3 (fun x y z => f.fused false (f.decode x) (f.decode y) (f.decode z)))
def execHmin2 (d : Nat) (a b : Src) (m : Bool) (s : State) : Out :=
  stat2 s (.half m) d a b (packed2 (fun x y => ((halfFmt m).pick false x y, 0)))
def execHmax2 (d : Nat) (a b : Src) (m : Bool) (s : State) : Out :=
  stat2 s (.half m) d a b (packed2 (fun x y => ((halfFmt m).pick true x y, 0)))

end Sys2Proof.Machine
end

