-- ==== Sys2Proof/Machine/Host.lean ====
section
/-! DEFINITION. The host side (24): accesses of host cores (R284), BAR0 (R441, R442, R468), doorbells and request
packets (R431 to R434), the command block (R445, R446) with revocation (R451) and teardown (R330, R458), and the
wait port (R448, R449). -/

namespace Sys2Proof.Machine

/-! ## BAR0 -/

/-- BAR0 answers: bring-up is complete, and the part is in Run or Listen (R470, R473). -/
def State.barOpen (s : State) : Bool := s.host.ready && (s.pwr.state == .run || s.pwr.state == .listen)

/-- PSTAT, BRUP, SNAPST and CMDST (R445, R468, R475). -/
def State.pstat (s : State) : Nat :=
  (match s.pwr.state with
    | .listen => 1
    | .retain => 2
    | _ => 0)
  + b2n s.pwr.busy * 4 + s.pwr.code % 2 ^ 8 * 2 ^ 8 + Config.temperature s.tick % 2 ^ 16 * 2 ^ 16
def State.brupWord (s : State) : Nat := s.pwr.brup % 2 ^ 8 + s.pwr.brupFail % 2 ^ 8 * 2 ^ 8
def State.snapst (s : State) : Nat :=
  b2n s.snap.held + s.snap.tag % 2 ^ 8 * 2 ^ 8 + s.snap.src % 4 * 2 ^ 16 + s.snap.clk % 2 ^ 32 * 2 ^ 32
def State.cmdst (s : State) : Nat := s.host.cmdState % 4 + s.host.cmdCode % 2 ^ 8 * 2 ^ 8 + b2n s.host.cmdLost * 2 ^ 16

/-- SNAPST_WRITE (R475): a BAR0 write. -/
def execSnapstWrite (v : Nat) (s : State) : Out :=
  .next (if s.barOpen && flagBit v 0 then { s with snap := { s.snap with held := false } } else s)

/-- A dword of a snapshot record: the held one, or the present counters of a record that is not latched (R476). -/
def State.snapDword (s : State) (b i : Nat) : Nat :=
  match SMap.find s.snap.latched b with
  | some l => if s.snap.held then l.getD i 0 else (s.snapRecord b false 0).getD i 0
  | none => (s.snapRecord b false 0).getD i 0

/-- Free entries of the wake table (R448, R450). -/
def State.wakeFree (s : State) : Nat := 65536 - (List.range 32).foldl (fun a k => a + s.wakeUsed k) 0

/-- A 64-bit read of a register outside the notify pages (R442, R445, R448, R468). -/
def State.reg64 (s : State) (o : Nat) : Nat :=
  match o with
  | 0x000 => b2n s.host.ready + b2n s.host.restart * 2
  | 0x008 => s.host.ctxtb
  | 0x010 => s.host.qitb
  | 0x018 => s.host.dres
  | 0x040 => s.pwr.pwrctl
  | 0x048 => s.pwr.pwake
  | 0x050 => s.pstat
  | 0x058 => s.snapst
  | 0x060 => s.brupWord
  | 0x10000 => s.host.cmda
  | 0x10008 => s.host.cmdb
  | 0x10010 => s.host.cmdc
  | 0x10018 => s.host.cmdd
  | 0x10028 => s.cmdst
  | 0x20000 => s.wakeFree
  | _ => if 0x8000 ≤ o && o < 0x10000 then s.snapDword ((o - 0x8000) / 512) (o % 512 / 8) else 0

/-- A read of BAR0 at an offset with a size in bytes (R431, R441). -/
def State.barRead (s : State) (o n : Nat) : Nat :=
  if o % n != 0 || (n != 4 && n != 8) then 0
  else if !s.host.ready then (if n = 8 ∧ (o = 0x050 ∨ o = 0x060) then s.reg64 o else 0)
  else if !s.barOpen then (if n = 8 ∧ (o = 0x040 ∨ o = 0x050) then s.reg64 o else 0)
  else if 0x100000 ≤ o then
    (if n = 4 && o % 0x1000 == 0 then
      (match SMap.find s.host.ifaces ((o - 0x100000) / 0x1000) with
        | some i => i.head % 2 ^ 16 + i.tail % 2 ^ 16 * 2 ^ 16
        | none => 0)
    else 0)
  else if n = 8 then s.reg64 o else 0

/-- A read of the service capability (R454). -/
def State.capRead (s : State) (o : Nat) : Nat :=
  match o with
  | 0x00 => 0x000B + Config.capHeader % 2 ^ 16 * 2 ^ 16
  | 0x04 => 0x02810001
  | 0x08 => s.svc.sreq % 2 ^ 32
  | 0x0C => s.svc.sreq / 2 ^ 32 % 2 ^ 16
  | 0x14 => s.svc.sstat % 4 + s.svc.scode % 2 ^ 8 * 2 ^ 8
  | 0x18 => s.svc.viol
  | 0x1C => s.svc.rstat % 4 + s.svc.recoveries * 2 ^ 16
  | 0x20 => s.svc.cecnt
  | 0x24 => s.svc.uecnt
  | _ => 0

/-- A read of the function's configuration space (R440): its vendor and device identifiers and its class code, which stand where
PCI Express has them (log 186). No capability of the function is MSI or MSI-X: its messages come from remapping entries (R436). -/
def State.cfgRead (_s : State) (o : Nat) : Nat :=
  match o with
  | 0x00 => 0x1FE5 + 0x0480 * 2 ^ 16
  | 0x08 => 0x120000 * 2 ^ 8 + Config.configWord 2 % 2 ^ 8
  | _ => Config.configWord (o / 4) % 2 ^ 32

/-- What the host reads, as the state's output. -/
def State.answer (s : State) (d : List Byte) : State := { s with host := { s.host with lastRead := d } }

/-- An access of a host core to memory in Listen takes its channel out of self-refresh (R279, R470). -/
def channelOf (a : Nat) : Nat := (a / 2 ^ 8 % 64) ^^^ (a / 2 ^ 14 % 64)
def State.wakeChannel (s : State) (a : Nat) : State :=
  let c := channelOf a
  if s.pwr.state == .listen && c != bits s.pwr.pwrctl 41 36 && !s.pwr.activeChannels.contains c then
    { s with pwr := { s.pwr with activeChannels := s.pwr.activeChannels ++ [c] } }
  else s

/-- The SLC's directory records that a host core may cache the lines of an access (R284). -/
def State.hostHolds (s : State) (a n : Nat) : State :=
  if s.svc.covers a n || n = 0 then s
  else
    let lines := (List.range ((a + n - 1) / 256 - a / 256 + 1)).map (fun i => a / 256 + i)
    { s with mem := lines.foldl (fun (m : MemSys) l => m.dir l (fun d => { d with hosts := addNew d.hosts (Config.hostCore s.tick) })) s.mem }

/-- HOST_READ (R284): n bytes of memory at a; from 2^48 on a register: offset a − 2^48 in BAR0, and the service
capability from 2^48 + 2^21 on, and the function's configuration space from 2^48 + 2^22 on (log 25). -/
def execHostRead (a n : Nat) (s : State) : Out :=
  let o := a - 2 ^ 48
  if a < 2 ^ 48 then
    (if s.pwr.state == .retain then .next s
    else
      let (t, d) := (s.wakeChannel a).hRead a n
      .next ((t.hostHolds a n).answer d))
  else if o < 2 ^ 21 then
    let t := if o = 0x10028 && n = 8 && s.barOpen then { s with host := { s.host with cmdLost := false } } else s
    .next (t.answer (bytesOf n (s.barRead o n)))
  else if o < 2 ^ 22 then .next (s.answer (bytesOf n (if n = 4 then s.capRead (o - 2 ^ 21) else 0)))
  else .next (s.answer (bytesOf n (if n = 4 then s.cfgRead (o - 2 ^ 22) else 0)))

/-- HOST_WRITE (R284). -/
def execHostWrite (a : Nat) (d : List (BitVec 8)) (s : State) : Out :=
  if a < 2 ^ 48 && s.pwr.state != .retain then .next (((s.wakeChannel a).hWrite a d).hostHolds a d.length) else .next s

/-- REGISTER_WRITE (R442, R445, R454, R468) of n bytes at an offset in BAR0, or from 2^21 on in the service
capability: a register with no behaviour of its own. -/
def State.setReg (s : State) (o v : Nat) : State :=
  let opened := s.host.ifaces.any (fun e => e.2.opened)
  match o with
  | 0x008 => if opened then s else { s with host := { s.host with ctxtb := v % 2 ^ 48 } }
  | 0x010 => if opened then s else { s with host := { s.host with qitb := v % 2 ^ 48 / 2 ^ 12 * 2 ^ 12 } }
  | 0x048 => { s with pwr := { s.pwr with pwake := v % 2 ^ 48 / 4 * 4 } }
  | 0x10000 => { s with host := { s.host with cmda := v % 2 ^ 64 } }
  | 0x10008 => { s with host := { s.host with cmdb := v % 2 ^ 64 } }
  | 0x10010 => { s with host := { s.host with cmdc := v % 2 ^ 64 } }
  | 0x10018 => { s with host := { s.host with cmdd := v % 2 ^ 64 } }
  | _ => s
def State.setCap (s : State) (o v : Nat) : State :=
  match o with
  | 0x08 => { s with svc := { s.svc with sreq := s.svc.sreq / 2 ^ 32 * 2 ^ 32 + v % 2 ^ 32 / 2 ^ 8 * 2 ^ 8 } }
  | 0x0C => { s with svc := { s.svc with sreq := s.svc.sreq % 2 ^ 32 + v % 2 ^ 16 * 2 ^ 32 } }
  | _ => s
def execRegisterWrite (o n v : Nat) (s : State) : Out :=
  if 2 ^ 21 ≤ o then .next (if n = 4 then s.setCap (o - 2 ^ 21) v else s)
  else .next (if n = 8 && s.barOpen then s.setReg o v else s)

/-- DRES_WRITE (R260): the SLC's ways are reserved with it. -/
def dresOk (v : Nat) : Bool :=
  decide (((List.range 48).filter (fun c => flagBit v c)).length ≤ 12) && decide (bits v 50 48 ≤ 4) && decide (bits v 54 51 ≤ 8)
def execDresWrite (v : Nat) (s : State) : Out :=
  .next (if s.barOpen && dresOk (v % 2 ^ 64) then
    { s with
      host := { s.host with dres := v % 2 ^ 64 }
      mem := { s.mem with slcWays := if flagBit v 63 then bits v 50 48 else 0 } }
  else s)

/-! ## Doorbells and packets -/

/-- The PASID of a context, and the bound context of a PASID (R220, R443). -/
def State.pasidOf (s : State) (ctx : Nat) : Nat := (s.ctx ctx).pasid
def State.ctxOf (s : State) (pasid : Nat) : Option Nat :=
  if pasid = 0 then none else (s.ctxs.find? (fun e => e.2.bound && e.2.pasid == pasid)).map Prod.fst

/-- DOORBELL_WRITE (R431): an access of n bytes at an offset of BAR0. An interface that has never been open has no
ring, and the write is discarded. -/
def execDoorbellWrite (o n v : Nat) (s : State) : Out :=
  let q := (o - 0x100000) / 0x1000
  if !s.barOpen || o < 0x100000 || 0x140000 ≤ o || n ≠ 4 || o % 0x1000 ≠ 0 || 2 ^ 16 ≤ v then .next s
  else match SMap.find s.host.ifaces q with
  | none => .next s
  | some i =>
    if 2 ^ (i.rsz + 4) < (v + 2 ^ 16 - i.head) % 2 ^ 16 then
      .next (s.toError ⟨q, 0, 0, s.pasidOf i.ctx, 0, 0, i.erra, i.rtab⟩ 2 0x06)
    else .next { s with host := { s.host with ifaces := SMap.put s.host.ifaces q { i with tail := v } } }

/-- The front end reads packets of a context: in Listen and on the way there only those of LCTX (R467, R471), and none while the
context's control block waits for its page (R465). -/
def State.reads (s : State) (ctx : Nat) : Bool :=
  !s.frozen && s.serves ctx && !s.ccbPending ctx
    && ((s.pwr.state == .run && s.pwr.target != .retain) || s.pwr.state == .listen)

/-- The interface served next: round robin after the one served last (R432). -/
def State.nextIface (s : State) : Option (Nat × Iface) :=
  ((List.range 64).map (fun k => (s.host.lastServed + 1 + k) % 64)).findSome? (fun q =>
    match SMap.find s.host.ifaces q with
    | some i => if i.opened && i.head != i.tail && s.reads i.ctx then some (q, i) else none
    | none => none)

/-- The code that refuses a packet before its addresses are translated, or 0 (R434). -/
def State.packetCode (s : State) (i : Iface) (x : Nat) : Nat :=
  let pasid := bits x 51 32
  let cmode := bits x 9 8
  let caddr := bits x 175 128
  if s.host.revoked.contains pasid then 0x14
  else if bits x 7 0 != 1 || cmode == 3 || bits x 15 10 != 0 || bits x 127 112 != 0 || bits x 511 176 != 0
      || (cmode != 2 && bits x 63 52 != 0) then 0x01
  else if pasid != s.pasidOf i.ctx then 0x02
  else if bits x 111 64 % 128 != 0 || caddr % 16 != 0 || (caddr == 0 && cmode != 0) then 0x03
  else if cmode == 2 && i.rtn ≤ bits x 63 52 then 0x04
  else 0

/-- A refused packet's record: at CADDR in the context of the packet's own PASID, else at the error record (R434). -/
def State.refusePacket (s : State) (i : Iface) (p : Packet) (code : Nat) : State :=
  let ctx := if p.pasid = s.pasidOf i.ctx then some i.ctx else s.ctxOf p.pasid
  match ctx with
  | some c => s.toCaddr c p 2 code true
  | none => s.toError p 2 code

/-- PACKET_READ (R432 to R434): one packet is read, counted in HEAD and in the control block, and launched or
refused. It stays in its ring while the control block cannot be written (R465). -/
def execPacketRead (s : State) : Out :=
  match s.nextIface.map (fun e => (e, s.ccbGate e.2.ctx)) with
  | none => .next s
  | some (_, some t) => .next t
  | some ((q, i), none) =>
    let (t, d) := s.hRead (i.ring + 64 * (i.head % 2 ^ (i.rsz + 4))) 64
    let x := natOf d
    let p : Packet := ⟨q, bits x 175 128, bits x 63 52, bits x 51 32, bits x 31 16, bits x 9 8, i.erra, i.rtab⟩
    let t := { t with host := { t.host with
      lastServed := q, ifaces := SMap.put t.host.ifaces q { i with head := (i.head + 1) % 2 ^ 16 } } }
    let t := t.syncCcb i.ctx
    let code := s.packetCode i x
    if code ≠ 0 then .next (t.refusePacket i p code)
    else
      let l : Launch :=
        { ctx := i.ctx, lpb := bits x 111 64, super := i.priv, packet := some p, root := some p, arrived := s.clock,
          waits := none, failed := false }
      .next { t with host := { t.host with launches := t.host.launches ++ [l] } }

/-! ## Commands -/

/-- A write of CMD starts a command (R445, R446): discarded while one runs, refused during a warm restart, refused
with the code it comes to, or running until its completion. -/
def State.command (s : State) (op : Nat) (run : State → State × Nat) : State :=
  let refuse := fun (t : State) (c : Nat) => { t with host := { t.host with cmdState := 3, cmdCode := c } }
  if !s.barOpen then s
  else if s.host.cmdState = 1 then { s with host := { s.host with cmdLost := true } }
  else if s.host.restart then refuse s 0x04
  else
    let (t, c) := run s
    if c ≠ 0 then refuse t c
    else { t with host := { t.host with cmdState := 1, cmdCode := 0, cmdOp := op, cmdArg := s.host.cmda } }

/-- Context table entries, and an entry's address (R442). -/
def State.ctxCount (s : State) : Nat := s.host.ctxtb % 4096 + 1
def State.ctxEntry (s : State) (n : Nat) : Nat := s.host.ctxtb / 4096 * 4096 + 64 * n

/-- The limits of a pool's image, from the image alone (R318, R334). -/
def Pool.within (p : Pool) (most : Nat) : Bool :=
  decide (p.size ≤ most)
  && (List.range 16).all (fun q => !(p.part q).en || (decide (1 ≤ (p.part q).ceil) && decide ((p.part q).ceil ≤ p.size)
    && decide ((p.part q).floor ≤ (p.part q).ceil)))
  && decide (((List.range 16).filter (fun q => (p.part q).en)).foldl (fun a q => a + (p.part q).floor) 0 ≤ p.size)

/-- The partition entries of a Kennel and of a Mire image. -/
def kpartOf (x : Nat) : Part := ⟨flagBit x 63, flagBit x 62, bits x 31 16, bits x 15 0⟩
def mpartOf (x : Nat) : Part := ⟨flagBit x 63, false, bits x 47 24, bits x 23 0⟩

/-- Kennel and Mire configurations from their images; none where a zero field is set or a limit broken. -/
def kimageOf (l : List Nat) : Option Pool :=
  let p : Pool := ⟨0, l.headD 0, l.tail.map kpartOf⟩
  if l.headD 0 < 2 ^ 15 && l.tail.all (fun x => bits x 61 32 == 0) && p.within 24576 then some p else none
def mimageOf (l : List Nat) : Option Pool :=
  let size := l.getD 1 0
  let p : Pool := ⟨l.headD 0, size, (l.drop 2).map mpartOf⟩
  if l.headD 0 < 2 ^ 48 && l.headD 0 % 4096 == 0 && size < 2 ^ 24 && (l.drop 2).all (fun x => bits x 62 48 == 0)
    && p.within (2 ^ 24 - 1) then some p else none

/-- The stash of every core has room for a context's new slice (R275, R318). -/
def State.sliceFits (s : State) (old new : Nat) : Bool :=
  decide (s.slices - old + new ≤ 24576)
  && (List.range 48).all (fun c => decide (s.stashHeld c + 256 * (s.slices - old + new) ≤ 8 * 2 ^ 20))

/-- KCFG (R318, R446). -/
def State.kcfgRun (s : State) (n a : Nat) : State × Nat :=
  if s.ctxCount ≤ n then (s, 0x02)
  else
    let (t, d) := s.hRead (a % 2 ^ 48) 136
    match kimageOf (numbers8 d 17) with
    | none => (t, 0x02)
    | some p =>
      let old := (s.ctx n).kcfg
      let off := fun q => (old.part q).en && !(p.part q).en
      let held := fun q => s.kennel.tiles.any (fun u => u.ctx == n && u.part == q) || s.kennel.shares.any (fun h => h.ctx == n && h.part == q)
      if !s.sliceFits old.size p.size || (p.size != old.size && s.kennel.tiles.any (fun u => u.ctx == n))
          || (List.range 16).any (fun q => off q && held q) then (t, 0x03)
      else ((t.modCtx n (fun c => { c with kcfg := p })).syncCcb n, 0)
def execKcfg (s : State) : Out := .next (s.command 1 (fun s => s.kcfgRun s.host.cmda s.host.cmdb))

/-- MCFG (R334, R446). -/
def State.mcfgRun (s : State) (n a : Nat) : State × Nat :=
  if s.ctxCount ≤ n then (s, 0x02)
  else
    let (t, d) := s.hRead (a % 2 ^ 48) 144
    match mimageOf (numbers8 d 18) with
    | none => (t, 0x02)
    | some p =>
      let old := (s.ctx n).mcfg
      let held := fun q => s.mire.any (fun b => b.ctx == n && b.part == q) || s.mireTaken n q != 0
      if ((p.base != old.base || p.size != old.size) && (List.range 16).any held)
          || (List.range 16).any (fun q => (old.part q).en && !(p.part q).en && held q) then (t, 0x03)
      else ((t.modCtx n (fun c => { c with mcfg := p })).syncCcb n, 0)
def execMcfg (s : State) : Out := .next (s.command 2 (fun s => s.mcfgRun s.host.cmda s.host.cmdb))

/-- A context entry's and a descriptor's own checks (R386, R443). -/
def entryOk (x : Nat) : Bool :=
  flagBit x 64 && bits x 511 304 == 0 && bits x 279 256 == 0 && bits x 207 192 == 0 && bits x 111 100 == 0 && bits x 79 66 == 0
  && bits x 63 48 == 0 && decide (bits x 283 280 ≤ 12) && (bits x 303 284 == 0 || (decide (2 ≤ bits x 303 284) && decide (bits x 303 284 ≤ 1000000)))
  && bits x 255 208 % 256 == 0 && bits x 159 112 % 4096 == 0 && bits x 47 0 % 32 == 0
def descOk (y n : Nat) : Bool :=
  flagBit y 0 && bits y 187 176 == 0 && bits y 139 128 == 0 && bits y 75 64 == 0 && bits y 11 2 == 0 && decide (bits y 191 188 ≤ 8)
  && bits y 63 48 == n

/-- A context with the part's copies of its entry and of its descriptor (R386, R443). -/
def Ctx.bind (c : Ctx) (n x y : Nat) : Ctx :=
  { c with
    bound := true, tag := n, pasid := bits x 99 80, evt := bits x 303 284, elog := bits x 255 208, elogsz := bits x 283 280
    save := bits x 159 112, savesz := bits x 191 160, pctx := flagBit x 65, tdesc := bits x 47 0
    prqb := bits y 175 140 * 4096, prqsz := bits y 191 188, vmid := bits y 127 112, s1root := bits y 47 12 * 4096
    s2root := bits y 111 76 * 4096, s2en := flagBit y 1 }

/-- The context as it is bound, or would be at its first QOPEN; none where QOPEN refuses it (R446). -/
def State.toBind (s : State) (n : Nat) : State × Option Ctx :=
  let c := s.ctx n
  if s.ctxCount ≤ n then (s, none)
  else if c.bound then (s, some c)
  else
    let (t, d) := s.hRead (s.ctxEntry n) 64
    let x := natOf d
    if !entryOk x then (t, none)
    else
      let (t, e) := t.hRead (bits x 47 0) 32
      let y := natOf e
      let p := bits x 99 80
      if !descOk y n || (p != 0 && s.ctxs.any (fun e => e.1 != n && e.2.bound && e.2.pasid == p)) then (t, none)
      else (t, some (c.bind n x y))

/-- A queue-interface entry's own checks, and the interface it opens (R444). -/
def ifaceOk (x : Nat) : Bool :=
  flagBit x 81 && bits x 511 240 == 0 && bits x 191 188 == 0 && bits x 127 82 == 0 && bits x 63 52 == 0 && decide (bits x 51 48 ≤ 8)
  && bits x 47 0 % 4096 == 0 && bits x 175 128 % 16 == 0 && bits x 239 192 % 16 == 0
def ifaceOf (x : Nat) : Iface :=
  { opened := true, ctx := bits x 79 64, erra := bits x 239 192, rtn := bits x 187 176, rtab := bits x 175 128, priv := flagBit x 80,
    ring := bits x 47 0, rsz := bits x 51 48, head := 0, tail := 0 }

/-- QOPEN (R443, R444, R446): the interface opens; its context is bound, and its PASID stands again (R451). -/
def State.qopenRun (s : State) (q : Nat) : State × Nat :=
  if 64 ≤ q || ((SMap.find s.host.ifaces q).map (fun i => i.opened)).getD false then (s, 0x02)
  else
    let (t, d) := s.hRead (s.host.qitb + 64 * q) 64
    let x := natOf d
    if !ifaceOk x then (t, 0x02)
    else
      let i := ifaceOf x
      match t.toBind i.ctx with
      | (t, none) => (t, 0x02)
      | (t, some c) =>
        let fresh := !(s.ctx i.ctx).bound
        let t := { t with
          ctxs := SMap.put t.ctxs i.ctx c
          host := { t.host with
            ifaces := SMap.put t.host.ifaces q i
            revoked := if fresh then t.host.revoked.filter (fun p => p != c.pasid) else t.host.revoked } }
        (t.syncCcb i.ctx, 0)
def execQopen (s : State) : Out := .next (s.command 3 (fun s => s.qopenRun s.host.cmda))

/-- QCLOSE (R446). -/
def State.qcloseRun (s : State) (q : Nat) : State × Nat :=
  match SMap.find s.host.ifaces q with
  | some i =>
    if i.opened then
      (({ s with host := { s.host with ifaces := SMap.put s.host.ifaces q { i with opened := false } } }).syncCcb i.ctx, 0)
    else (s, 0x02)
  | none => (s, 0x02)
def execQclose (s : State) : Out := .next (s.command 4 (fun s => s.qcloseRun s.host.cmda))

/-! ## Revocation and teardown -/

/-- A grid that the host ends: nothing more of it is placed (R446, R451, R453). -/
def Grid.discard (r : Grid) : Grid :=
  { r with discarded := true, waiting := false, tasks := [], aborted := [], committed := [], ready := [] }

/-- A grid of a revoked context that has not retired (R434, R451): its record in the log and its packet's at the error record. A
retired one has completed, and only a page request of its ends as failed. -/
def State.revokeGrid (s : State) (id : Nat) (r : Grid) : State :=
  let s := (s.modGrid id Grid.discard).logGrid 0x02 r.ctx id 2 0
  match r.packet with
  | some p => s.toError p 2 0x14
  | none => s

/-- The launches of a context that have not become grids end with code 0x14. -/
def State.revokeLaunches (s : State) (n : Nat) : State :=
  let gone := s.host.launches.filter (fun i => i.ctx == n)
  let s : State := { s with host := { s.host with launches := s.host.launches.filter (fun i => i.ctx != n) } }
  gone.foldl (fun (s : State) i => match i.packet with
    | some p => s.toError p 2 0x14
    | none => s) s

/-- The pending page requests of a context end as failed (R392, R451). -/
def State.failPages (s : State) (n : Nat) : State :=
  (s.trans.reqs.filter (fun e => e.2.ctx == n)).foldl (fun (s : State) e => s.resolvePage e.1 e.2 true) s

/-- The holders of a revoked PASID in its context (R451). -/
def State.revokeCtx (s : State) (n : Nat) : State :=
  let s := s.revokeLaunches n
  let s := (s.grids.filter (fun e => e.2.ctx == n && !e.2.discarded && !e.2.retired)).foldl (fun (s : State) e => s.revokeGrid e.1 e.2) s
  let s : State := { s with groups := s.groups.map (fun e =>
    (e.1, if e.2.ctx = n ∧ e.2.live ≠ 0 then { e.2 with trap := { e.2.trap with pendRevoke := true } } else e.2)) }
  let s := (s.teams.filter (fun e => e.2.ctx == n && e.2.life == .saved)).foldl (fun (s : State) e => s.wantTeams e.1) s
  (s.failPages n).syncCcb n

/-- REVOKE (R451). -/
def State.revokeRun (s : State) (p : Nat) : State × Nat :=
  if p = 0 then (s, 0x02)
  else
    let s : State := { s with host := { s.host with revoked := if s.host.revoked.contains p then s.host.revoked else s.host.revoked ++ [p] } }
    let s := match s.ctxOf p with
      | some n => s.revokeCtx n
      | none => s
    (s.tlbi 3 0 p, 0)
def execRevoke (s : State) : Out := .next (s.command 5 (fun s => s.revokeRun (s.host.cmda % 2 ^ 20)))

/-- INVAL (R222, R446). -/
def execInval (s : State) : Out :=
  .next (s.command 6 (fun s =>
    if 4 < s.host.cmda then (s, 0x02) else (s.tlbi s.host.cmda (s.host.cmdb % 2 ^ 48) s.host.cmdc, 0)))

/-- UIPOST (R378, R446): to the live groups of a running grid that it names. -/
def State.uipostRun (s : State) (n id spec pay : Nat) : State × Nat :=
  match s.grids.find? (fun e => gridNumber e.1 == id && e.2.ctx == n) with
  | some (id, r) =>
    let kind := bits spec 37 36
    let hit := fun (g : Group) => g.grid == id && g.live != 0
      && (kind == 2 || (((SMap.find s.teams g.team).map (fun t => t.index)) == some (bits spec 31 0)
        && (kind == 1 || g.grp == bits spec 35 32)))
    if !s.gridRuns id r || kind = 3 then (s, 0x02)
    else
      let post := fun (g : Group) => { g with trap := { g.trap with uipend := true, uiload := BitVec.ofNat 32 pay } }
      ({ s with groups := s.groups.map (fun e => (e.1, if hit e.2 then post e.2 else e.2)) }, 0)
  | none => (s, 0x02)
def execUipost (s : State) : Out :=
  .next (s.command 7 (fun s => s.uipostRun s.host.cmda s.host.cmdb s.host.cmdc s.host.cmdd))

/-- PREEMPT (R266, R446): every resident team of class I or B of the context is requested. -/
def execPreempt (s : State) : Out :=
  .next (s.command 8 (fun s =>
    if !(s.ctx s.host.cmda).bound then (s, 0x02)
    else
      let l := s.teams.filter (fun e => e.2.ctx == s.host.cmda && e.2.life == .resident && s.teamClass e.2 != 0)
      (l.foldl (fun (s : State) e => s.request e.1) s, 0)))

/-- A leak record (R330) of a core and partition for the tiles that leak there, if any do. -/
def leakImage (core part : Nat) (l : List Tile) : Nat :=
  let sum := fun (f : Tile → Nat) => l.foldl (fun a t => a + f t) 0
  part * 2 ^ 6 + core * 2 ^ 10 + min (sum (fun t => t.outst)) 0xFFFF * 2 ^ 16
    + (l.filter (fun t => t.sealed)).length * 2 ^ 32 + (l.filter (fun t => !t.sealed)).length * 2 ^ 48 + sum (fun t => t.units) * 2 ^ 64

/-- Every tile and share of a context is freed, with its leak records (R330). -/
def State.leak (s : State) (n : Nat) : State :=
  let own := s.kennel.tiles.filter (fun t => t.ctx == n)
  let leaks := fun c p => own.filter (fun t => t.core == c && t.part == p && (!t.sealed || t.remain != 0))
  let s := (List.range 48).foldl (fun (s : State) c => (List.range 16).foldl (fun (s : State) p =>
    if (leaks c p).isEmpty then s else s.logError n (leakImage c p (leaks c p))) s) s
  let k := own.foldl (fun (k : Kennel) t => k.free t) s.kennel
  { s with kennel := { k with shares := k.shares.filter (fun h => h.ctx != n) } }

/-- Copies of some groups are cancelled, uncounted; their words on the mesh land, and their render-target words reach their slices
(R327, R453). -/
def State.dropMoves (s : State) (hit : Group → Bool) : State :=
  let mine := fun id => ((SMap.find s.groups id).map hit).getD false
  let s := s.settleTargets (fun t => mine t.group)
  let ops := s.mesh.filter (fun o => mine o.group)
  ops.foldl State.landMesh
    { s with copies := s.copies.filter (fun e => !mine e.2.group), mesh := s.mesh.filter (fun o => !mine o.group) }

/-- The grids of some kind stop at once: their copies are cancelled, their threads cease to be live as under EXIT, their tiles
leave the pairs with what they had queued, and their storage returns. -/
def State.stopGrids (s : State) (ids : List Nat) : State :=
  let s := s.dropMoves (fun g => ids.contains g.grid)
  let s := (s.groups.filter (fun e => ids.contains e.2.grid && e.2.live != 0)).foldl (fun (s : State) e => s.cease e.1 e.2.live) s
  let s := (s.groups.filter (fun e => ids.contains e.2.grid)).foldl (fun (s : State) e => s.unlinkNow e.1) s
  (s.teams.filter (fun e => ids.contains e.2.grid)).foldl (fun (s : State) e => s.freeTeam e.1) s

/-- Stopped grids end: their shares and records return. -/
def State.closeGrids (s : State) (ids : List Nat) : State :=
  let s := ids.foldl (fun (s : State) id => s.returnShares id) s
  { s with grids := s.grids.filter (fun e => !ids.contains e.1) }
def State.endGrids (s : State) (ids : List Nat) : State := (s.stopGrids ids).closeGrids ids

/-- The copies of a range of physical addresses are written back, for the waiters of their lines too (R160), and dropped
everywhere (R457, R471). -/
def MemSys.purge (m : MemSys) (lo hi : Nat) : MemSys :=
  let inW := fun w => decide (lo < 4 * w + 4) && decide (4 * w < hi)
  let inX := fun x => decide (lo < 128 * x + 128) && decide (128 * x < hi)
  let inL := fun l => decide (lo < 256 * l + 256) && decide (256 * l < hi)
  let m := (m.regq.filter (fun e => inW e.2)).foldl (fun (m : MemSys) e => m.ack e.1 e.2) m
  let m := (m.dirty.filter (fun e => inX (e.1 % 2 ^ 41))).foldl (fun (m : MemSys) e =>
    (m.backSector (e.1 / 2 ^ 41) (e.1 % 2 ^ 41)).note (e.1 % 2 ^ 41 / 2)) m
  let m := m.pushSectors (m.dirtyL2.filter inX)
  { m with
    l2 := m.l2.filter (fun e => !inX e.1)
    l1 := m.l1.filter (fun e => !inW (e.1 % 2 ^ 46))
    registry := m.registry.filter (fun e => !inW e.1)
    slc := m.slc.filter (fun e => !inL e.1)
    reads := m.reads.filter (fun e => !inX (e.1 % 2 ^ 41))
    misses := m.misses.filter (fun e => !inX e.2) }

/-- A core's cached copy at a generic address of a context may come from some physical pages. -/
def State.cameFrom (s : State) (lo hi ctx core va : Nat) : Bool :=
  match s.translate ⟨.sampler core, ctx, true, .read⟩ va with
  | .ok pa _ => decide (lo < pa / 4096 * 4096 + 4096) && decide (pa / 4096 * 4096 < hi)
  | _ => true

/-- Every cached copy of a range goes: those of the memory hierarchy, the window lines, which are filled again at their next
touch, decode tables and decoded texels (R457, R471). -/
def State.purge (s : State) (lo hi : Nat) : State :=
  let inLine := fun (l : WinLine) => l.present && decide (lo < l.pa + 256) && decide (l.pa < hi)
  { s with
    mem := s.mem.purge lo hi
    teams := s.teams.map (fun e => (e.1, { e.2 with lines := e.2.lines.filter (fun l => !inLine l.2) }))
    decodes := s.decodes.filter (fun d => !s.cameFrom lo hi d.ctx d.core d.addr && !s.cameFrom lo hi d.ctx d.core (d.addr + d.bytes.length))
    texels := s.texels.filter (fun x => !s.cameFrom lo hi x.ctx x.core x.va) }

/-- A carve-out is zeroed and disabled (R458). -/
def MemSys.zero (m : MemSys) (lo hi : Nat) : MemSys :=
  { m with
    cells := m.cells.filter (fun c => decide (c.1 < lo) || decide (hi ≤ c.1))
    poison := m.poison.filter (fun w => decide (8 * w < lo) || decide (hi ≤ 8 * w)) }
def State.uncarve (s : State) (k : Nat) (v : CarveOut) : State :=
  let s := s.purge v.base (v.base + v.size)
  { s with mem := s.mem.zero v.base (v.base + v.size), svc := { s.svc with carves := SMap.erase s.svc.carves k } }

/-- A context is torn down (R330, R446, R458): its tiles leak, its grids end with records of a reason, what waits for
it is dropped, its translations, carve-outs, key and interfaces go, and it is unbound. A COPYIN or COPYOUT of it ends with code
0x02 (log 126). -/
def State.teardown (s : State) (n reason : Nat) : State :=
  let s := (s.settleTargets (fun _ => true)).leak n
  let own := s.grids.filter (fun e => e.2.ctx == n)
  let s := (own.filter (fun e => !e.2.discarded)).foldl (fun (s : State) e => s.logGrid 0x02 n e.1 reason 0) s
  let s := s.endGrids (own.map Prod.fst)
  let s : State := { s with
    mire := s.mire.filter (fun b => b.ctx != n)
    trans := { s.trans with reqs := s.trans.reqs.filter (fun e => e.2.ctx != n) }
    hwaits := s.hwaits.filter (fun w => w.ctx != n)
    stream := { s.stream with fills := s.stream.fills.filter (fun e => e.2.ctx != n) }
    decodes := s.decodes.filter (fun d => d.ctx != n)
    host := { s.host with
      launches := s.host.launches.filter (fun i => i.ctx != n)
      ifaces := s.host.ifaces.map (fun e => (e.1, if e.2.ctx = n then { e.2 with opened := false } else e.2)) } }
  let s := s.tlbi 1 0 n
  let s := (s.svc.carves.filter (fun e => e.2.en && e.2.owner == n)).foldl (fun (s : State) e => s.uncarve e.1 e.2) s
  let s := if s.svc.job.any (fun j => j.ctx == n) then { s with svc := { s.svc with job := none, result := 0x02 } } else s
  { s with ctxs := SMap.erase s.ctxs n }

/-- TEARDOWN (R446). -/
def execTeardown (s : State) : Out :=
  .next (s.command 9 (fun s =>
    if (SMap.find s.ctxs s.host.cmda).isNone then (s, 0x02) else (s.teardown s.host.cmda 3, 0)))

/-- IOGRANT (R397, R446). -/
def execIogrant (s : State) : Out :=
  .next (s.command 10 (fun s =>
    let st := s.stream
    ({ s with stream := { st with sq := s.host.cmda, cq := s.host.cmdb, qinfo := s.host.cmdc % 2 ^ 32, qdoor := s.host.cmdd, granted := true } },
      0)))

/-- UNKNOWN_COMMAND (R446). -/
def execUnknownCommand (o : Nat) (s : State) : Out :=
  .next (if 1 ≤ o % 256 ∧ o % 256 ≤ 10 then s else s.command (o % 256) (fun s => (s, 0x01)))

/-- CMDST_READ (R445). -/
def execCmdstRead (s : State) : Out :=
  .next (if s.barOpen then ({ s with host := { s.host with cmdLost := false } }).answer (bytesOf 8 s.cmdst) else s.answer (bytesOf 8 0))

/-- The context whose control block a command has changed. -/
def State.commandCtx (s : State) : Option Nat :=
  match s.host.cmdOp with
  | 1 => some s.host.cmdArg
  | 2 => some s.host.cmdArg
  | 3 => (SMap.find s.host.ifaces s.host.cmdArg).map (fun i => i.ctx)
  | 4 => (SMap.find s.host.ifaces s.host.cmdArg).map (fun i => i.ctx)
  | 5 => s.ctxOf (s.host.cmdArg % 2 ^ 20)
  | _ => none

/-- Everything that the running command has still to bring about has come about: the control block has been written (R465), and
a REVOKE waits until every live group of the context has taken cause 0x14 (R451). -/
def State.commandDone (s : State) : Bool :=
  s.commandCtx.all (fun n => !s.ccbPending n)
  && (s.host.cmdOp != 5 || match s.ctxOf (s.host.cmdArg % 2 ^ 20) with
    | some n => s.groups.all (fun e => e.2.ctx != n || e.2.live == 0 || !e.2.trap.pendRevoke)
    | none => true)

/-- COMMAND_COMPLETION (R445). -/
def execCommandCompletion (s : State) : Out :=
  .next (if s.host.cmdState = 1 && s.commandDone then { s with host := { s.host with cmdState := 2 } } else s)

/-! ## Host waits -/

/-- HOST_WAIT_POST (R448 to R450): the wait record at v is read, and its wait woken, installed or refused. -/
def State.postWait (s : State) (v : Nat) : State :=
  let (s, d) := s.hRead v 32
  let x := natOf d
  let va := bits x 47 0
  let wakea := bits x 175 128
  let token := bits x 255 192
  let pasid := bits x 83 64
  let refused := s.hWrite wakea (bytesOf 8 (token ^^^ 2 ^ 63))
  let bad := bits x 63 48 != 0 || bits x 95 86 != 0 || bits x 191 176 != 0 || flagBit token 63 || va % 4 != 0 || wakea % 8 != 0
  match s.ctxOf pasid with
  | none => refused
  | some n =>
    if bad || s.host.revoked.contains pasid then refused
    else match s.translate ⟨.frontEnd, n, false, .read⟩ va with
    | .ok pa leaf =>
      let (s, d) := (s.cacheXlat ⟨.frontEnd, n, false, .read⟩ va).hRead pa 4
      if waitCond (bits x 85 84) (natOf d) (bits x 127 96) then s.hWrite wakea (bytesOf 8 token)
      else if s.wakeUsed (slcSlice pa) < 2048 then
        { s with host := { s.host with
          waits := s.host.waits ++ [⟨pa, va, leaf.bits, n, bits x 127 96, bits x 85 84, wakea, token⟩] } }
      else s.hWrite wakea (bytesOf 8 (token ^^^ 2 ^ 63))
    | _ => refused
def execHostWaitPost (v : Nat) (s : State) : Out :=
  .next (if s.barOpen && v % 32 == 0 && decide (v < 2 ^ 48) then s.postWait v else s)

/-! ## Warm restart -/

/-- A grid that a warm restart leaves running (R453): a persistent one, and the work of one in its own context. -/
def State.survives (s : State) (r : Grid) : Bool := s.persists r || r.kin
def State.launchSurvives (s : State) (i : Launch) : Bool :=
  (s.ctx i.ctx).pctx && (i.kin || (i.packet.isNone && (SMap.getD (s.ctx i.ctx).triggers i.lpb []).any (fun e => e.kin)))

/-- The teams of some grids are to stop at a forced safe point (R266). -/
def State.requestGrids (s : State) (ids : List Nat) : State :=
  (s.teams.filter (fun e => ids.contains e.2.grid && e.2.life == .resident)).foldl (fun (s : State) e => s.request e.1) s

/-- WARM_RESTART and HOT_RESET (R453): the restart begins; interfaces close, the teams of the other grids are to stop, and no
more of these starts. A grid that has retired has nothing left to stop. -/
def State.beginRestart (s : State) : State :=
  let ids := (s.grids.filter (fun e => !s.survives e.2 && !e.2.retired)).map Prod.fst
  let s : State := { s with
    grids := s.grids.map (fun e => (e.1, if ids.contains e.1 then e.2.discard else e.2))
    host := { s.host with
      restart := true
      launches := s.host.launches.filter s.launchSurvives
      ifaces := s.host.ifaces.map (fun e => (e.1, { e.2 with opened := false })) } }
  (s.ctxs.map Prod.fst).foldl (fun (s : State) n => s.syncCcb n) (s.requestGrids ids)
def execWarmRestart (s : State) : Out :=
  .next (if s.host.ready && s.pwr.state != .off then s.beginRestart else s)
def execHotReset (s : State) : Out := .next (if s.host.ready then s.beginRestart else s)

/-- A grid whose PASID has been revoked: its record was written then, and its shares stand until the teardown (R451). -/
def State.wasRevoked (s : State) (r : Grid) : Bool := (s.ctx r.ctx).pasid != 0 && s.host.revoked.contains (s.ctx r.ctx).pasid

/-- The grids that the restart ends, with their records (R453, step 2). -/
def State.restartGrids (s : State) : State :=
  let gone := s.grids.filter (fun e => e.2.discarded)
  let ended := gone.filter (fun e => !s.wasRevoked e.2)
  let s := (s.stopGrids (gone.map Prod.fst)).closeGrids (ended.map Prod.fst)
  ended.foldl (fun (s : State) e => s.logGrid 0x02 e.2.ctx e.1 1 0) s

/-- Steps 2 to 5 of R453. -/
def State.restartAll (s : State) : State :=
  let s := s.restartGrids
  let s : State := { s with host := { s.host with waits := [] } }
  (s.ctxs.filter (fun e => !e.2.pctx)).foldl (fun (s : State) e =>
    let s := if e.2.pasid = 0 || s.host.revoked.contains e.2.pasid then s
      else { s with host := { s.host with revoked := s.host.revoked ++ [e.2.pasid] } }
    s.teardown e.1 1) s

/-- A group that is to end with its grid has stopped (R266, R453): at a safe point, or with no thread left. -/
def Group.still (g : Group) : Bool := g.life != .resident || g.live == 0 || g.trap.stopped

/-- WARM_RESTART_END (R453): once every group that is to end has stopped, the other steps have run and RESTART clears. -/
def execWarmRestartEnd (s : State) : Out :=
  let ends := fun (g : Group) => ((SMap.find s.grids g.grid).map (fun r => r.discarded)).getD true
  if s.host.restart && s.groups.all (fun e => !ends e.2 || e.2.still) then
    let t := s.restartAll
    .next { t with host := { t.host with restart := false } }
  else .next s

end Sys2Proof.Machine
end

