-- ==== Sys2Proof/Machine/Integer.lean ====
section
/-! DEFINITION. Integer vector words, compares, selects and predicate words (R106 to R114). -/

namespace Sys2Proof.Machine

/-- IADD, ISUB: wrapping, or with signed saturation (R106, R107). -/
def execIadd (d : Nat) (a b : Src) (m : Bool) (s : State) : Out :=
  stat2 s .int d a b (fun x y => if m then satWord (x.toInt + y.toInt) else (x + y, 0))
def execIsub (d : Nat) (a b : Src) (m : Bool) (s : State) : Out :=
  stat2 s .int d a b (fun x y => if m then satWord (x.toInt - y.toInt) else (x - y, 0))

/-- IMUL: bits [31:0] of the product; IMULH: bits [63:32] of the signed or unsigned product; IMAD (R106). -/
def execImul (d : Nat) (a b : Src) (s : State) : Out := vec2 s .int d a b (fun x y => x * y)
def mulHigh (unsigned : Bool) (x y : Word) : Word :=
  if unsigned then BitVec.ofNat 32 (x.toNat * y.toNat / 2 ^ 32) else BitVec.ofInt 32 (x.toInt * y.toInt / 2 ^ 32)
def execImulh (d : Nat) (a b : Src) (m : Bool) (s : State) : Out := vec2 s .int d a b (mulHigh m)
def execImad (d : Nat) (a b : Src) (s : State) : Out := vec3 s .int d a b (fun x y z => x * y + z)

/-- IADD64: a 64-bit sum into an even pair; LEA: a 64-bit base plus a zero-extended offset (R110). -/
def execIadd64 (d : Nat) (a b : Src) (s : State) : Out :=
  issueRegs s (fun c g s => match s.src64 c g a, s.src64 c g b with
    | .ok x, .ok y => .ok (g.regs.writePairs d (fun t => x t + y t) (c.lanes g))
    | .error e, _ => .error e
    | _, .error e => .error e)
def execLea (d : Nat) (a b : Src) (s : State) : Out :=
  issueRegs s (fun c g s => match s.src64 c g a, s.src c g .int b with
    | .ok x, .ok y => .ok (g.regs.writePairs d (fun t => x t + (y t).setWidth 64) (c.lanes g))
    | .error e, _ => .error e
    | _, .error e => .error e)

/-- IMIN, IMAX, IABS (R106). -/
def execImin (d : Nat) (a b : Src) (m : Bool) (s : State) : Out :=
  vec2 s .int d a b (fun x y => if intCond 2 m y x then y else x)
def execImax (d : Nat) (a b : Src) (m : Bool) (s : State) : Out :=
  vec2 s .int d a b (fun x y => if intCond 2 m x y then y else x)
def execIabs (d : Nat) (a : Src) (s : State) : Out := vec1 s .int d a (fun x => if x.msb then -x else x)

/-- Shifts by an unsigned 32-bit count, and the rotate (R108). -/
def shlWord (x n : Word) : Word := if n.toNat < 32 then x <<< n.toNat else 0
def shrWord (x n : Word) : Word := if n.toNat < 32 then x >>> n.toNat else 0
def sarWord (x n : Word) : Word := x.sshiftRight (min n.toNat 31)
def execShl (d : Nat) (a b : Src) (s : State) : Out := vec2 s .int d a b shlWord
def execShr (d : Nat) (a b : Src) (s : State) : Out := vec2 s .int d a b shrWord
def execSar (d : Nat) (a b : Src) (s : State) : Out := vec2 s .int d a b sarWord
def execRot (d : Nat) (a b : Src) (m : Bool) (s : State) : Out :=
  vec2 s .int d a b (fun x n => if m then x.rotateRight (n.toNat % 32) else x.rotateLeft (n.toNat % 32))

/-- Bitwise words (R106). -/
def execIand (d : Nat) (a b : Src) (s : State) : Out := vec2 s .int d a b (fun x y => x &&& y)
def execIor (d : Nat) (a b : Src) (s : State) : Out := vec2 s .int d a b (fun x y => x ||| y)
def execIxor (d : Nat) (a b : Src) (s : State) : Out := vec2 s .int d a b (fun x y => x ^^^ y)
def execInot (d : Nat) (a : Src) (s : State) : Out := vec1 s .int d a (fun x => ~~~x)

/-- The bit field of R109: offset and width of the control word. -/
def fieldOff (c : Word) : Nat := bits c.toNat 4 0
def fieldLen (c : Word) : Nat := min (bits c.toNat 13 8) (32 - fieldOff c)
def bfeWord (signed : Bool) (x c : Word) : Word :=
  let w := fieldLen c
  if w = 0 then 0
  else
    let f := x.toNat / 2 ^ fieldOff c % 2 ^ w
    if signed then BitVec.ofInt 32 (signedOf w f) else BitVec.ofNat 32 f
def bfiWord (x c d : Word) : Word :=
  let o := fieldOff c
  let mask : Word := BitVec.ofNat 32 ((2 ^ fieldLen c - 1) * 2 ^ o)
  (d &&& ~~~mask) ||| ((x <<< o) &&& mask)
def execBfe (d : Nat) (a b : Src) (m : Bool) (s : State) : Out := vec2 s .int d a b (bfeWord m)
def execBfi (d : Nat) (a b : Src) (s : State) : Out := vec3 s .int d a b bfiWord

/-- POPC, CLZ, BREV (R106). -/
def popWord (x : Word) : Word := BitVec.ofNat 32 (((List.range 32).filter (fun i => x.getLsbD i)).length)
def clzWord (x : Word) : Word := BitVec.ofNat 32 (if x = 0 then 32 else 31 - Nat.log2 x.toNat)
def revWord (x : Word) : Word :=
  BitVec.ofNat 32 ((List.range 32).foldl (fun a i => if x.getLsbD i then a + 2 ^ (31 - i) else a) 0)
def execPopc (d : Nat) (a : Src) (s : State) : Out := vec1 s .int d a popWord
def execClz (d : Nat) (a : Src) (s : State) : Out := vec1 s .int d a clzWord
def execBrev (d : Nat) (a : Src) (s : State) : Out := vec1 s .int d a revWord

/-- ICMP (R112). -/
def execIcmp (p cc : Nat) (a b : Src) (m : Bool) (s : State) : Out := cmp2 s .int p a b (intCond cc m)

/-- ISEL: SA where pP, inverted by NEG, is true, else vSB; a literal is an integer (R113). -/
def selWord (s : State) (k : LitKind) (d p : Nat) (a : Src) (b : Nat) (neg : Bool) : Out :=
  issueRegs s (fun c g s => s.src1 c g k a (fun x =>
    g.regs.writeLanes d (fun t => if (g.regs.getP p).has t != neg then x t else g.regs.getV t b) (c.lanes g)))
def execIsel (d p : Nat) (a : Src) (b : Nat) (n : Bool) (s : State) : Out := selWord s .int d p a b n

/-- IDOT4: four products of bytes, signed or unsigned, added to d (R111). -/
def dot4 (unsigned : Bool) (x y z : Word) : Word :=
  let byte := fun (w : Word) i => if unsigned then ((byteOf w i).toNat : Int) else (byteOf w i).toInt
  BitVec.ofInt 32 (z.toInt + ((List.range 4).foldl (fun a i => a + byte x i * byte y i) 0))
def execIdot4 (d : Nat) (a b : Src) (m : Bool) (s : State) : Out := vec3 s .int d a b (dot4 m)

/-- PAND, POR, PNOT; bit 0 of i inverts the first source, bit 1 the second (R114). -/
def predIn (r : Regs) (p : Nat) (inv : Bool) : Lanes := if inv then ~~~(r.getP p) else r.getP p
def execPand (d a b i : Nat) (s : State) : Out :=
  issueRegs s (fun c g _ => .ok (g.regs.setP d c.map (predIn g.regs a (flagBit i 0) &&& predIn g.regs b (flagBit i 1))))
def execPor (d a b i : Nat) (s : State) : Out :=
  issueRegs s (fun c g _ => .ok (g.regs.setP d c.map (predIn g.regs a (flagBit i 0) ||| predIn g.regs b (flagBit i 1))))
def execPnot (d a : Nat) (s : State) : Out :=
  issueRegs s (fun c g _ => .ok (g.regs.setP d c.map (~~~(g.regs.getP a))))

end Sys2Proof.Machine
end

