-- ==== Sys2Proof/Machine/Cipher.lean ====
section
/-! DEFINITION. The ciphers that the security engine's requests name (R459 to R462): the SM3 digest, the block ciphers SM4 and
AES-256 in GCM, and SM2 decryption and signature. The spec names these standards and does not restate them (log 10). -/

namespace Sys2Proof.Machine

/-! ## Numbers in big-endian order -/

def beNat (d : List Byte) : Nat := d.foldl (fun a b => a * 256 + b.toNat) 0
def beBytes (n x : Nat) : List Byte := (List.range n).map (fun i => BitVec.ofNat 8 (x / 256 ^ (n - 1 - i)))

/-- The n-th run of k elements of a list. -/
def chunk {α : Type} (k : Nat) (l : List α) (n : Nat) : List α := (l.drop (n * k)).take k

/-! ## SM3 (GB/T 32905) -/

abbrev Digest := List Word

def sm3P0 (x : Word) : Word := x ^^^ x.rotateLeft 9 ^^^ x.rotateLeft 17
def sm3P1 (x : Word) : Word := x ^^^ x.rotateLeft 15 ^^^ x.rotateLeft 23

/-- The 68 words of a block's expansion, newest first. -/
def sm3Expand : Nat → List Word → List Word
  | 0, w => w
  | n + 1, w =>
    let at_ := fun k => w.getD (k - 1) 0
    sm3Expand n ((sm3P1 (at_ 16 ^^^ at_ 9 ^^^ (at_ 3).rotateLeft 15) ^^^ (at_ 13).rotateLeft 7 ^^^ at_ 6) :: w)

/-- One round of the compression. -/
def sm3Round (w : List Word) (v : Digest) (j : Nat) : Digest :=
  let t : Word := if j < 16 then 0x79CC4519 else 0x7A879D8A
  match v with
  | [a, b, c, d, e, f, g, h] =>
    let r := a.rotateLeft 12
    let ss1 := (r + e + t.rotateLeft (j % 32)).rotateLeft 7
    let ff := if j < 16 then a ^^^ b ^^^ c else (a &&& b) ||| (a &&& c) ||| (b &&& c)
    let gg := if j < 16 then e ^^^ f ^^^ g else (e &&& f) ||| (~~~e &&& g)
    let tt1 := ff + d + (ss1 ^^^ r) + (w.getD j 0 ^^^ w.getD (j + 4) 0)
    let tt2 := gg + h + ss1 + w.getD j 0
    [tt1, a, b.rotateLeft 9, c, sm3P0 tt2, e, f.rotateLeft 19, g]
  | _ => v

/-- One block of 64 bytes. -/
def sm3Block (v : Digest) (b : List Byte) : Digest :=
  let first := (List.range 16).map (fun i => BitVec.ofNat 32 (beNat (chunk 4 b i)))
  let w := (sm3Expand 52 first.reverse).reverse
  List.zipWith (· ^^^ ·) v ((List.range 64).foldl (sm3Round w) v)

/-- The SM3 digest of a message. -/
def sm3 (m : List Byte) : List Byte :=
  let pad := m ++ [0x80] ++ List.replicate ((119 - m.length % 64) % 64) 0 ++ beBytes 8 (8 * m.length)
  let iv : Digest := [0x7380166F, 0x4914B2B9, 0x172442D7, 0xDA8A0600, 0xA96F30BC, 0x163138AA, 0xE38DEE4D, 0xB0FB0E4E]
  ((List.range (pad.length / 64)).foldl (fun v i => sm3Block v (chunk 64 pad i)) iv).flatMap (fun w => beBytes 4 w.toNat)

/-! ## Bytes as elements of GF(2^8) -/

/-- The product modulo a polynomial of degree 8. -/
def gf8Mul (poly x y : Nat) : Nat :=
  ((List.range 8).foldl (fun (a : Nat × Nat) i =>
    (if y.testBit i then a.1 ^^^ a.2 else a.1, if 128 ≤ a.2 then (2 * a.2) ^^^ poly else 2 * a.2)) (0, x)).1

/-- The inverse, x^254; 0 of 0. -/
def gf8Inv (poly x : Nat) : Nat :=
  let x2 := gf8Mul poly x x
  let x3 := gf8Mul poly x2 x
  let sq := fun (n v : Nat) => (List.range n).foldl (fun a _ => gf8Mul poly a a) v
  let x15 := gf8Mul poly (sq 2 x3) x3
  let x240 := sq 4 x15
  gf8Mul poly (gf8Mul poly x240 (sq 2 x3)) x2

/-- An affine map of bits: bit i of the result is the parity of x under a mask. -/
def affine (mask : Nat → Nat) (add x : Nat) : Nat :=
  (List.range 8).foldl (fun a i =>
    let p := (List.range 8).foldl (fun p j => p ^^ (x.testBit j && (mask i).testBit j)) false
    if p then a ^^^ 2 ^ i else a) add

/-- A byte rotated to the left. -/
def rot8 (x n : Nat) : Nat := (x * 2 ^ n + x / 2 ^ (8 - n)) % 256

/-! ## SM4 (GB/T 32907) -/

/-- The S-box: an affine map on both sides of the inverse modulo x^8 + x^7 + x^6 + x^5 + x^4 + x^2 + 1. -/
def sm4Affine (x : Nat) : Nat := affine (fun i => rot8 0xA7 i) 0xD3 x
def sm4Box (x : Nat) : Nat := sm4Affine (gf8Inv 0x1F5 (sm4Affine x))
def sm4Tau (w : Word) : Word :=
  BitVec.ofNat 32 ((List.range 4).foldl (fun a i => a + sm4Box (w.toNat / 256 ^ i % 256) * 256 ^ i) 0)
def sm4Linear (w : Word) : Word := w ^^^ w.rotateLeft 2 ^^^ w.rotateLeft 10 ^^^ w.rotateLeft 18 ^^^ w.rotateLeft 24
def sm4KeyLinear (w : Word) : Word := w ^^^ w.rotateLeft 13 ^^^ w.rotateLeft 23

/-- One step of the cipher and of its key schedule on four words. -/
def sm4Step (lin : Word → Word) (v : List Word) (k : Word) : List Word :=
  match v with
  | [a, b, c, d] => [b, c, d, a ^^^ lin (sm4Tau (b ^^^ c ^^^ d ^^^ k))]
  | _ => v

/-- The 32 round keys. -/
def sm4Keys (key : List Byte) : List Word :=
  let fk : List Word := [0xA3B1BAC6, 0x56AA3350, 0x677D9197, 0xB27022DC]
  let k := List.zipWith (· ^^^ ·) ((List.range 4).map (fun i => BitVec.ofNat 32 (beNat (chunk 4 key i)))) fk
  let ck := fun i => BitVec.ofNat 32 (beNat ((List.range 4).map (fun j => BitVec.ofNat 8 ((4 * i + j) * 7))))
  ((List.range 32).foldl (fun (a : List Word × List Word) i =>
    let v := sm4Step sm4KeyLinear a.1 (ck i)
    (v, v.getD 3 0 :: a.2)) (k, [])).2.reverse

/-- A block of 16 bytes under round keys. -/
def sm4Block (keys : List Word) (b : List Byte) : List Byte :=
  let v := (List.range 4).map (fun i => BitVec.ofNat 32 (beNat (chunk 4 b i)))
  ((keys.foldl (sm4Step sm4Linear) v).reverse).flatMap (fun w => beBytes 4 w.toNat)

/-! ## AES-256 (FIPS 197) -/

def aesBox (x : Nat) : Nat := affine (fun i => rot8 0xF1 i) 0x63 (gf8Inv 0x11B x)
def aesSub (d : List Byte) : List Byte := d.map (fun b => BitVec.ofNat 8 (aesBox b.toNat))
def xorBytes (a b : List Byte) : List Byte := List.zipWith (· ^^^ ·) a b

/-- The key schedule from word i on, words of 4 bytes newest first. -/
def aesExpand : Nat → Nat → List (List Byte) → List (List Byte)
  | 0, _, w => w
  | n + 1, i, w =>
    let last := w.headD []
    let rcon := (List.range (i / 8 - 1)).foldl (fun r _ => gf8Mul 0x11B r 2) 1
    let t := if i % 8 = 0 then xorBytes (aesSub (last.drop 1 ++ last.take 1)) [BitVec.ofNat 8 rcon, 0, 0, 0]
      else if i % 8 = 4 then aesSub last else last
    aesExpand n (i + 1) (xorBytes (w.getD 7 []) t :: w)

/-- The 15 round keys of 16 bytes. -/
def aesKeys (key : List Byte) : List (List Byte) :=
  let w := (aesExpand 52 8 ((List.range 8).map (fun i => chunk 4 key i)).reverse).reverse.flatten
  (List.range 15).map (chunk 16 w)

def aesShift (d : List Byte) : List Byte := (List.range 16).map (fun i => d.getD ((i + 4 * (i % 4)) % 16) 0)
def aesMix (d : List Byte) : List Byte := (List.range 16).map (fun i =>
  let at_ := fun k => (d.getD (i / 4 * 4 + (i + k) % 4) 0).toNat
  BitVec.ofNat 8 (gf8Mul 0x11B (at_ 0) 2 ^^^ gf8Mul 0x11B (at_ 1) 3 ^^^ at_ 2 ^^^ at_ 3))

/-- A block of 16 bytes under round keys. -/
def aesBlock (keys : List (List Byte)) (b : List Byte) : List Byte :=
  let v := (List.range 13).foldl (fun v i => xorBytes (aesMix (aesShift (aesSub v))) (keys.getD (i + 1) [])) (xorBytes b (keys.headD []))
  xorBytes (aesShift (aesSub v)) (keys.getD 14 [])

/-! ## GCM (SP 800-38D) -/

/-- The product of GF(2^128); bit 127 is the first bit of a block. -/
def gcmMul (x y : Nat) : Nat :=
  ((List.range 128).foldl (fun (a : Nat × Nat) i =>
    (if x.testBit (127 - i) then a.1 ^^^ a.2 else a.1, if a.2 % 2 = 1 then (a.2 / 2) ^^^ (0xE1 * 2 ^ 120) else a.2 / 2)) (0, y)).1

/-- The blocks of 16 bytes of a string, the last filled with zeros. -/
def blocks16 (d : List Byte) : List (List Byte) :=
  (List.range ((d.length + 15) / 16)).map (fun i => let b := chunk 16 d i; b ++ List.replicate (16 - b.length) 0)

/-- A keyed block cipher: SM4 (0) or AES-256 (1). -/
def cipherOf (alg : Nat) (key : List Byte) : List Byte → List Byte :=
  if alg = 0 then let k := sm4Keys key; sm4Block k else let k := aesKeys key; aesBlock k

/-- Counter mode from the block after the IV's first; it opens what it has sealed. -/
def gcmText (enc : List Byte → List Byte) (iv d : List Byte) : List Byte :=
  (((blocks16 d).zipIdx).flatMap (fun e => xorBytes e.1 (enc (iv ++ beBytes 4 (e.2 + 2))))).take d.length

/-- The tag over additional data and a ciphertext. -/
def gcmTag (enc : List Byte → List Byte) (iv aad ct : List Byte) : List Byte :=
  let h := beNat (enc (List.replicate 16 0))
  let all := blocks16 aad ++ blocks16 ct ++ [beBytes 8 (8 * aad.length) ++ beBytes 8 (8 * ct.length)]
  xorBytes (beBytes 16 (all.foldl (fun y b => gcmMul (y ^^^ beNat b) h) 0)) (enc (iv ++ beBytes 4 1))

/-- The ciphertext and the tag of a plaintext; and the plaintext of a ciphertext, with whether its tag matches. -/
def gcmSeal (alg : Nat) (key iv aad text : List Byte) : List Byte × List Byte :=
  let ct := gcmText (cipherOf alg key) iv text
  (ct, gcmTag (cipherOf alg key) iv aad ct)
def gcmOpen (alg : Nat) (key iv aad ct tag : List Byte) : List Byte × Bool :=
  (gcmText (cipherOf alg key) iv ct, gcmTag (cipherOf alg key) iv aad ct == tag)

/-! ## SM2 (GB/T 32918) -/

def sm2P : Nat := 0xFFFFFFFEFFFFFFFFFFFFFFFFFFFFFFFFFFFFFFFF00000000FFFFFFFFFFFFFFFF
def sm2A : Nat := sm2P - 3
def sm2B : Nat := 0x28E9FA9E9D9F5E344D5A9E4BCF6509A7F39789F515AB8F92DDBCBD414D940E93
def sm2N : Nat := 0xFFFFFFFEFFFFFFFFFFFFFFFFFFFFFFFF7203DF6B21C6052B53BBF40939D54123
def sm2Gx : Nat := 0x32C4AE2C1F1981195F9904466A39C9948FE30BBFF2660BE1715A4589334C74C7
def sm2Gy : Nat := 0xBC3736A2F4F6779C59BDCEE36B692153D0A9877CC62A474002DF32E52139F0A0

/-- A power modulo m, by the 256 bits of the exponent; and the inverse modulo a prime. -/
def powMod (m x e : Nat) : Nat :=
  (List.range 256).foldl (fun a i => let a := a * a % m; if e.testBit (255 - i) then a * x % m else a) 1
def invMod (m x : Nat) : Nat := powMod m x (m - 2)

/-- A point of the curve, none at infinity. -/
abbrev Point := Option (Nat × Nat)
def sm2Slope (num den : Nat) (p q : Nat × Nat) : Point :=
  let l := num * invMod sm2P den % sm2P
  let x := (l * l + 2 * sm2P - p.1 - q.1) % sm2P
  some (x, (l * (p.1 + sm2P - x) + sm2P - p.2) % sm2P)
def sm2Add : Point → Point → Point
  | none, q => q
  | p, none => p
  | some p, some q =>
    if p.1 ≠ q.1 then sm2Slope ((q.2 + sm2P - p.2) % sm2P) ((q.1 + sm2P - p.1) % sm2P) p q
    else if p.2 = q.2 ∧ p.2 ≠ 0 then sm2Slope ((3 * p.1 * p.1 + sm2A) % sm2P) (2 * p.2 % sm2P) p p
    else none
def sm2Times (k : Nat) (p : Point) : Point :=
  (List.range 256).foldl (fun a i => let d := sm2Add a a; if k.testBit (255 - i) then sm2Add d p else d) none
def sm2OnCurve (x y : Nat) : Bool :=
  decide (x < sm2P) && decide (y < sm2P) && (y * y % sm2P == (x * x * x + sm2A * x + sm2B) % sm2P)

/-- n bytes derived from a string. -/
def sm2Kdf (z : List Byte) (n : Nat) : List Byte :=
  ((List.range ((n + 31) / 32)).flatMap (fun i => sm3 (z ++ beBytes 4 (i + 1)))).take n

/-- The message of a ciphertext C1 ‖ C3 ‖ C2 under a private key, none where it fails. -/
def sm2Open (key : Nat) (d : List Byte) : Option (List Byte) :=
  let x := beNat (chunk 32 (d.drop 1) 0)
  let y := beNat (chunk 32 (d.drop 1) 1)
  if d.headD 0 ≠ 4 || !sm2OnCurve x y then none
  else match sm2Times key (some (x, y)) with
  | none => none
  | some (x2, y2) =>
    let c2 := d.drop 97
    let t := sm2Kdf (beBytes 32 x2 ++ beBytes 32 y2) c2.length
    let m := xorBytes c2 t
    if t.all (fun b => b == 0) || sm3 (beBytes 32 x2 ++ m ++ beBytes 32 y2) != (d.drop 65).take 32 then none else some m

/-- The user identifier of R461, and the digest Z of a private key's public half. -/
def sm2Id : List Byte := (List.range 16).map (fun i => BitVec.ofNat 8 (0x31 + i % 8))
def sm2Z (key : Nat) : List Byte :=
  let pub := (sm2Times key (some (sm2Gx, sm2Gy))).getD (0, 0)
  sm3 (beBytes 2 128 ++ sm2Id ++ [sm2A, sm2B, sm2Gx, sm2Gy, pub.1, pub.2].flatMap (beBytes 32))

/-- The signature r ‖ s of a message with a number k, none for a k that the standard draws again. -/
def sm2SignWith (key : Nat) (m : List Byte) (k : Nat) : Option (List Byte) :=
  let e := beNat (sm3 (sm2Z key ++ m))
  let r := (e + ((sm2Times k (some (sm2Gx, sm2Gy))).getD (0, 0)).1) % sm2N
  let t := invMod sm2N (1 + key) * (k + sm2N * sm2N - r * key) % sm2N
  if k % sm2N = 0 || r = 0 || r + k = sm2N || t = 0 then none else some (beBytes 32 r ++ beBytes 32 t)

/-- The signature with the first fit number of a sequence. -/
def sm2Sign (key : Nat) (m : List Byte) (ks : List Nat) : List Byte := (ks.findSome? (sm2SignWith key m)).getD (List.replicate 64 0)

end Sys2Proof.Machine
end

