-- ==== Sys2Proof/Machine/Service.lean ====
section
/-! DEFINITION. The security engine's requests (R454 to R463), the Collie's recovery from a fatal fault (R465 to R467)
and its lockstep comparison (R464). -/

namespace Sys2Proof.Machine

/-! ## The request block -/

/-- A number of n bytes at an offset of the request block (R4, R455). -/
def field (d : List Byte) (o n : Nat) : Nat := natOf ((d.drop o).take n)

/-- Some byte of the request outside its operands is set: the operands as (offset, size) (R455). -/
def reservedSet (d : List Byte) (ops : List (Nat × Nat)) : Bool :=
  (List.range 128).any (fun i => d.getD i 0 != 0 && !ops.any (fun e => decide (e.1 ≤ i) && decide (i < e.1 + e.2)))

/-! ## Carve-outs -/

/-- The range of a carve-out meets another's. -/
def Service.overlaps (v : Service) (base size : Nat) : Bool :=
  v.carves.any (fun e => e.2.en && decide (base < e.2.base + e.2.size) && decide (e.2.base < base + size))

/-- A context table entry in use: bound, or enabled in the table (R443, R457). -/
def State.ctxEnabled (s : State) (n : Nat) : Bool :=
  decide (n < s.ctxCount) && ((s.ctx n).bound || flagBit (natOf (s.hRead (s.ctxEntry n) 16).2) 64)

/-- CARVE (R457): the copies of the range are written back and dropped, and the carve-out stands. -/
def State.carveRun (s : State) (d : List Byte) : State × Nat :=
  let k := field d 8 1
  let base := field d 16 8
  let size := field d 24 8
  let own := field d 32 2
  if reservedSet d [(0, 1), (8, 1), (16, 8), (24, 8), (32, 2)] then (s, 0x01)
  else if 7 < k || base % 65536 != 0 || size % 65536 != 0 || size == 0 || (SMap.find s.svc.carves k).isSome
      || Config.memFitted * 2 ^ 20 < base + size || !s.ctxEnabled own then (s, 0x02)
  else if s.svc.overlaps base size then (s, 0x03)
  else
    let s := s.purge base (base + size)
    ({ s with svc := { s.svc with carves := SMap.put s.svc.carves k ⟨true, base, size, own⟩ } }, 0)

/-- UNCARVE (R458). -/
def State.uncarveRun (s : State) (d : List Byte) : State × Nat :=
  let k := field d 8 1
  if reservedSet d [(0, 1), (8, 1)] then (s, 0x01)
  else match SMap.find s.svc.carves k with
  | none => (s, 0x02)
  | some v =>
    if s.grids.any (fun e => e.2.ctx == v.owner && s.gridRuns e.1 e.2) || s.svc.job.any (fun j => j.ctx == v.owner) then (s, 0x03)
    else (s.uncarve k v, 0)

/-! ## Confidential contexts -/

/-- The private half of the device identity key (R459, R462). -/
def identityKey : Nat := 1 + Config.deviceKey % (sm2N - 2)

/-- CONFKEY (R459): the ciphertext of C1, 65 bytes, C3, 32, and C2, the key. -/
def State.confkeyRun (s : State) (d : List Byte) : State × Nat :=
  let n := field d 16 2
  let alg := field d 18 1
  let a := field d 24 8
  if reservedSet d [(0, 1), (16, 2), (18, 1), (24, 8), (32, 2)] then (s, 0x01)
  else if 1 < alg || !(s.ctx n).bound || 2 ^ 48 ≤ a then (s, 0x02)
  else
    let (t, w) := s.hRead a (field d 32 2)
    match sm2Open identityKey w with
    | some k =>
      if field d 32 2 = 97 + (if alg = 0 then 16 else 32) then (t.modCtx n (fun c => { c with conf := some ⟨alg, k, none, 0⟩ }), 0)
      else (t, 0x04)
    | none => (t, 0x04)

/-- A virtual run of a context that lies wholly in its own carve-outs, as physical runs of at most a page (R460). -/
def State.ownRuns (s : State) (n : Nat) (acc : Access) : Nat → Nat → Nat → Option (List (Nat × Nat))
  | 0, _, len => if len = 0 then some [] else none
  | fuel + 1, va, len =>
    if len = 0 then some []
    else
      let k := min len (4096 - va % 4096)
      match s.translate ⟨.frontEnd, n, false, acc⟩ va with
      | .ok pa _ =>
        let own := s.svc.carves.any (fun e => e.2.en && e.2.owner == n && decide (e.2.base ≤ pa) && decide (pa + k ≤ e.2.base + e.2.size))
        if own && decide (va + k ≤ 2 ^ 48) then
          (State.ownRuns s n acc fuel (va + k) (len - k)).map (fun l => (pa, k) :: l)
        else none
      | _ => none

/-- Bytes over physical runs, written and read by the security engine's copy engine, which the checker lets pass
(R456). -/
def MemSys.writeRuns (m : MemSys) : List (Nat × Nat) → List Byte → MemSys
  | [], _ => m
  | (a, k) :: r, d => MemSys.writeRuns (m.hostWrite a (d.take k)) r (d.drop k)
def MemSys.readRuns (m : MemSys) (l : List (Nat × Nat)) : MemSys × List Byte :=
  let m := l.foldl (fun (m : MemSys) e => m.hostReads e.1 e.2) m
  (m, l.flatMap (fun e => m.hostRead e.1 e.2))

/-- The 16 bytes of additional data (R460). -/
def aadOf (n dir len va : Nat) : List Byte := bytesOf 2 n ++ bytesOf 1 dir ++ bytesOf 1 0 ++ bytesOf 4 len ++ bytesOf 8 va

/-- The number of a big-endian IV. -/
def ivNat (d : List Byte) : Nat := natOf d.reverse

/-- The counter of a copy: its address translated for a write of 8 bytes (R460). -/
def State.counterPa (s : State) (n va : Nat) : Option Nat :=
  if va % 8 != 0 || 2 ^ 48 ≤ va then none
  else match s.translate ⟨.frontEnd, n, false, .write⟩ va with
  | .ok pa _ => if s.svc.barred n pa then none else some pa
  | _ => none

/-- COPYIN begins (R460): the plaintext stands at the destination before the tag has been judged. -/
def State.copyinRun (s : State) (d : List Byte) : State × Nat :=
  let n := field d 16 2
  let src := field d 24 8
  let va := field d 32 8
  let len := field d 40 4
  let iv := (d.drop 44).take 12
  if reservedSet d [(0, 1), (16, 2), (24, 56)] then (s, 0x01)
  else match (s.ctx n).conf, s.ownRuns n .write 4097 va len, s.counterPa n (field d 72 8) with
  | some key, some runs, some ctr =>
    if len % 16 != 0 || len == 0 || 2 ^ 24 < len || 2 ^ 48 ≤ src then (s, 0x02)
    else if 2 ^ 95 ≤ ivNat iv || key.lastIv.any (fun x => decide (ivNat iv ≤ x)) then (s, 0x05)
    else
      let (t, ct) := s.hRead src len
      let (text, good) := gcmOpen key.alg key.key iv (aadOf n 0 len va) ct ((d.drop 56).take 16)
      let j : CopyJob := ⟨n, false, runs, ctr, key.alg, key.key, iv, len, va, src, text, good⟩
      ({ t with mem := t.mem.writeRuns runs text, svc := { t.svc with job := some j } }, 0)
  | _, _, _ => (s, 0x02)

/-- COPYOUT begins (R460): it reads its source, and takes its IV. -/
def State.copyoutRun (s : State) (d : List Byte) : State × Nat :=
  let n := field d 16 2
  let va := field d 24 8
  let dst := field d 32 8
  let len := field d 40 4
  if reservedSet d [(0, 1), (16, 2), (24, 20), (72, 8)] then (s, 0x01)
  else match (s.ctx n).conf, s.ownRuns n .read 4097 va len, s.counterPa n (field d 72 8) with
  | some key, some runs, some ctr =>
    if len % 16 != 0 || len == 0 || 2 ^ 24 < len || 2 ^ 48 ≤ dst then (s, 0x02)
    else
      let iv := (bytesOf 12 (2 ^ 95 + key.outs)).reverse
      let (m, data) := s.mem.readRuns runs
      let j : CopyJob := ⟨n, true, runs, ctr, key.alg, key.key, iv, len, va, dst, data, true⟩
      ({ s with mem := m, svc := { s.svc with job := some j } }, 0)
  | _, _, _ => (s, 0x02)

/-- The bytes that a COPYOUT encrypts: each word of its source as it stood at the start, or as it stands now (log 126). -/
def CopyJob.text (j : CopyJob) (t : Nat) (now : List Byte) : List Byte :=
  ((j.data.zip now).zipIdx).map (fun e => if Config.copyLate t ((j.va + e.2) / 4) then e.1.2 else e.1.1)

/-- COPYIN or COPYOUT ends (R460), with its code: the destination is zero where the tag fails; else the counter advances. -/
def State.finishJob (s : State) (j : CopyJob) : State × Nat :=
  let s : State := { s with svc := { s.svc with job := none } }
  if j.out then
    let (m, now) := s.mem.readRuns j.runs
    let (ct, tag) := gcmSeal j.alg j.key j.iv (aadOf j.ctx 1 j.len j.va) (j.text s.tick now)
    let s := ({ s with mem := m } : State).hWrite j.host ct
    let s : State := { s with mem := s.mem.addSys j.counter j.len }
    let s := s.modCtx j.ctx (fun c => { c with conf := c.conf.map (fun k => { k with outs := k.outs + 1 }) })
    (s.hWrite (s.svc.sreq + 128) (j.iv ++ tag), 0)
  else if j.good then
    let s : State := { s with mem := s.mem.addSys j.counter j.len }
    (s.modCtx j.ctx (fun c => { c with conf := c.conf.map (fun k => { k with lastIv := some (ivNat j.iv) }) }), 0)
  else ({ s with mem := s.mem.writeRuns j.runs (List.replicate j.len 0) }, 0x04)

/-! ## Attestation -/

/-- A carve-out's entry in a quote (R463). -/
def Service.carveImage (v : Service) (k : Nat) : Nat :=
  match SMap.find v.carves k with
  | some e => (e.base / 2 ^ 16 % 2 ^ 32) * 2 ^ 16 + (e.size / 2 ^ 16 % 2 ^ 32) * 2 ^ 48 + e.owner % 2 ^ 16 * 2 ^ 80 + b2n e.en * 2 ^ 96
  | none => 0

/-- A list of bytes cut or filled with zeros to a length. -/
def padBytes (n : Nat) (d : List Byte) : List Byte := (d ++ List.replicate n 0).take n

/-- The quote of R462 up to its signature. -/
def State.quote (s : State) (nonce : List Byte) : List Byte :=
  let confs := (s.ctxs.filter (fun e => e.2.conf.isSome)).flatMap (fun e =>
    bytesOf 2 e.1 ++ bytesOf 1 ((e.2.conf.map (fun c => c.alg)).getD 0))
  bytesOf 4 1 ++ bytesOf 4 0x0480 ++ padBytes 8 Config.serial ++ padBytes 32 nonce
  ++ (List.range 3).flatMap (fun k => padBytes 32 (Config.firmwareDigest k))
  ++ bytesOf 8 s.host.dres ++ bytesOf 8 0
  ++ (List.range 8).flatMap (fun k => bytesOf 16 (s.svc.carveImage k))
  ++ sm3 confs

/-- ATTEST (R462). -/
def State.attestRun (s : State) (d : List Byte) : State × Nat :=
  let a := field d 48 8
  if reservedSet d [(0, 1), (16, 32), (48, 8)] then (s, 0x01)
  else if a % 4096 != 0 || 2 ^ 48 ≤ a then (s, 0x02)
  else
    let q := s.quote ((d.drop 16).take 32)
    let sig := sm2Sign identityKey q ((List.range 8).map (fun i => 1 + Config.signDraw s.tick i % (sm2N - 1)))
    ((s.hWrite a (q ++ sig ++ List.replicate 128 0)).hWrite (a + 0x200) (Config.certificate.take 1536), 0)

/-! ## Requests -/

/-- A request of an opcode carried out (R455). -/
def State.serve (s : State) (d : List Byte) : State × Nat :=
  match field d 0 1 with
  | 1 => s.carveRun d
  | 2 => s.uncarveRun d
  | 3 => s.confkeyRun d
  | 4 => s.copyinRun d
  | 5 => s.copyoutRun d
  | 6 => s.attestRun d
  | _ => (s, 0x01)

/-- A request started by SDOOR (R454): it runs at once, or waits for a recovery to end (R455). -/
def State.startRequest (s : State) (d : List Byte) : State :=
  if s.frozen then { s with svc := { s.svc with sstat := 1, pend := true } }
  else
    let (t, c) := s.serve d
    { t with svc := { t.svc with sstat := 1, result := c, pend := false } }

/-- A write of SDOOR with the request block holding some opcode; while a request runs it is discarded. -/
def State.sdoor (s : State) (ok : Nat → Bool) : State :=
  if s.svc.sstat = 1 then s
  else
    let (t, d) := s.hRead s.svc.sreq 256
    if ok (field d 0 1) then t.startRequest d else s

/-- CARVE, UNCARVE, CONFKEY, COPYIN, COPYOUT, ATTEST and UNKNOWN_SERVICE_REQUEST (R455). -/
def execCarve (s : State) : Out := .next (s.sdoor (fun k => k == 1))
def execUncarve (s : State) : Out := .next (s.sdoor (fun k => k == 2))
def execConfkey (s : State) : Out := .next (s.sdoor (fun k => k == 3))
def execCopyin (s : State) : Out := .next (s.sdoor (fun k => k == 4))
def execCopyout (s : State) : Out := .next (s.sdoor (fun k => k == 5))
def execAttest (s : State) : Out := .next (s.sdoor (fun k => k == 6))
def execUnknownServiceRequest (s : State) : Out := .next (s.sdoor (fun k => k == 0 || decide (6 < k)))

/-- SDOOR_WRITE_DISCARD (R454): a write while a request runs changes nothing. -/
def execSdoorWriteDiscard (s : State) : Out := .next s

/-- SERVICE_REQUEST_COMPLETION (R454): the request that ran ends with its code; one that waited for a recovery runs
first. During a recovery a request waits (R455). -/
def execServiceRequestCompletion (s : State) : Out :=
  let finish := fun (t : State) => { t with svc := { t.svc with
    sstat := if t.svc.result = 0 then 2 else 3, scode := t.svc.result, pend := false } }
  if s.svc.sstat ≠ 1 || s.frozen then .next s
  else if s.svc.pend then
    let (t, d) := s.hRead s.svc.sreq 256
    .next (t.startRequest d)
  else match s.svc.job with
  | some j =>
    let (t, c) := s.finishJob j
    .next (finish { t with svc := { t.svc with result := c } })
  | none => .next (finish s)

/-! ## The Collie -/

/-- FATAL_FAULT (R464, R467): RSTAT becomes 01; packet reads, launches, placement, grants and copies stop, and every team is to
stop at a forced safe point (R266). -/
def execFatalFault (s : State) : Out :=
  .next (({ s with svc := { s.svc with uecnt := min (s.svc.uecnt + 1) (2 ^ 32 - 1), rstat := 1 } }).requestGrids (s.grids.map Prod.fst))

/-- LOCKSTEP_MISMATCH (R464). -/
def execLockstepMismatch (s : State) : Out :=
  .next { s with svc := { s.svc with uecnt := min (s.svc.uecnt + 1) (2 ^ 32 - 1), rstat := 2, stopped := true } }

/-- The zero fields of a control block's header and interfaces, and of a grid record (R7, R465, R466). -/
def ccbZeros (d : List Byte) : Bool :=
  bits (field d 8 4) 31 17 == 0 && field d 12 20 == 0 && field d 0x138 8 == 0
    && (List.range 64).all (fun q => bits (field d (0x140 + 4 * q) 4) 30 16 == 0)
def recordZeros (x : Nat) : Bool := bits x 44 38 == 0 && bits x 15 0 == 0

/-- The control block of a context, none where it cannot be read, its magic is bad or a zero field of it is set (R7, R467;
log 164). -/
def State.ccbOf (s : State) (c : Ctx) (n : Nat) : Option (List Byte) :=
  match s.translate ⟨.frontEnd, n, false, .read⟩ c.save with
  | .ok pa _ =>
    let d := s.mem.hostRead pa 1024
    if s.svc.covers pa 1024 || poisoned s.mem.poison pa 1024 || field d 0 4 != 0x4243434C || !ccbZeros d then none else some d
  | _ => none

/-- A record of TYPE 0x04 (R467). -/
def State.logAction (s : State) (ctx name action : Nat) : State := s.logNamed 0x04 ctx name action 0

/-- A grid record of a control block acted on (R467): the grids of `old` are those that ran before. A relaunch takes
the packet that the front end kept for the grid. A record with a zero field set is refused: its grid is discarded (R7). -/
def State.rebuildGrid (s : State) (old : SMap Grid) (n x : Nat) : State :=
  let id := bits x 79 48
  let found := old.find? (fun e => gridNumber e.1 == id && e.2.ctx == n)
  let r := found.map Prod.snd
  let again := fun (s : State) =>
    let l : Launch :=
      { ctx := n, lpb := bits x 127 80, super := (r.map (fun r => r.mode)).getD false, packet := r.bind (fun r => r.packet),
        root := r.bind (fun r => r.root), arrived := s.clock, waits := none, failed := false, again := true,
        kin := flagBit x 45 || (r.map (fun r => r.kin)).getD false, got := (r.map (fun r => r.got)).getD 0 }
    { s with host := { s.host with launches := s.host.launches ++ [l] } }
  if bits x 47 46 != 0 && !recordZeros x then s.logAction n id 1
  else match bits x 47 46 with
  | 1 => (again s).logAction n id 3
  | 2 => if flagBit x 45 then (again s).logAction n id 2 else s.logAction n id 1
  | 3 => (match found with
    | some (k, r) => { s with grids := SMap.put s.grids k { r with doneWait := none, doneFailed := false, triggered := true, retired := true, started := false } }
    | none => s)
  | _ => s

/-- A context rebuilt from its control block, or left unrecoverable (R467): nothing of it is launched any more. -/
def State.rebuildCtx (s : State) (old : SMap Grid) (n : Nat) (c : Ctx) : State :=
  match s.ccbOf c n with
  | none =>
    let shut := fun (i : Iface) => if i.ctx = n then { i with opened := false } else i
    let s : State := { s with host := { s.host with
      ifaces := s.host.ifaces.map (fun e => (e.1, shut e.2)), launches := s.host.launches.filter (fun i => i.ctx != n) } }
    (s.modCtx n (fun c => { c with triggers := [] })).logAction n 0 4
  | some d =>
    let k := (kimageOf (numbers8 (d.drop 0x20) 17)).getD c.kcfg
    let m := (mimageOf (numbers8 (d.drop 0xA8) 18)).getD c.mcfg
    let s := (s.modCtx n (fun c => { c with kcfg := k, mcfg := m })).leak n
    let s := (List.range 28).foldl (fun (s : State) j => s.rebuildGrid old n (field d (0x240 + 16 * j) 16)) s
    let iface := fun (q : Nat) (i : Iface) =>
      let x := field d (0x140 + 4 * q) 4
      if i.ctx = n then { i with opened := flagBit x 31, head := if flagBit x 31 then x % 2 ^ 16 else i.head } else i
    let s : State := { s with host := { s.host with ifaces := s.host.ifaces.map (fun e => (e.1, iface e.1 e.2)) } }
    s.syncCcb n

/-- Steps 2 to 4 of R467: every team ends, the queues and waits are discarded, each context is rebuilt, and the host waits are
refused. A dependant whose count stands is tried again, since the save area keeps the counts (R254). -/
def State.recover (s : State) : State :=
  let old := s.grids
  let s := (s.settleTargets (fun _ => true)).endGrids (old.map Prod.fst)
  let stays := fun (i : Launch) => i.packet.isNone || i.again
  let free := fun (i : Launch) => { i with waits := none, image := none, failed := false }
  let s : State := { s with
    copies := []
    mesh := []
    hwaits := []
    trans := { s.trans with reqs := [] }
    stream := { s.stream with fills := [] }
    host := { s.host with launches := (s.host.launches.filter stays).map free } }
  let s := (s.ctxs.filter (fun e => e.2.bound)).foldl (fun (s : State) e => s.rebuildCtx old e.1 e.2) s
  s.refuseWaits (fun _ => true)

/-- RECOVERY_END (R467): once every group has stopped. -/
def execRecoveryEnd (s : State) : Out :=
  if s.frozen && s.groups.all (fun e => e.2.still) then
    let t := s.recover
    .next { t with svc := { t.svc with rstat := 0, recoveries := min (t.svc.recoveries + 1) (2 ^ 16 - 1) } }
  else .next s

end Sys2Proof.Machine
end

