-- ==== Sys2Proof/Machine/Power.lean ====
section
/-! DEFINITION. Power states and bring-up (R468 to R473). -/

namespace Sys2Proof.Machine

/-! ## PWRCTL -/

/-- The power state that a TARGET names (R469). -/
def powerOf (k : Nat) : PowerState :=
  match k with
  | 0 => .run
  | 1 => .listen
  | _ => .retain

/-- A context is enabled, as the power controller finds it: in Retain, as it stood on the way there (log 187). -/
def State.lctxOk (s : State) (n : Nat) : Bool := if s.pwr.state = .retain then s.pwr.enabled.contains n else s.ctxEnabled n

/-- A grid is queued or running, or a launch is on its way (R466, R469). -/
def State.gridsLeft (s : State) : Bool :=
  !s.host.launches.isEmpty || s.grids.any (fun e => !e.2.retired && !(e.2.discarded && s.gridDone e.1 e.2))

/-- The code that refuses a write of PWRCTL, or 0 (R469). -/
def State.pwrCode (s : State) (v : Nat) : Nat :=
  let k := bits v 49 48
  if k == 3 || bits v 7 0 < 45 || 220 < bits v 7 0 || bits v 63 50 != 0 || bits v 19 8 != 0 || !s.lctxOk (bits v 35 20) then 0x02
  else if k == 2 && (s.gridsLeft || !s.kennel.tiles.isEmpty) then 0x03
  else if s.host.restart || s.frozen then 0x04
  else 0

/-- A write of PWRCTL (R469, R471): discarded while BUSY and where it would pass between Listen and Retain directly; a
new target begins its transition, and on the way to Listen every resident team is to be saved. -/
def State.writePwrctl (s : State) (v : Nat) : State :=
  let k := powerOf (bits v 49 48)
  let direct := (s.pwr.state == .listen && k == .retain) || (s.pwr.state == .retain && k == .listen)
  let code := s.pwrCode v
  if !s.host.ready || s.pwr.busy || (direct && code == 0) then s
  else if code ≠ 0 then { s with pwr := { s.pwr with code := code } }
  else
    let s : State := { s with pwr := { s.pwr with pwrctl := v, code := 0 } }
    if k = s.pwr.state then s
    else
      let s : State := { s with pwr := { s.pwr with busy := true, target := k, wakeDue := false } }
      if k = PowerState.listen then
        (s.teams.filter (fun e => e.2.life == .resident)).foldl (fun (s : State) e => s.request e.1) s
      else s

/-- PWR_TARGET_RUN, PWR_TARGET_LISTEN, PWR_TARGET_RETAIN: a write of PWRCTL that changes the target to one of the three;
PWR_ENVELOPE: a write that does not. -/
def State.changesTo (s : State) (v : Nat) (k : PowerState) : Bool :=
  bits v 49 48 != 3 && powerOf (bits v 49 48) == k && s.pwr.state != k
def execPwrTargetRun (v : Nat) (s : State) : Out := .next (if s.changesTo (v % 2 ^ 64) .run then s.writePwrctl (v % 2 ^ 64) else s)
def execPwrTargetListen (v : Nat) (s : State) : Out := .next (if s.changesTo (v % 2 ^ 64) .listen then s.writePwrctl (v % 2 ^ 64) else s)
def execPwrTargetRetain (v : Nat) (s : State) : Out := .next (if s.changesTo (v % 2 ^ 64) .retain then s.writePwrctl (v % 2 ^ 64) else s)
def execPwrEnvelope (v : Nat) (s : State) : Out :=
  let w := v % 2 ^ 64
  .next (if s.changesTo w .run || s.changesTo w .listen || s.changesTo w .retain then s else s.writePwrctl w)

/-! ## Transitions -/

/-- A copy of LCTX on LCORE. -/
def State.copyHere (s : State) (c : Copy) : Bool := c.ctx == bits s.pwr.pwrctl 35 20 && c.core == bits s.pwr.pwrctl 47 42 && !c.paused

/-- Run to Listen (R471): every cache is written back, and what the other cores hold is lost (log 26); the copies of the
saved teams are suspended until their restore (log 161). LCORE keeps what the teams of LCTX hold that stand there by now. -/
def State.toListen (s : State) : State :=
  let s := (s.settleTargets (fun _ => true)).purge 0 (2 ^ 48)
  let core := bits s.pwr.pwrctl 47 42
  let lost := s.kennel.tiles.filter (fun t => t.core != core)
  let k := lost.foldl (fun (k : Kennel) t => k.free t) s.kennel
  let rest := fun (c : Copy) => if s.copyHere c then c else { c with paused := true }
  let cold := fun (key : Nat) (p : PairCtl) => if key / 3 = core then p else { p with ramp := 0, burst := 0, running := none }
  ({ s with
    mem := { s.mem with slc := [] }
    kennel := k
    copies := s.copies.map (fun (e : Nat × Copy) => (e.1, rest e.2))
    slots := s.slots.filter (fun e => e.1 / 6 == core)
    second := none
    pairs := s.pairs.map (fun (e : Nat × PairCtl) => (e.1, cold e.1 e.2))
    trans := { s.trans with tlb := [], ptrs := [] }
    decodes := []
    texels := []
    pwr := { s.pwr with state := .listen, busy := false, stoppedCores := [], activeChannels := [] } }).wakeSleepers (fun _ => true)

/-- Run to Retain (R470, R471): host waits are refused; memory, carve-outs and keys are kept, with what the power
controller and the security engine hold; all else returns to its reset values (log 27). -/
def State.toRetain (s : State) : State :=
  let on := (List.range s.ctxCount).filter s.ctxEnabled
  let s := ((s.settleTargets (fun _ => true)).refuseWaits (fun _ => true)).purge 0 (2 ^ 48)
  { agenda := s.agenda, tick := s.tick, clock := s.clock, nextId := s.nextId, svc := s.svc, snap := s.snap
    mem := { cells := s.mem.cells, poison := s.mem.poison }
    ctxs := (s.ctxs.filter (fun e => e.2.conf.isSome)).map (fun e => (e.1, { conf := e.2.conf }))
    host := { ready := s.host.ready, restart := s.host.restart, messages := s.host.messages, lastRead := s.host.lastRead }
    stream := { reads := s.stream.reads }
    pwr := { s.pwr with state := .retain, busy := false, stoppedCores := [], activeChannels := [], enabled := on } }

/-- The first of bring-up steps 4 to 6 that fails at a step of the machine, if any (R471, R473). -/
def failingStep (t : Nat) : Option Nat := [4, 5, 6].find? (fun j => Config.bringUpFails t j)

/-- To Run: saved teams are queued for relaunch on any core; from Retain, bring-up steps 4 to 7 run (R471). -/
def State.toRun (s : State) : State :=
  let s : State := { s with teams := s.teams.map (fun e => (e.1, if e.2.life = .saved then { e.2 with wanted := true } else e.2)) }
  let s : State := match s.pwr.state, failingStep s.tick with
    | .retain, some k => { s with host := { s.host with ready := false }, pwr := { s.pwr with brup := k - 1, brupFail := k - 1 } }
    | .retain, none => { s with pwr := { s.pwr with brupFail := if Config.bringUpFails s.tick 7 then 6 else 0 } }
    | _, _ => s
  ({ s with pwr := { s.pwr with state := .run, busy := false, activeChannels := [] } }).wakeSleepers (fun _ => true)

/-- A team has been placed on LCORE on the way to Listen: it is of LCTX, and no stop of it is due (R471). -/
def State.teamHere (s : State) (id : Nat) (t : Team) : Bool :=
  t.ctx == bits s.pwr.pwrctl 35 20 && t.core == bits s.pwr.pwrctl 47 42 && (s.liveGroups id).all (fun e => !e.2.trap.preempt)

/-- A copy in flight belongs to a saved team, or has been suspended, or runs for a team on LCORE. -/
def State.copyRests (s : State) (c : Copy) : Bool :=
  c.paused || s.copyHere c || ((SMap.find s.teams c.team).map (fun t => t.life == .saved)).getD false

/-- POWER_TRANSITION_DONE (R471): to Listen once every team has been saved and nothing is in flight, but for what LCTX has by
then on LCORE. -/
def execPowerTransitionDone (s : State) : Out :=
  if !s.pwr.busy then .next s
  else match s.pwr.target with
  | .listen =>
    if s.teams.all (fun e => e.2.life != .resident || s.teamHere e.1 e.2) && s.mesh.isEmpty && s.copies.all (fun e => s.copyRests e.2) then .next s.toListen
    else .next s
  | .retain => .next s.toRetain
  | _ => .next s.toRun

/-- LISTEN_WAKE (R471): the PWAKE word has become non-zero. -/
def execListenWake (s : State) : Out :=
  .next (if s.pwr.state == .listen && !s.pwr.busy && s.pwr.wakeDue then
    { s with pwr := { s.pwr with busy := true, target := .run, wakeDue := false } } else s)

/-- CHANNEL_SELF_REFRESH (R470). -/
def execChannelSelfRefresh (c : Nat) (s : State) : Out :=
  .next (if s.pwr.state == .listen then { s with pwr := { s.pwr with activeChannels := s.pwr.activeChannels.erase c } } else s)

/-! ## Heat and clocks -/

/-- THERMAL_THROTTLE and THERMAL_SHUTDOWN (R470). -/
def execThermalThrottle (s : State) : Out := .next { s with pwr := { s.pwr with throttled := true } }
def execThermalShutdown (s : State) : Out := .next { s with pwr := { s.pwr with state := .off, busy := false } }

/-- A core has no group that can issue, and no step, copy or fill in flight (R472). -/
def State.coreIdle (s : State) (c : Nat) : Bool :=
  s.groups.all (fun e => e.2.core != c || e.2.life != .resident || (e.2.allParked && e.2.async.isNone
    && ((e.2.tile.map (fun t => t.queue.isEmpty)).getD true)))
  && s.copies.all (fun e => e.2.core != c)
  && s.teams.all (fun e => e.2.core != c || e.2.life != .resident || e.2.lines.all (fun l => l.2.present))
  && s.mem.misses.all (fun e => e.1 != c)

/-- CORE_CLOCK_STOP and CORE_CLOCK_RESTART (R472). -/
def execCoreClockStop (c : Nat) (s : State) : Out :=
  .next (if c < 48 && s.coreIdle c && !s.pwr.stoppedCores.contains c then
    { s with pwr := { s.pwr with stoppedCores := s.pwr.stoppedCores ++ [c] } } else s)
def execCoreClockRestart (c : Nat) (s : State) : Out :=
  .next { s with pwr := { s.pwr with stoppedCores := s.pwr.stoppedCores.erase c } }

/-! ## Cold reset -/

/-- COLD_RESET (R461, R473): everything at its reset value and memory zero; the first step of bring-up is done, and the others
follow. What is to come and the messages already sent are not the part's to forget. -/
def execColdReset (s : State) : Out :=
  .next { agenda := s.agenda, tick := s.tick
          host := { messages := s.host.messages, lastRead := s.host.lastRead }, stream := { reads := s.stream.reads }
          pwr := { brup := 1, rising := true } }

/-- The next step of bring-up is done (R473), one to each step of the machine (log 189): READY is set by the last. A failure
holds bring-up at its step, and stops the part at a firmware check; without the root port the Peat tier stays unavailable. -/
def State.bringStep (s : State) : State :=
  let k := s.pwr.brup + 1
  if !s.pwr.rising then s
  else if k ≤ 6 && Config.bringUpFails s.tick k then
    { s with
      svc := { s.svc with stopped := decide (k < 4) }
      pwr := { s.pwr with brupFail := k - 1, rising := false } }
  else if k = 7 then { s with pwr := { s.pwr with brup := 7, brupFail := if Config.bringUpFails s.tick 7 then 6 else 0 } }
  else if k = 8 then { s with host := { s.host with ready := true }, pwr := { s.pwr with brup := 8, rising := false } }
  else { s with pwr := { s.pwr with brup := k } }

end Sys2Proof.Machine
end

