-- ==== Sys2Proof/Machine/Scalar.lean ====
section
/-! DEFINITION. Scalar words (R121 to R125) and moves between register kinds (R126, R127), with the special
registers of R14. -/

namespace Sys2Proof.Machine

/-- Scalar arithmetic, once per issue (R122). -/
def execSadd (d : Nat) (a b : Src) (s : State) : Out := sca2 s d a b (fun x y => x + y)
def execSsub (d : Nat) (a b : Src) (s : State) : Out := sca2 s d a b (fun x y => x - y)
def execSmul (d : Nat) (a b : Src) (s : State) : Out := sca2 s d a b (fun x y => x * y)
def execSand (d : Nat) (a b : Src) (s : State) : Out := sca2 s d a b (fun x y => x &&& y)
def execSor (d : Nat) (a b : Src) (s : State) : Out := sca2 s d a b (fun x y => x ||| y)
def execSxor (d : Nat) (a b : Src) (s : State) : Out := sca2 s d a b (fun x y => x ^^^ y)
def execSshl (d : Nat) (a b : Src) (s : State) : Out := sca2 s d a b shlWord
def execSshr (d : Nat) (a b : Src) (m : Bool) (s : State) : Out := sca2 s d a b (if m then sarWord else shrWord)

/-- SCMP: one result in every thread of the issue set (R123). -/
def execScmp (p cc : Nat) (a b : Src) (m : Bool) (s : State) : Out :=
  issueRegs s (fun c g s => s.src2 c g .int a b (fun x y =>
    g.regs.setP p c.map (if intCond cc m (x 0) (y 0) then BitVec.allOnes 64 else 0)))

/-- SMOV (R122) and SLI (R124). -/
def execSmov (d : Nat) (a : Src) (s : State) : Out :=
  issueRegs s (fun c g s => s.src1 c g .int a (fun x => g.regs.setS d (x 0)))
def execSli (d i : Nat) (s : State) : Out :=
  issueRegs s (fun _ g _ => .ok (g.regs.setS d (BitVec.ofInt 32 (signedOf 17 i))))

/-- SBRA: the whole issue set goes to the target when the scalar is not 0, else to the next packet (R125). -/
def execSbra (n i : Nat) (s : State) : Out :=
  issueWord s (fun c g s =>
    let target := if g.regs.getS n ≠ 0 then branchTo c.pc (signedOf 17 i) else c.pc + 12
    .ok (s.enterAt c.gid c.map target, 0))

/-- MOV and S2V: bit for bit, no status (R126, R127). -/
def execMov (d : Nat) (a : Src) (s : State) : Out := vec1 s .int d a (fun x => x)
def execS2v (d n : Nat) (s : State) : Out :=
  issueRegs s (fun c g _ => .ok (g.regs.writeLanes d (fun _ => g.regs.getS n) (c.lanes g)))

/-- V2S: vS of lane n if it is live, else 0; a lane at or above the width raises 0x01 (R127). -/
def execV2s (d v n : Nat) (s : State) : Out :=
  issueRegs s (fun c g _ =>
    if g.width ≤ n then .error (c.raise 0x01)
    else .ok (g.regs.setS d (if g.live.has n then g.regs.getV n v else 0)))

/-- A word of a number. -/
def ofN (n : Nat) : Word := BitVec.ofNat 32 n

/-- %team and %clu of a team: a team of a task group or a batch has a number beyond 2^32, for which the spec gives
no index, and reads a free value (log 22). -/
def teamNumber (n : Nat) : Nat := if n < 2 ^ 32 then n else Config.taskTeam n % 2 ^ 32

/-- The special registers as thread t sees them (R14). In a task group or consumer batch %ngrp is the NGRP of the grid's
LPB, as in a team of the index space (log 22). -/
def State.special (s : State) (c : Cur) (g : Group) (n t : Nat) : Word :=
  let lpb := (SMap.find s.grids g.grid).map (fun r => r.lpb)
  let x := (lpb.map (fun l => l.teamx)).getD 1
  let y := (lpb.map (fun l => l.teamy)).getD 1
  let z := (lpb.map (fun l => l.teamz)).getD 1
  let team := SMap.find s.teams g.team
  let index := teamNumber ((team.map (fun m => m.index)).getD 0)
  let task := SMap.find g.tasks t
  let tls := (lpb.map (fun l => l.tls)).getD 0
  match n with
  | 0x000 => ofN t
  | 0x001 => ofN g.grp
  | 0x002 => ofN index
  | 0x003 => ofN (index % x)
  | 0x004 => ofN (index / x % y)
  | 0x005 => ofN (index / x / y)
  | 0x006 => ofN (teamNumber ((team.map (fun m => m.cluster)).getD 0))
  | 0x007 => ofN ((team.map (fun m => m.rank)).getD 0)
  | 0x008 => ofN g.core
  | 0x009 => ofN g.part
  | 0x00A => ofN (gridNumber g.grid)
  | 0x00B => ofN g.width
  | 0x00C => ofN (x * y * z)
  | 0x00D => ofN ((lpb.map (fun l => l.ngrp)).getD 1)
  | 0x00E => ofN s.clock
  | 0x00F => ofN (s.clock / 2 ^ 32)
  | 0x010 => if task.isSome then ofN t else 0xFFFFFFFF
  | 0x011 => match task with
    | some k => ofN (tls * 256 + t * k.record.length)
    | none => 0xFFFFFFFF
  | 0x012 => g.regs.fstat
  | 0x013 => ofN g.live.toNat
  | 0x014 => ofN (g.live.toNat / 2 ^ 32)
  | 0x015 => ofN c.map.toNat
  | 0x016 => ofN (c.map.toNat / 2 ^ 32)
  | 0x017 => ofN g.lpb
  | _ => ofN (g.lpb / 2 ^ 32 % 2 ^ 16)

/-- MOVS: a special register into vD of each thread (R127); an unlisted number raises 0x01. -/
def execMovs (d n : Nat) (s : State) : Out :=
  issueRegs s (fun c g s =>
    if 0x018 < n then .error (c.raise 0x01) else .ok (g.regs.writeLanes d (s.special c g n) (c.lanes g)))

end Sys2Proof.Machine
end

