-- ==== Sys2Proof/Machine/Dispatch.lean ====
section
/-! DEFINITION. The dispatch of an instruction to its meaning, one arm per constructor. -/

namespace Sys2Proof.Machine

open Sys2Proof

/-- The meaning of an instruction in a state. -/
def exec (i : Instr) (s : State) : Host.Outcome State Fault Refusal :=
  match i with
  | .nop => Sys2Proof.Machine.execNop s
  | .bra a0 a1 a2 => Sys2Proof.Machine.execBra a0 a1 a2 s
  | .brc a0 a1 a2 => Sys2Proof.Machine.execBrc a0 a1 a2 s
  | .call a0 a1 a2 => Sys2Proof.Machine.execCall a0 a1 a2 s
  | .ret a0 => Sys2Proof.Machine.execRet a0 s
  | .jmpx a0 a1 => Sys2Proof.Machine.execJmpx a0 a1 s
  | .exit => Sys2Proof.Machine.execExit s
  | .converge => Sys2Proof.Machine.execConverge s
  | .yield => Sys2Proof.Machine.execYield s
  | .safept => Sys2Proof.Machine.execSafept s
  | .trigger => Sys2Proof.Machine.execTrigger s
  | .trap a0 => Sys2Proof.Machine.execTrap a0 s
  | .voteAny a0 a1 => Sys2Proof.Machine.execVoteAny a0 a1 s
  | .voteAll a0 a1 => Sys2Proof.Machine.execVoteAll a0 a1 s
  | .voteBallot a0 a1 => Sys2Proof.Machine.execVoteBallot a0 a1 s
  | .voteEq a0 a1 => Sys2Proof.Machine.execVoteEq a0 a1 s
  | .shflIdx a0 a1 a2 => Sys2Proof.Machine.execShflIdx a0 a1 a2 s
  | .shflUp a0 a1 a2 => Sys2Proof.Machine.execShflUp a0 a1 a2 s
  | .shflDown a0 a1 a2 => Sys2Proof.Machine.execShflDown a0 a1 a2 s
  | .shflXor a0 a1 a2 => Sys2Proof.Machine.execShflXor a0 a1 a2 s
  | .redg a0 a1 a2 => Sys2Proof.Machine.execRedg a0 a1 a2 s
  | .redgScalar a0 a1 a2 => Sys2Proof.Machine.execRedgScalar a0 a1 a2 s
  | .scangIncl a0 a1 a2 => Sys2Proof.Machine.execScangIncl a0 a1 a2 s
  | .scangExcl a0 a1 a2 => Sys2Proof.Machine.execScangExcl a0 a1 a2 s
  | .barG => Sys2Proof.Machine.execBarG s
  | .barT => Sys2Proof.Machine.execBarT s
  | .cwin a0 a1 a2 => Sys2Proof.Machine.execCwin a0 a1 a2 s
  | .cwinReg a0 a1 => Sys2Proof.Machine.execCwinReg a0 a1 s
  | .taskend => Sys2Proof.Machine.execTaskend s
  | .spawn a0 a1 a2 => Sys2Proof.Machine.execSpawn a0 a1 a2 s
  | .rsv a0 a1 a2 => Sys2Proof.Machine.execRsv a0 a1 a2 s
  | .rcommit a0 a1 => Sys2Proof.Machine.execRcommit a0 a1 s
  | .rget a0 => Sys2Proof.Machine.execRget a0 s
  | .rgetCount a0 a1 => Sys2Proof.Machine.execRgetCount a0 a1 s
  | .iadd a0 a1 a2 a3 => Sys2Proof.Machine.execIadd a0 a1 a2 a3 s
  | .isub a0 a1 a2 a3 => Sys2Proof.Machine.execIsub a0 a1 a2 a3 s
  | .imul a0 a1 a2 => Sys2Proof.Machine.execImul a0 a1 a2 s
  | .imulh a0 a1 a2 a3 => Sys2Proof.Machine.execImulh a0 a1 a2 a3 s
  | .imad a0 a1 a2 => Sys2Proof.Machine.execImad a0 a1 a2 s
  | .iadd64 a0 a1 a2 => Sys2Proof.Machine.execIadd64 a0 a1 a2 s
  | .imin a0 a1 a2 a3 => Sys2Proof.Machine.execImin a0 a1 a2 a3 s
  | .imax a0 a1 a2 a3 => Sys2Proof.Machine.execImax a0 a1 a2 a3 s
  | .iabs a0 a1 => Sys2Proof.Machine.execIabs a0 a1 s
  | .shl a0 a1 a2 => Sys2Proof.Machine.execShl a0 a1 a2 s
  | .shr a0 a1 a2 => Sys2Proof.Machine.execShr a0 a1 a2 s
  | .sar a0 a1 a2 => Sys2Proof.Machine.execSar a0 a1 a2 s
  | .rot a0 a1 a2 a3 => Sys2Proof.Machine.execRot a0 a1 a2 a3 s
  | .iand a0 a1 a2 => Sys2Proof.Machine.execIand a0 a1 a2 s
  | .ior a0 a1 a2 => Sys2Proof.Machine.execIor a0 a1 a2 s
  | .ixor a0 a1 a2 => Sys2Proof.Machine.execIxor a0 a1 a2 s
  | .inot a0 a1 => Sys2Proof.Machine.execInot a0 a1 s
  | .bfe a0 a1 a2 a3 => Sys2Proof.Machine.execBfe a0 a1 a2 a3 s
  | .bfi a0 a1 a2 => Sys2Proof.Machine.execBfi a0 a1 a2 s
  | .popc a0 a1 => Sys2Proof.Machine.execPopc a0 a1 s
  | .clz a0 a1 => Sys2Proof.Machine.execClz a0 a1 s
  | .brev a0 a1 => Sys2Proof.Machine.execBrev a0 a1 s
  | .lea a0 a1 a2 => Sys2Proof.Machine.execLea a0 a1 a2 s
  | .icmp a0 a1 a2 a3 a4 => Sys2Proof.Machine.execIcmp a0 a1 a2 a3 a4 s
  | .isel a0 a1 a2 a3 a4 => Sys2Proof.Machine.execIsel a0 a1 a2 a3 a4 s
  | .idot4 a0 a1 a2 a3 => Sys2Proof.Machine.execIdot4 a0 a1 a2 a3 s
  | .pand a0 a1 a2 a3 => Sys2Proof.Machine.execPand a0 a1 a2 a3 s
  | .por a0 a1 a2 a3 => Sys2Proof.Machine.execPor a0 a1 a2 a3 s
  | .pnot a0 a1 => Sys2Proof.Machine.execPnot a0 a1 s
  | .fadd a0 a1 a2 a3 => Sys2Proof.Machine.execFadd a0 a1 a2 a3 s
  | .fsub a0 a1 a2 a3 => Sys2Proof.Machine.execFsub a0 a1 a2 a3 s
  | .fmul a0 a1 a2 a3 => Sys2Proof.Machine.execFmul a0 a1 a2 a3 s
  | .fma a0 a1 a2 a3 => Sys2Proof.Machine.execFma a0 a1 a2 a3 s
  | .fmin a0 a1 a2 => Sys2Proof.Machine.execFmin a0 a1 a2 s
  | .fmax a0 a1 a2 => Sys2Proof.Machine.execFmax a0 a1 a2 s
  | .fcmp a0 a1 a2 a3 => Sys2Proof.Machine.execFcmp a0 a1 a2 a3 s
  | .fsel a0 a1 a2 a3 a4 => Sys2Proof.Machine.execFsel a0 a1 a2 a3 a4 s
  | .frcp a0 a1 => Sys2Proof.Machine.execFrcp a0 a1 s
  | .frsq a0 a1 => Sys2Proof.Machine.execFrsq a0 a1 s
  | .fsqrt a0 a1 => Sys2Proof.Machine.execFsqrt a0 a1 s
  | .fexp2 a0 a1 => Sys2Proof.Machine.execFexp2 a0 a1 s
  | .flog2 a0 a1 => Sys2Proof.Machine.execFlog2 a0 a1 s
  | .fsin a0 a1 => Sys2Proof.Machine.execFsin a0 a1 s
  | .fcos a0 a1 => Sys2Proof.Machine.execFcos a0 a1 s
  | .ffrc a0 a1 => Sys2Proof.Machine.execFfrc a0 a1 s
  | .frnd a0 a1 a2 => Sys2Proof.Machine.execFrnd a0 a1 a2 s
  | .hadd2 a0 a1 a2 a3 => Sys2Proof.Machine.execHadd2 a0 a1 a2 a3 s
  | .hmul2 a0 a1 a2 a3 => Sys2Proof.Machine.execHmul2 a0 a1 a2 a3 s
  | .hfma2 a0 a1 a2 a3 => Sys2Proof.Machine.execHfma2 a0 a1 a2 a3 s
  | .hmin2 a0 a1 a2 a3 => Sys2Proof.Machine.execHmin2 a0 a1 a2 a3 s
  | .hmax2 a0 a1 a2 a3 => Sys2Proof.Machine.execHmax2 a0 a1 a2 a3 s
  | .sadd a0 a1 a2 => Sys2Proof.Machine.execSadd a0 a1 a2 s
  | .ssub a0 a1 a2 => Sys2Proof.Machine.execSsub a0 a1 a2 s
  | .smul a0 a1 a2 => Sys2Proof.Machine.execSmul a0 a1 a2 s
  | .sand a0 a1 a2 => Sys2Proof.Machine.execSand a0 a1 a2 s
  | .sor a0 a1 a2 => Sys2Proof.Machine.execSor a0 a1 a2 s
  | .sxor a0 a1 a2 => Sys2Proof.Machine.execSxor a0 a1 a2 s
  | .sshl a0 a1 a2 => Sys2Proof.Machine.execSshl a0 a1 a2 s
  | .sshr a0 a1 a2 a3 => Sys2Proof.Machine.execSshr a0 a1 a2 a3 s
  | .scmp a0 a1 a2 a3 a4 => Sys2Proof.Machine.execScmp a0 a1 a2 a3 a4 s
  | .smov a0 a1 => Sys2Proof.Machine.execSmov a0 a1 s
  | .sli a0 a1 => Sys2Proof.Machine.execSli a0 a1 s
  | .sbra a0 a1 => Sys2Proof.Machine.execSbra a0 a1 s
  | .cvt a0 a1 a2 a3 a4 a5 => Sys2Proof.Machine.execCvt a0 a1 a2 a3 a4 a5 s
  | .mov a0 a1 => Sys2Proof.Machine.execMov a0 a1 s
  | .v2s a0 a1 a2 => Sys2Proof.Machine.execV2s a0 a1 a2 s
  | .s2v a0 a1 => Sys2Proof.Machine.execS2v a0 a1 s
  | .movs a0 a1 => Sys2Proof.Machine.execMovs a0 a1 s
  | .qpack a0 a1 a2 a3 a4 => Sys2Proof.Machine.execQpack a0 a1 a2 a3 a4 s
  | .qunpk a0 a1 a2 => Sys2Proof.Machine.execQunpk a0 a1 a2 s
  | .ld a0 a1 a2 a3 a4 => Sys2Proof.Machine.execLd a0 a1 a2 a3 a4 s
  | .ldB64 a0 a1 a2 a3 a4 => Sys2Proof.Machine.execLdB64 a0 a1 a2 a3 a4 s
  | .ldB128 a0 a1 a2 a3 a4 => Sys2Proof.Machine.execLdB128 a0 a1 a2 a3 a4 s
  | .st a0 a1 a2 a3 a4 => Sys2Proof.Machine.execSt a0 a1 a2 a3 a4 s
  | .stB64 a0 a1 a2 a3 a4 => Sys2Proof.Machine.execStB64 a0 a1 a2 a3 a4 s
  | .stB128 a0 a1 a2 a3 a4 => Sys2Proof.Machine.execStB128 a0 a1 a2 a3 a4 s
  | .ldOrdered a0 a1 a2 a3 a4 a5 => Sys2Proof.Machine.execLdOrdered a0 a1 a2 a3 a4 a5 s
  | .stOrdered a0 a1 a2 a3 a4 a5 => Sys2Proof.Machine.execStOrdered a0 a1 a2 a3 a4 a5 s
  | .atom a0 a1 a2 a3 a4 a5 a6 => Sys2Proof.Machine.execAtom a0 a1 a2 a3 a4 a5 a6 s
  | .atomFadd a0 a1 a2 a3 a4 a5 => Sys2Proof.Machine.execAtomFadd a0 a1 a2 a3 a4 a5 s
  | .red a0 a1 a2 a3 a4 a5 a6 => Sys2Proof.Machine.execRed a0 a1 a2 a3 a4 a5 a6 s
  | .lds a0 a1 a2 a3 => Sys2Proof.Machine.execLds a0 a1 a2 a3 s
  | .sts a0 a1 a2 a3 => Sys2Proof.Machine.execSts a0 a1 a2 a3 s
  | .ldx a0 a1 a2 a3 => Sys2Proof.Machine.execLdx a0 a1 a2 a3 s
  | .stx a0 a1 a2 a3 => Sys2Proof.Machine.execStx a0 a1 a2 a3 s
  | .stashMap a0 a1 a2 => Sys2Proof.Machine.execStashMap a0 a1 a2 s
  | .stashMapUnmap a0 => Sys2Proof.Machine.execStashMapUnmap a0 s
  | .stashFlush a0 => Sys2Proof.Machine.execStashFlush a0 s
  | .stashInv a0 => Sys2Proof.Machine.execStashInv a0 s
  | .pref a0 a1 => Sys2Proof.Machine.execPref a0 a1 s
  | .lcopy a0 a1 a2 a3 a4 => Sys2Proof.Machine.execLcopy a0 a1 a2 a3 a4 s
  | .tcopy a0 a1 a2 a3 a4 a5 => Sys2Proof.Machine.execTcopy a0 a1 a2 a3 a4 a5 s
  | .ctrAdd a0 a1 a2 => Sys2Proof.Machine.execCtrAdd a0 a1 a2 s
  | .ctrWait a0 a1 a2 => Sys2Proof.Machine.execCtrWait a0 a1 a2 s
  | .pbInit a0 a1 => Sys2Proof.Machine.execPbInit a0 a1 s
  | .pbArrive a0 a1 => Sys2Proof.Machine.execPbArrive a0 a1 s
  | .pbArriveN a0 a1 a2 => Sys2Proof.Machine.execPbArriveN a0 a1 a2 s
  | .pbExpect a0 a1 => Sys2Proof.Machine.execPbExpect a0 a1 s
  | .pbWait a0 a1 a2 => Sys2Proof.Machine.execPbWait a0 a1 a2 s
  | .pbInval a0 => Sys2Proof.Machine.execPbInval a0 s
  | .waitcmp a0 a1 a2 a3 => Sys2Proof.Machine.execWaitcmp a0 a1 a2 a3 s
  | .wake a0 a1 => Sys2Proof.Machine.execWake a0 a1 s
  | .fence a0 a1 => Sys2Proof.Machine.execFence a0 a1 s
  | .xfence a0 a1 => Sys2Proof.Machine.execXfence a0 a1 s
  | .tfence a0 => Sys2Proof.Machine.execTfence a0 s
  | .talloc a0 a1 a2 => Sys2Proof.Machine.execTalloc a0 a1 a2 s
  | .tseal a0 => Sys2Proof.Machine.execTseal a0 s
  | .tclaim a0 => Sys2Proof.Machine.execTclaim a0 s
  | .tclaimEach a0 => Sys2Proof.Machine.execTclaimEach a0 s
  | .tread a0 a1 a2 a3 => Sys2Proof.Machine.execTread a0 a1 a2 a3 s
  | .treadStash a0 a1 a2 => Sys2Proof.Machine.execTreadStash a0 a1 a2 s
  | .tpeek a0 a1 a2 a3 => Sys2Proof.Machine.execTpeek a0 a1 a2 a3 s
  | .tpeekStash a0 a1 a2 => Sys2Proof.Machine.execTpeekStash a0 a1 a2 s
  | .tdrop a0 => Sys2Proof.Machine.execTdrop a0 s
  | .tstatInfo a0 a1 => Sys2Proof.Machine.execTstatInfo a0 a1 s
  | .tstatAddr a0 a1 => Sys2Proof.Machine.execTstatAddr a0 a1 s
  | .tstatGet a0 a1 => Sys2Proof.Machine.execTstatGet a0 a1 s
  | .tstatPut a0 a1 => Sys2Proof.Machine.execTstatPut a0 a1 s
  | .tstatPart a0 a1 => Sys2Proof.Machine.execTstatPart a0 a1 s
  | .link a0 a1 => Sys2Proof.Machine.execLink a0 a1 s
  | .unlink => Sys2Proof.Machine.execUnlink s
  | .pair a0 => Sys2Proof.Machine.execPair a0 s
  | .tmma a0 a1 a2 a3 a4 => Sys2Proof.Machine.execTmma a0 a1 a2 a3 a4 s
  | .tmmaQ a0 a1 a2 a3 a4 => Sys2Proof.Machine.execTmmaQ a0 a1 a2 a3 a4 s
  | .accLd a0 a1 a2 => Sys2Proof.Machine.execAccLd a0 a1 a2 s
  | .accMov a0 a1 a2 => Sys2Proof.Machine.execAccMov a0 a1 a2 s
  | .accMovRaw a0 a1 a2 => Sys2Proof.Machine.execAccMovRaw a0 a1 a2 s
  | .accMovTile a0 a1 a2 => Sys2Proof.Machine.execAccMovTile a0 a1 a2 s
  | .accZero a0 a1 => Sys2Proof.Machine.execAccZero a0 a1 s
  | .fmtset a0 a1 a2 => Sys2Proof.Machine.execFmtset a0 a1 a2 s
  | .fmtsetGet a0 a1 a2 => Sys2Proof.Machine.execFmtsetGet a0 a1 a2 s
  | .fmtsetLd a0 a1 => Sys2Proof.Machine.execFmtsetLd a0 a1 s
  | .fmtsetSt a0 a1 => Sys2Proof.Machine.execFmtsetSt a0 a1 s
  | .scaleObs a0 a1 a2 => Sys2Proof.Machine.execScaleObs a0 a1 a2 s
  | .scaleNext a0 => Sys2Proof.Machine.execScaleNext a0 s
  | .leashTake => Sys2Proof.Machine.execLeashTake s
  | .leashPass => Sys2Proof.Machine.execLeashPass s
  | .burst a0 => Sys2Proof.Machine.execBurst a0 s
  | .rbox a0 a1 a2 => Sys2Proof.Machine.execRbox a0 a1 a2 s
  | .texSmp a0 a1 a2 => Sys2Proof.Machine.execTexSmp a0 a1 a2 s
  | .texLoad a0 a1 a2 => Sys2Proof.Machine.execTexLoad a0 a1 a2 s
  | .texGather a0 a1 a2 => Sys2Proof.Machine.execTexGather a0 a1 a2 s
  | .cover a0 a1 a2 => Sys2Proof.Machine.execCover a0 a1 a2 s
  | .rtst a0 a1 a2 => Sys2Proof.Machine.execRtst a0 a1 a2 s
  | .rtclr a0 => Sys2Proof.Machine.execRtclr a0 s
  | .rtdc a0 => Sys2Proof.Machine.execRtdc a0 s
  | .csrr a0 a1 => Sys2Proof.Machine.execCsrr a0 a1 s
  | .csrw a0 a1 => Sys2Proof.Machine.execCsrw a0 a1 s
  | .eret => Sys2Proof.Machine.execEret s
  | .tlbi a0 a1 => Sys2Proof.Machine.execTlbi a0 a1 s
  | .snap a0 => Sys2Proof.Machine.execSnap a0 s
  | .sleep a0 => Sys2Proof.Machine.execSleep a0 s
  | .lit a0 => Sys2Proof.Machine.execLit a0 s
  | .illegalEncoding a0 => Sys2Proof.Machine.execIllegalEncoding a0 s
  | .yieldHoldExpiry a0 => Sys2Proof.Machine.execYieldHoldExpiry a0 s
  | .tileAutoSeal a0 => Sys2Proof.Machine.execTileAutoSeal a0 s
  | .teamEndRelease a0 => Sys2Proof.Machine.execTeamEndRelease a0 s
  | .taskRequeue a0 => Sys2Proof.Machine.execTaskRequeue a0 s
  | .launch => Sys2Proof.Machine.execLaunch s
  | .teamPlacement a0 => Sys2Proof.Machine.execTeamPlacement a0 s
  | .taskGroupForm a0 => Sys2Proof.Machine.execTaskGroupForm a0 s
  | .batchTimeout a0 a1 => Sys2Proof.Machine.execBatchTimeout a0 a1 s
  | .batchLaunch a0 a1 => Sys2Proof.Machine.execBatchLaunch a0 a1 s
  | .dependantLaunch => Sys2Proof.Machine.execDependantLaunch s
  | .gridRetire a0 => Sys2Proof.Machine.execGridRetire a0 s
  | .eviction a0 => Sys2Proof.Machine.execEviction a0 s
  | .relaunch a0 => Sys2Proof.Machine.execRelaunch a0 s
  | .preemptRequest => Sys2Proof.Machine.execPreemptRequest s
  | .forcedSafePoint a0 => Sys2Proof.Machine.execForcedSafePoint a0 s
  | .copyCancel a0 => Sys2Proof.Machine.execCopyCancel a0 s
  | .teamSave a0 => Sys2Proof.Machine.execTeamSave a0 s
  | .teamRestore a0 => Sys2Proof.Machine.execTeamRestore a0 s
  | .kennelDetectorFire a0 a1 a2 a3 => Sys2Proof.Machine.execKennelDetectorFire a0 a1 a2 a3 s
  | .tallocGrant a0 => Sys2Proof.Machine.execTallocGrant a0 s
  | .rsvGrant a0 => Sys2Proof.Machine.execRsvGrant a0 s
  | .spawnGrant a0 => Sys2Proof.Machine.execSpawnGrant a0 s
  | .linkGrant a0 a1 => Sys2Proof.Machine.execLinkGrant a0 a1 s
  | .pairMatch a0 a1 => Sys2Proof.Machine.execPairMatch a0 a1 s
  | .stepStart a0 a1 => Sys2Proof.Machine.execStepStart a0 a1 s
  | .stepCommit a0 a1 => Sys2Proof.Machine.execStepCommit a0 a1 s
  | .stepFault a0 => Sys2Proof.Machine.execStepFault a0 s
  | .rboxPassComplete a0 a1 => Sys2Proof.Machine.execRboxPassComplete a0 a1 s
  | .rampUpEnd a0 a1 => Sys2Proof.Machine.execRampUpEnd a0 a1 s
  | .rampDownStart a0 a1 => Sys2Proof.Machine.execRampDownStart a0 a1 s
  | .burstExpiry a0 a1 => Sys2Proof.Machine.execBurstExpiry a0 a1 s
  | .rampDownEnd a0 a1 => Sys2Proof.Machine.execRampDownEnd a0 a1 s
  | .sleepTimeout a0 a1 => Sys2Proof.Machine.execSleepTimeout a0 a1 s
  | .userInterruptDelivery a0 => Sys2Proof.Machine.execUserInterruptDelivery a0 s
  | .copyErrorDelivery a0 => Sys2Proof.Machine.execCopyErrorDelivery a0 s
  | .copyChunkCounted a0 a1 => Sys2Proof.Machine.execCopyChunkCounted a0 a1 s
  | .stashLineFill a0 a1 a2 => Sys2Proof.Machine.execStashLineFill a0 a1 a2 s
  | .ownershipRegistration a0 a1 => Sys2Proof.Machine.execOwnershipRegistration a0 a1 s
  | .recall a0 a1 => Sys2Proof.Machine.execRecall a0 a1 s
  | .forwardedRead a0 a1 => Sys2Proof.Machine.execForwardedRead a0 a1 s
  | .readMiss a0 a1 => Sys2Proof.Machine.execReadMiss a0 a1 s
  | .sectorWriteBack a0 a1 => Sys2Proof.Machine.execSectorWriteBack a0 a1 s
  | .l1Eviction a0 a1 => Sys2Proof.Machine.execL1Eviction a0 a1 s
  | .hostRead a0 a1 => Sys2Proof.Machine.execHostRead a0 a1 s
  | .hostWrite a0 a1 => Sys2Proof.Machine.execHostWrite a0 a1 s
  | .notifyEvaluate a0 => Sys2Proof.Machine.execNotifyEvaluate a0 s
  | .waitcmpPoll a0 a1 => Sys2Proof.Machine.execWaitcmpPoll a0 a1 s
  | .prqHeadPoll a0 => Sys2Proof.Machine.execPrqHeadPoll a0 s
  | .pageRequestResolved a0 => Sys2Proof.Machine.execPageRequestResolved a0 s
  | .peatFillStart => Sys2Proof.Machine.execPeatFillStart s
  | .peatFillComplete a0 a1 a2 => Sys2Proof.Machine.execPeatFillComplete a0 a1 a2 s
  | .doorbellWrite a0 a1 a2 => Sys2Proof.Machine.execDoorbellWrite a0 a1 a2 s
  | .packetRead => Sys2Proof.Machine.execPacketRead s
  | .dresWrite a0 => Sys2Proof.Machine.execDresWrite a0 s
  | .registerWrite a0 a1 a2 => Sys2Proof.Machine.execRegisterWrite a0 a1 a2 s
  | .warmRestart => Sys2Proof.Machine.execWarmRestart s
  | .hotReset => Sys2Proof.Machine.execHotReset s
  | .kcfg => Sys2Proof.Machine.execKcfg s
  | .mcfg => Sys2Proof.Machine.execMcfg s
  | .qopen => Sys2Proof.Machine.execQopen s
  | .qclose => Sys2Proof.Machine.execQclose s
  | .revoke => Sys2Proof.Machine.execRevoke s
  | .inval => Sys2Proof.Machine.execInval s
  | .uipost => Sys2Proof.Machine.execUipost s
  | .preempt => Sys2Proof.Machine.execPreempt s
  | .teardown => Sys2Proof.Machine.execTeardown s
  | .iogrant => Sys2Proof.Machine.execIogrant s
  | .unknownCommand a0 => Sys2Proof.Machine.execUnknownCommand a0 s
  | .cmdstRead => Sys2Proof.Machine.execCmdstRead s
  | .hostWaitPost a0 => Sys2Proof.Machine.execHostWaitPost a0 s
  | .carve => Sys2Proof.Machine.execCarve s
  | .uncarve => Sys2Proof.Machine.execUncarve s
  | .confkey => Sys2Proof.Machine.execConfkey s
  | .copyin => Sys2Proof.Machine.execCopyin s
  | .copyout => Sys2Proof.Machine.execCopyout s
  | .attest => Sys2Proof.Machine.execAttest s
  | .unknownServiceRequest => Sys2Proof.Machine.execUnknownServiceRequest s
  | .fatalFault => Sys2Proof.Machine.execFatalFault s
  | .lockstepMismatch => Sys2Proof.Machine.execLockstepMismatch s
  | .pwrTargetRun a0 => Sys2Proof.Machine.execPwrTargetRun a0 s
  | .pwrTargetListen a0 => Sys2Proof.Machine.execPwrTargetListen a0 s
  | .pwrTargetRetain a0 => Sys2Proof.Machine.execPwrTargetRetain a0 s
  | .pwrEnvelope a0 => Sys2Proof.Machine.execPwrEnvelope a0 s
  | .powerTransitionDone => Sys2Proof.Machine.execPowerTransitionDone s
  | .listenWake => Sys2Proof.Machine.execListenWake s
  | .channelSelfRefresh a0 => Sys2Proof.Machine.execChannelSelfRefresh a0 s
  | .thermalThrottle => Sys2Proof.Machine.execThermalThrottle s
  | .thermalShutdown => Sys2Proof.Machine.execThermalShutdown s
  | .coreClockStop a0 => Sys2Proof.Machine.execCoreClockStop a0 s
  | .coreClockRestart a0 => Sys2Proof.Machine.execCoreClockRestart a0 s
  | .coldReset => Sys2Proof.Machine.execColdReset s
  | .snaptrigWrite a0 => Sys2Proof.Machine.execSnaptrigWrite a0 s
  | .snapinPin => Sys2Proof.Machine.execSnapinPin s
  | .snapstWrite a0 => Sys2Proof.Machine.execSnapstWrite a0 s
  | .sdoorWriteDiscard => Sys2Proof.Machine.execSdoorWriteDiscard s
  | .kennelRemoteOperation a0 => Sys2Proof.Machine.execKennelRemoteOperation a0 s
  | .remoteStashAccess a0 => Sys2Proof.Machine.execRemoteStashAccess a0 s
  | .commandCompletion => Sys2Proof.Machine.execCommandCompletion s
  | .serviceRequestCompletion => Sys2Proof.Machine.execServiceRequestCompletion s
  | .warmRestartEnd => Sys2Proof.Machine.execWarmRestartEnd s
  | .recoveryEnd => Sys2Proof.Machine.execRecoveryEnd s
  | .classDBudgetExhausted a0 => Sys2Proof.Machine.execClassDBudgetExhausted a0 s

end Sys2Proof.Machine
end

