-- ==== Sys2Proof/Machine/Next.lean ====
section
/-! DEFINITION. What the next step does: the passing of a clock, with what the part counts in it (R261, R331); soft errors
(R354, R464) and host atomics (R288), which come from outside; and the choice of a word, with the second issue slot of a
partition (R262). -/

namespace Sys2Proof.Machine

/-! ## The clock -/

/-- The cores on which a grid's teams stand. -/
def State.coresOf (s : State) (id : Nat) : List Nat :=
  ((s.teams.filter (fun e => e.2.grid == id && e.2.life == .resident)).map (fun e => e.2.core)).dedup

/-- The core time of n clocks is charged to the grids of class D (R261): every clock of each core on which a team of the grid
is resident, in full (log 178). -/
def State.charge (s : State) (n : Nat) : SMap Grid :=
  if s.grids.any (fun e => e.2.lpb.cls == 0) then
    s.grids.map (fun e => (e.1, if e.2.lpb.cls = 0 then { e.2 with used := e.2.used + n * (s.coresOf e.1).length } else e.2))
  else s.grids

/-- The groups whose next words have become issuable, each marked with the clock (R262). -/
def State.readied (s : State) : SMap Group :=
  s.groups.map (fun e =>
    let can := s.candidate e.2 && !e.2.yields s.clock
    (e.1, { e.2 with ready := can, since := if can && !e.2.ready then s.clock else e.2.since }))

/-- A step takes a clock, and as many more as the part takes (log 3); the detectors see the state before it. No
access is class D's until one says so (R260). Bring-up goes on (R473). -/
def State.tock (s : State) : State :=
  let n := 1 + Config.freeTicks s.tick
  let s := { s with
    tick := s.tick + 1, clock := s.clock + n, second := none, detectors := s.observe.detectors, grids := s.charge n,
    mem := { s.mem with slcD := false }, host := s.bringStep.host, svc := s.bringStep.svc, pwr := s.bringStep.pwr }
  { s with groups := s.readied }

/-! ## Soft errors and host atomics -/

/-- An uncorrectable error is counted (R464). -/
def State.uncorrected (s : State) : State := { s with svc := { s.svc with uecnt := min (s.svc.uecnt + 1) (2 ^ 32 - 1) } }

/-- A word of 8 bytes is poisoned until it is written. -/
def poison (l : List Nat) (w : Nat) : List Nat := if l.contains w then l else l ++ [w]

/-- A block of a group's linked tile, or its slab area, is damaged (R354). -/
def State.damageTile (s : State) (g b : Nat) : State :=
  s.modGroup g (fun g => { g with tile := g.tile.map (fun t => { t with bad := poison t.bad b }) })

/-- A clean line of a core's L1 is dropped (R464). -/
def MemSys.dropClean (m : MemSys) (c line : Nat) : MemSys :=
  { m with l1 := m.l1.filter (fun e => !(e.1 / 2 ^ 46 == c && e.1 % 2 ^ 46 / 64 == line && !e.2.owned)) }

/-- A soft error strikes (R354, R464; log 148). One in the VRF has no address (R363). -/
def State.strike (s : State) : SoftError → State
  | .registers g =>
    (s.modGroup g (fun g => { g with trap := { g.trap with pendSoft := some (g.trap.pendSoft.getD 0xFFFFFFFF) } })).uncorrected
  | .block g b => (s.damageTile g b).uncorrected
  | .slab g => (s.damageTile g slabArea).uncorrected
  | .memory w => { s with mem := { s.mem with poison := poison s.mem.poison w } }.uncorrected
  | .stash t w => (s.modTeam t (fun t => { t with poison := poison t.poison w })).uncorrected
  | .tile c k w =>
    (match s.kennel.tileAt c k with
      | some t => { s with kennel := s.kennel.setTile { t with poison := poison t.poison w } }
      | none => s).uncorrected
  | .clean c w => { s with mem := s.mem.dropClean c (w / 64) }.uncorrected
  | .decode k => { s with decodes := s.decodes.eraseIdx k }.uncorrected
  | .texel k => { s with texels := s.texels.eraseIdx k }.uncorrected
  | .bbt g =>
    (match SMap.find s.groups g with
      | some h => if h.live = 0 then s else s.doubleTrap g h.lowest 0x15
      | none => s).uncorrected
  | .corrected c =>
    let n := SMap.getD s.snap.counters (c * 64 + 21) 0
    { s with
      svc := { s.svc with cecnt := min (s.svc.cecnt + 1) (2 ^ 32 - 1) }
      snap := { s.snap with counters := SMap.put s.snap.counters (c * 64 + 21) ((n + 1) % 2 ^ 32) } }

/-- An atomic of a host core on a word, at the SLC (R288, R456): the operations are those of ATOM. A notifying write (R160);
the host takes the old value. -/
def State.hostAtomic (s : State) (pa op : Nat) (b b2 : Word) : State :=
  if pa % 4 != 0 || 2 ^ 48 ≤ pa || s.pwr.state == .retain then s
  else if s.svc.covers pa 4 then s.violate
  else
    let s := s.wakeChannel pa
    let (m, old) := s.mem.atomicSys (pa / 4) (atomNew false op b b2)
    (({ s with mem := m.note (pa / 256) }).hostHolds pa 4).answer (wordBytes4 old)

/-! ## The choice of a word -/

/-- The lines that a core's L1 holds beside those of its windows, and the L1 within its size: the lowest lines beyond it are
evicted before the core's next word (R3, R280; log 140). -/
def State.l1Held (s : State) (c : Nat) : List Nat := (s.mem.linesOf c).filter (fun l => !s.inWindow c l)
def State.fitL1 (s : State) (c : Nat) : State :=
  let l := s.l1Held c
  if l.length ≤ l1Lines then s
  else { s with mem := (l.take (l.length - l1Lines)).foldl (fun (m : MemSys) x => m.evictLine c x) s.mem }

/-- The turn of a group that a partition has chosen in a state, as the step begins in t. -/
def State.takeTurn (s t : State) (id : Nat) (g : Group) (first : Bool) : Turn :=
  ((t.taking s id g first).fitL1 g.core).turn id (g.unheld s.clock)

/-- A word in the second slot of the clock that has just issued a first one (R262), or the first of the next clock. -/
def State.chooseWord (s : State) (only : Option Nat) (agenda : List Act) : Turn :=
  let is := fun (e : Nat × Group) => only.all (fun id => id == e.1)
  match s.chooseSecond.filter is with
  | some (id, g) => s.takeTurn { s with agenda := agenda, tick := s.tick + 1, second := none } id g false
  | none =>
    let t := { s.tock with agenda := agenda }
    match (match only with
      | some id => (SMap.find s.groups id).bind (fun g => (s.chooseIn g.slotKey).filter is)
      | none => s.choose) with
    | some (id, g) => s.takeTurn t id g true
    | none => .over t

/-- The render-target word in flight that arrives before anything else, if one does (R218; log 144). -/
def State.arrival (s : State) : Option Nat :=
  if s.targets.isEmpty then none else (Config.targetArrives s.tick).map (fun k => k % s.targets.length)

/-- The next thing to do: what the agenda names, else an arrival at a slice, else the choice of R262. -/
def State.next (s : State) : Turn :=
  match s.agenda with
  | [] => (match s.arrival with
    | some k => .over (s.tock.arriveTarget k)
    | none => s.chooseWord none [])
  | .issue id :: r => s.chooseWord (some id) r
  | .event i :: r => if i.isWord then .over { s.tock with agenda := r } else .word { s.tock with agenda := r } i
  | .error e :: r => .over ({ s.tock with agenda := r }.strike e)
  | .hostAtomic pa op b b2 :: r => .over ({ s.tock with agenda := r }.hostAtomic pa op b b2)
  | .target k :: r => .over ({ s.tock with agenda := r }.arriveTarget k)

end Sys2Proof.Machine
end

