-- ==== Sys2Proof/Machine/Step.lean ====
section
/-! DEFINITION. One step of the part: the next event, or one word of one group (log 1); and the state in
which a given word is the next to run. -/

namespace Sys2Proof.Machine

/-- One step. A part that is Off or stopped does nothing until a cold reset. -/
def step (s : State) : Host.Outcome State Fault Refusal :=
  if s.dead && s.agenda.head? != some (.event .coldReset) then .fault .partStopped
  else
    match s.next with
    | .word t i => exec i t
    | .over t => .next t

/-- The state with a 32-bit word as the next to fetch and run (log 18). -/
def State.withFetchWord (s : State) (nbits w : Nat) : State := s.place (w % 2 ^ nbits)

end Sys2Proof.Machine
end

