-- ==== Sys2Proof/Safety.lean ====
section
/-! DEFINITION. The terms that claims use: a step that goes on, the canonical memory of the part, a word being
issued, and what a word leaves unchanged: `passed` says that the next state is a given one but for the registers
and the place of the issuing group. -/

namespace Sys2Proof.Machine

/-- A step goes on. -/
def goesOn (s : State) : Prop := ∃ t, step s = .next t

/-- The memory of the part, of its tiles and of its teams keeps the canonical form. -/
def State.memOk (s : State) : Bool :=
  Memory.wf s.mem.cells && s.kennel.tiles.all (fun t => Memory.wf t.bytes) && s.teams.all (fun e => Memory.wf e.2.tls)

/-- The word c of group g is being issued. -/
def State.issuing (s : State) (c : Cur) (g : Group) : Prop := s.cur = some c ∧ SMap.find s.groups c.gid = some g

/-- Thread t is in the issue set of the word. -/
def Cur.runs (c : Cur) (g : Group) (t : Nat) : Bool := decide (t < g.width) && c.map.getLsbD t

/-- Group h is g with registers r, at another place: only its blocks and entries, SAFECNT, whether and since when its next
word is issuable, the ages of withdrawn requests and a request for its blocks may differ beside them. -/
def Group.stepped (g : Group) (r : Regs) (h : Group) : Prop :=
  h = { g with
    regs := r, bbt := h.bbt, blk := h.blk, since := h.since, ready := h.ready, firsts := h.firsts, blockAsk := h.blockAsk,
    trap := { g.trap with safecnt := h.trap.safecnt } }

/-- State t is u but for the registers, now r, and the place of the issuing group g, and the counters of words
issued (R476): every other group, and every other field, of u stands. -/
def State.passed (u : State) (c : Cur) (g : Group) (r : Regs) (t : State) : Prop :=
  ∃ h k, g.stepped r h ∧
    t = { u with groups := SMap.put u.groups c.gid h, cur := none, snap := { u.snap with counters := k } }

/-- r is q but for vD in the threads of `l`, where it is f. -/
def Regs.onlyV (q : Regs) (d : Nat) (l : Nat → Bool) (f : Nat → Word) (r : Regs) : Prop :=
  (∀ t n, n < 64 → r.getV t n = if n = d ∧ l t = true then f t else q.getV t n) ∧ r = { q with v := r.v }

/-- The same with status bits, which %fstat gains. -/
def Regs.onlyStat (q : Regs) (d : Nat) (l : Nat → Bool) (width : Nat) (f : Nat → Word × Stat) (r : Regs) : Prop :=
  (∀ t n, n < 64 → r.getV t n = if n = d ∧ l t = true then (f t).1 else q.getV t n)
  ∧ (∀ b, r.fstat.getLsbD b =
      (q.fstat.getLsbD b || (decide (b < 6) && (List.range width).any (fun t => l t && (f t).2.getLsbD b))))
  ∧ r = { q with v := r.v, fstat := r.fstat }

/-- r is q but for the pairs vD:vD+1 in the threads of `l`. -/
def Regs.onlyPair (q : Regs) (d : Nat) (l : Nat → Bool) (f : Nat → DWord) (r : Regs) : Prop :=
  (∀ t n, n < 64 → r.getV t n =
    if n = d ∧ l t = true then lowWord (f t) else if n = d + 1 ∧ l t = true then highWord (f t) else q.getV t n)
  ∧ r = { q with v := r.v }

/-- r is q but for the registers from vD on in the threads of `l`, k of them in each. -/
def Regs.onlyRun (q : Regs) (d k : Nat) (l : Nat → Bool) (f : Nat → Nat → Word) (r : Regs) : Prop :=
  (∀ t n, n < 64 → r.getV t n = if d ≤ n ∧ n < d + k ∧ l t = true then f t (n - d) else q.getV t n)
  ∧ r = { q with v := r.v }

/-- r is q but for sD. -/
def Regs.onlyS (q : Regs) (d : Nat) (w : Word) (r : Regs) : Prop :=
  (∀ n, r.getS n = if n = d then w else q.getS n) ∧ r = { q with s := r.s }

/-- r is q but for pD in the threads of `l`, over the lanes of the group; a write to p0 is discarded (R11). -/
def Regs.onlyP (q : Regs) (d : Nat) (l : Nat → Bool) (width : Nat) (f : Nat → Bool) (r : Regs) : Prop :=
  (∀ n t, t < width → (r.getP n).getLsbD t = if n = d ∧ d ≠ 0 ∧ l t = true then f t else (q.getP n).getLsbD t)
  ∧ r = { q with p := r.p }

/-- A word passes and leaves registers r, everything else of s standing. -/
def leaves (i : Instr) (s : State) (c : Cur) (g : Group) (p : Regs → Prop) : Prop :=
  ∃ t r, exec i s = .next t ∧ s.passed c g r t ∧ p r

/-- Thread t stands in an entry of the group's table at a place and in a wait. -/
def Group.stands (g : Group) (t pc slot : Nat) (w : BbtWait) : Prop :=
  ∃ e ∈ g.bbt, e.map.getLsbD t = true ∧ e.pc = pc ∧ e.slot = slot ∧ e.wait = w

/-- The table stands in order (R236, R237): by place, with one entry for each place and wait. -/
def Group.tableOrder (g : Group) : Prop :=
  (∀ e ∈ g.bbt, e.slot < 3) ∧ g.bbt.Pairwise (fun e f => e.key < f.key ∨ (e.key = f.key ∧ e.wait ≠ f.wait))

/-- Thread t has parked outside the table at a place, for a reason. -/
def Group.waits (g : Group) (t pc slot : Nat) (w : Park) : Prop :=
  ∃ p ∈ g.parked, p.map.getLsbD t = true ∧ p.pc = pc ∧ p.slot = slot ∧ p.why = w

/-- A word passes, and leaves the issuing group as `p` says, everything else of u standing. -/
def movesFrom (u : State) (i : Instr) (s : State) (c : Cur) (g : Group) (p : Group → Prop) : Prop :=
  ∃ t h, exec i s = .next t ∧ u.passed c g h.regs t ∧ SMap.find t.groups c.gid = some h ∧ p h

/-- The same, everything else of s standing. -/
def moves (i : Instr) (s : State) (c : Cur) (g : Group) (p : Group → Prop) : Prop := movesFrom s i s c g p

/-- A word answers a next state in which its group stands and `p` holds of the state and the group. -/
def becomes (i : Instr) (s : State) (id : Nat) (p : State → Group → Prop) : Prop :=
  ∃ t h, exec i s = .next t ∧ SMap.find t.groups id = some h ∧ p t h

/-- The word stops with a cause in the threads of a map (R364): the state is that of the stop. -/
def raises (i : Instr) (s : State) (c : Cur) (cause : Nat) (m : Lanes) : Prop :=
  ∃ a, exec i s = .next (s.stopAt c (.trap ⟨cause, m, a⟩))

/-- Word i of what a lane's access reads at a spot, with the lane's own tentative bytes over it (R95, R243). -/
def State.sees (s : State) (g : Group) (l : Nat) (p : Spot) (i : Nat) : Word :=
  g.merged l (s.keyOf (p.plus i)) (match p.plus i with
    | .mem pa => if s.windowed g.core g.team (pa / 256) then s.mem.readWord (pa / 4) else s.mem.coreWord g.core (pa / 4)
    | .tile c k o => ((s.kennel.tileAt c k).map (fun t => Memory.word t.bytes o)).getD 0
    | _ => 0)

/-- No ownership registration of a word's sector is in flight. -/
def MemSys.quiet (m : MemSys) (w : Nat) : Prop := ∀ e ∈ m.regq, e.2 / 32 ≠ w / 32

/-- The keys of a table rise. -/
def SMap.rises {α : Type} (m : SMap α) : Prop := m.Pairwise (fun a b => a.1 < b.1)

/-- The memory's cells are canonical, the tables of the hierarchy that hold words are in order, only words of the
physical address space have owners, every sector of a slice has its 32 words, and a clean one holds what the SLC holds (R280). -/
def MemSys.risen (m : MemSys) : Prop :=
  Memory.wf m.cells = true ∧ SMap.rises m.l1 ∧ SMap.rises m.l2 ∧ SMap.rises m.registry ∧ (∀ e ∈ m.registry, e.1 < 2 ^ 46) ∧
  ∀ e ∈ m.l2, e.2.data.length = 32 ∧ (e.2.dirty = false → e.2.data = m.slcSector e.1)

/-- A line stands in the SLC, or its set has a way for it; a sector stands in its slice, or slice and SLC have room for it: no
other line or sector gives way (R280). -/
def MemSys.slcRoom (m : MemSys) (line : Nat) : Prop := (SMap.find m.slc line).isSome = true ∨ (m.slcPool line).length < m.slcCap
def MemSys.roomFor (m : MemSys) (x : Nat) : Prop :=
  (SMap.find m.l2 x).isSome = true ∨
    ((m.l2.filter (fun e => l2Slice (e.1 / 2) == l2Slice (x / 2))).length < 2 * l2Lines ∧ m.slcRoom (x / 2))

/-- A byte of a word with an ownership registration in flight: what a read answers there may settle it (R281). -/
def MemSys.inFlight (m : MemSys) (b : Nat) : Prop := ∃ e ∈ m.regq, e.2 = b / 4

/-- Of a word, no other core than c has a registration in flight. -/
def MemSys.ownOnly (m : MemSys) (c w : Nat) : Prop := ∀ e ∈ m.regq, e.2 = w → e.1 = c

/-- The lanes of a word's issue set whose guard is true. -/
def Cur.on (c : Cur) (g : Group) (p t : Nat) : Bool := c.runs g t && (g.regs.getP p).getLsbD t
def Cur.onMap (c : Cur) (g : Group) (p : Nat) : Lanes := c.map &&& g.regs.getP p &&& Lanes.below g.width

/-- Every guarded lane's access reaches memory at an aligned physical address. -/
def State.lanesReach (s : State) (c : Cur) (g : Group) (p : Nat) (acc : Access) (atomic : Bool) (size : Nat)
    (addr pa : Nat → Nat) : Prop :=
  ∀ t, c.on g p t = true → s.spot g (addr t) size acc atomic = .mem (pa t) ∧ pa t % 4 = 0 ∧ pa t + size ≤ 2 ^ 48

/-- Every byte but those of `out` reads at the slices, their owners answering, as before; and on path L of every core as before,
or, where the core's copy has given way, as the slices answer it: a reply to a miss fills a whole sector over copies that the
core does not own, and a line that leaves the SLC takes owned words back with their values (R280, R281, R284). -/
def MemSys.sameBytes (m n : MemSys) (out : Nat → Prop) : Prop :=
  ∀ a, a < 2 ^ 48 → ¬ out a → n.sliceByte a = m.sliceByte a ∧
    ∀ d, n.coreByte d a = m.coreByte d a ∨ n.coreByte d a = m.sliceByte a

/-- What a lane's load may take for word i from a physical address on, where no registration of its sector is in flight: the
word as its core reads it, or as the slice answers it, its owner forwarding, where another lane's access has filled the sector
or evicted the line (R281). -/
def State.takes (s : State) (g : Group) (l pa i : Nat) (v : Word) : Prop :=
  v = s.sees g l (.mem pa) i ∨ v = g.merged l (pa + 4 * i) (s.mem.sliceWord (pa / 4 + i))

/-- No render-target word of a group is in flight: its accesses have none to wait for (R294). -/
def State.noTargets (s : State) (id : Nat) : Prop := ∀ u ∈ s.targets, u.group ≠ id

/-- The threads of the issue set enter the table runnable at the next packet, and no other thread moves. -/
def Group.nextPacket (g : Group) (c : Cur) (h : Group) : Prop :=
  h.blk = none ∧ ∀ t pc slot w, h.stands t pc slot w ↔
    g.stands t pc slot w ∨ (c.map.getLsbD t = true ∧ pc = c.pc + 12 ∧ slot = 0 ∧ w = .runnable)

/-- The issue set parks at its word for a reason, with the age of its first issue. -/
def Group.parksAt (g : Group) (c : Cur) (now : Nat) (w : Park) (h : Group) : Prop :=
  h.blk = none ∧ h.bbt = g.bbt ∧ h.parked = g.parked ++ [⟨c.map, c.pc, c.slot, w, g.firstAge c.map c.pc c.slot now, now⟩]

/-- The level at which a group takes a cause is S (R365). -/
def Group.toSuper (g : Group) (cause : Nat) : Bool :=
  g.trap.mode || g.trap.level == .user || [0x02, 0x14, 0x15].contains cause || g.trap.uhvec == 0xFFFFFFFF

/-- A group without a tile that waits for no frame takes a cause at its level (R365, R368): the handler's base is aligned, and the pages of the
frame and of the context block translate and do not overlap. -/
def State.mayTrap (s : State) (g : Group) (cause : Nat) (ps hs : List Nat) : Prop :=
  g.trap.level ≠ .super ∧ (cause = 0x14 → g.trap.level = .none) ∧ g.frameWait = none ∧ g.tile = none ∧
  g.images.length ≤ 64 ∧ (s.ctx g.ctx).shvec % 256 = 0 ∧
  s.pagesOf g .write (g.trap.gcb + if g.toSuper cause then 0x3000 else 0x1000) 2 = .ok ps ∧
  s.pagesOf g .write g.trap.gcb 1 = .ok hs ∧ (ps ++ hs).Pairwise (fun p q => p + 4096 ≤ q ∨ q + 4096 ≤ p)

/-- Group g has taken a cause: every live thread stands at the handler, the registers stand, and the frame holds the
cause with its threads and address (R365, R371). -/
def State.trapped (s : State) (id : Nat) (g : Group) (cause : Nat) (m : Lanes) (a : Nat) (async : Bool) (ps : List Nat)
    (t : State) : Prop :=
  ∃ h, SMap.find t.groups id = some h ∧ h.regs = g.regs ∧ h.live = g.live ∧ h.parked = [] ∧ h.blk = none ∧
    h.bbt = [⟨g.live, if g.toSuper cause then (s.ctx g.ctx).shvec else g.code + g.trap.uhvec.toNat, 0, .runnable, 0, 0⟩] ∧
    h.trap.mode = g.toSuper cause ∧ h.trap.level = (if g.toSuper cause then .super else .user) ∧
    (let f := headerOf (wordsNat ((t.readPages g.core ps).take 16))
     f.fmap = m ∧ f.faddr = a % 2 ^ 64 ∧ f.cause = cause ∧ f.async = async ∧ f.pmode = g.trap.mode ∧ f.nent = g.images.length)

/-- Each group of `who` whose one wait is a PB.WAIT on a barrier, with a token of `f`, has gone on to the next packet in u with
its predicate set to a truth value in its threads (R156). -/
def State.pbResumes (s u : State) (team off : Nat) (ok : Bool) (f : Word → Prop) (who : Nat → Prop) : Prop :=
  ∀ id g p token d, SMap.find s.groups id = some g → who id → g.parked = [p] → p.why = .pbWait team off token d → f token →
    p.map ≠ 0 → ∃ h, SMap.find u.groups id = some h ∧ h.parked = [] ∧
      g.regs.onlyP d (fun t => p.map.getLsbD t) 64 (fun _ => ok) h.regs ∧
      ∀ t pc slot w, h.stands t pc slot w ↔
        g.stands t pc slot w ∨ (p.map.getLsbD t = true ∧ pc = p.pc + 12 ∧ slot = 0 ∧ w = .runnable)

/-- The k words from w on hold no ownership registration in flight. -/
def MemSys.still (m : MemSys) (w k : Nat) : Prop := ∀ e ∈ m.regq, ¬ (w ≤ e.2 ∧ e.2 < w + k)

/-- Memory in its canonical form and the tables of the hierarchy in order: what every step keeps of them. -/
def State.memTidy (s : State) : Prop := s.memOk = true ∧ s.mem.risen ∧ SMap.rises s.mem.dirty

/-- The tables of the part in order, and what placement and allocation keep: identifiers below the next one, groups of
at most 64 lanes whose context is their grid's, record sizes of whole granules, and tiles that share no slot. -/
structure State.tablesTidy (s : State) : Prop where
  groups : SMap.rises s.groups
  teams : SMap.rises s.teams
  grids : SMap.rises s.grids
  copies : SMap.rises s.copies
  ctxs : SMap.rises s.ctxs
  reqs : SMap.rises s.trans.reqs
  fills : SMap.rises s.stream.fills
  triggers : ∀ e ∈ s.ctxs, SMap.rises e.2.triggers
  windows : ∀ e ∈ s.teams, SMap.rises e.2.windows
  below : (∀ e ∈ s.groups, e.1 < s.nextId ∧ e.2.grid < s.nextId) ∧ ∀ e ∈ s.grids, e.1 < s.nextId
  lanes : (∀ e ∈ s.groups, e.2.width ≤ 64) ∧ ∀ e ∈ s.grids, e.2.lpb.width ≤ 64
  owner : ∀ e ∈ s.groups, ∀ r ∈ s.grids, r.1 = e.2.grid → r.2.ctx = e.2.ctx
  records : ∀ e ∈ s.grids, ∀ d ∈ e.2.nodes, 16 ≤ d.recsz
  requests : ∀ e ∈ s.groups, ∀ p ∈ e.2.parked, ∀ h u r q, p.why = .talloc h u r q → 0 < u
  tiles : (∀ t ∈ s.kennel.tiles, 0 < t.units) ∧ s.kennel.tiles.Pairwise (fun a b =>
    a.core ≠ b.core ∨ a.slot + a.units ≤ b.slot ∨ b.slot + b.units ≤ a.slot)

end Sys2Proof.Machine
end

