-- ==== Sys2Proof/Certificates/Slice0/Obligations.lean ====
section
/-! DEFINITION. The statements for the provers: what the machine and each of its instructions does, from the numbered
rules of the spec. A statement that rests on a choice of the model names the log entry. -/

section ObligationsSlice0

open Sys2Proof Sys2Proof.Machine

/-- O1. In a word being issued, kind 00 supplies vN of each thread, kind 01 sN (R24), a 64-bit operand the pair at N (R28); kind 10 supplies dword N of the constant window, as path L reads it at the bank's base + 256 × CWIDX + 4 N where that address translates to memory, and to a 64-bit operand that dword and the next (R24, R28, R92); and kind 11 with N below 63 an inline integer: N itself below 48, N − 63 from 48 on, sign-extended to the width of a 32-bit and of a 64-bit operand (R25); with N = 63 it supplies the payload of the literal word (zero-extended, as FP32 bits [31:8], or in both halves) and for a 64-bit operand zero-extended (R27, R28). For each N from 0 to 62 an inline float literal supplies the FP32 pattern that the table of R26 lists for it: the value for 0 and each odd N, and that value with bit 31 set for the even N after it; for a packed operand it supplies RoundNE of that value into FP16 or BF16 in both halves. -/
def Obligations.OperandForms : Prop :=
  (∀ (s : State) (c : Cur) (g : Group) (k : LitKind) (n : Nat),
    s.src c g k (.v n) = .ok (fun t => g.regs.getV t n) ∧
    s.src c g k (.s n) = .ok (fun _ => g.regs.getS n) ∧
    s.src64 c g (.v n) = .ok (fun t => joinPair (g.regs.getV t n) (g.regs.getV t (n + 1))) ∧
    s.src64 c g (.s n) = .ok (fun _ => joinPair (g.regs.getS n) (g.regs.getS (n + 1))) ∧
    (∀ base pa, (SMap.find s.grids g.grid).bind (fun r => r.banks[g.regs.cwBank]?) = some base → base ≠ 0 →
      s.spot g (base + (256 * g.regs.cwIdx + 4 * n)) 4 .read false = .mem pa →
      s.src c g k (.c n) = .ok (fun _ => (s.pathRead g.core g.team (pa / 4)).2) ∧
      (∀ pa', s.spot g (base + (256 * g.regs.cwIdx + 4 * (n + 1))) 4 .read false = .mem pa' →
        s.src64 c g (.c n) = .ok (fun _ =>
          joinPair (s.pathRead g.core g.team (pa / 4)).2 (s.pathRead g.core g.team (pa' / 4)).2))) ∧
    (n < 48 → s.src c g .int (.lit n) = .ok (fun _ => BitVec.ofNat 32 n) ∧
      s.src64 c g (.lit n) = .ok (fun _ => BitVec.ofNat 64 n)) ∧
    (48 ≤ n → n < 63 → s.src c g .int (.lit n) = .ok (fun _ => -(BitVec.ofNat 32 (63 - n))) ∧
      s.src64 c g (.lit n) = .ok (fun _ => -(BitVec.ofNat 64 (63 - n)))) ∧
    s.src c g .int (.lit 63) = .ok (fun _ => BitVec.ofNat 32 c.lit) ∧
    s.src c g .flt (.lit 63) = .ok (fun _ => BitVec.ofNat 32 c.lit <<< 8) ∧
    s.src64 c g (.lit 63) = .ok (fun _ => BitVec.ofNat 64 c.lit) ∧
    (∀ bf, c.lit < 2 ^ 16 → s.src c g (.half bf) (.lit 63) = .ok (fun _ => BitVec.ofNat 32 (c.lit + c.lit * 2 ^ 16)))) ∧
  (∀ (s : State) (c : Cur) (g : Group),
    (∀ e ∈ [(0, 0x00000000), (1, 0x3F000000), (3, 0x3F800000), (5, 0x40000000), (7, 0x40800000), (9, 0x41000000),
      (11, 0x41800000), (13, 0x42000000), (15, 0x42800000), (17, 0x43000000), (19, 0x43800000), (21, 0x3E800000),
      (23, 0x3E000000), (25, 0x3D800000), (27, 0x3B800000), (29, 0x40400000), (31, 0x3FC00000), (33, 0x3F400000),
      (35, 0x41200000), (37, 0x437F0000), (39, 0x3B808081), (41, 0x40490FDB), (43, 0x3FC90FDB), (45, 0x40C90FDB),
      (47, 0x3EA2F983), (49, 0x3E22F983), (51, 0x3F317218), (53, 0x3FB8AA3B), (55, 0x40549A78), (57, 0x3E9A209B),
      (59, 0x3FB504F3), (61, 0x3F3504F3)],
      s.src c g .flt (.lit e.1) = .ok (fun _ => BitVec.ofNat 32 e.2) ∧
      (e.1 ≠ 0 → s.src c g .flt (.lit (e.1 + 1)) = .ok (fun _ => BitVec.ofNat 32 e.2 ||| 0x80000000)) ∧
      (∀ (bf : Bool) (n v : Nat), (n = e.1 ∧ v = e.2) ∨ (e.1 ≠ 0 ∧ n = e.1 + 1 ∧ v = e.2 + 0x80000000) →
        let r := (if bf then Fmt.bf16 else Fmt.fp16).roundNE (Fmt.fp32.decode v) % 2 ^ 16
        s.src c g (.half bf) (.lit n) = .ok (fun _ => BitVec.ofNat 32 (r + r * 2 ^ 16)))))

/-- O2. With a and b readable, IADD, ISUB (wrapping, or clamped to −2^31 to 2^31 − 1 with SF where the clamp changes a result), IMUL, IMULH, IMAD, IMIN, IMAX, IABS, AND, OR, XOR, NOT, POPC, CLZ and BREV answer a next state in which vD(t) holds the row's result in each thread of the issue set; every other register, %fstat but for SF, all memory and every other part of the machine stand. -/
def Obligations.IntegerWords : Prop :=
  ∀ (s : State) (c : Cur) (g : Group) (d : Nat) (a b : Src) (x y : Nat → Word),
    s.issuing c g → d < 64 → s.src c g .int a = .ok x → s.src c g .int b = .ok y →
    let z := fun t => g.regs.getV t d
    let put := fun (i : Instr) (f : Nat → Word) => leaves i s c g (g.regs.onlyV d (c.runs g) f)
    let stat := fun (i : Instr) (f : Nat → Word × Stat) => leaves i s c g (g.regs.onlyStat d (c.runs g) g.width f)
    let sat := fun (e : Int) => (BitVec.ofInt 32 (max (-2 ^ 31) (min (2 ^ 31 - 1) e)),
      if e < -2 ^ 31 ∨ 2 ^ 31 ≤ e then Stat.sf else 0)
    stat (.iadd d a b false) (fun t => (BitVec.ofInt 32 ((x t).toInt + (y t).toInt), 0)) ∧
    stat (.isub d a b false) (fun t => (BitVec.ofInt 32 ((x t).toInt - (y t).toInt), 0)) ∧
    stat (.iadd d a b true) (fun t => sat ((x t).toInt + (y t).toInt)) ∧
    stat (.isub d a b true) (fun t => sat ((x t).toInt - (y t).toInt)) ∧
    put (.imul d a b) (fun t => BitVec.ofNat 32 ((x t).toNat * (y t).toNat)) ∧
    put (.imulh d a b false) (fun t => highWord ((x t).signExtend 64 * (y t).signExtend 64)) ∧
    put (.imulh d a b true) (fun t => highWord ((x t).setWidth 64 * (y t).setWidth 64)) ∧
    put (.imad d a b) (fun t => BitVec.ofNat 32 ((x t).toNat * (y t).toNat + (z t).toNat)) ∧
    put (.imin d a b false) (fun t => BitVec.ofInt 32 (min (x t).toInt (y t).toInt)) ∧
    put (.imin d a b true) (fun t => BitVec.ofNat 32 (min (x t).toNat (y t).toNat)) ∧
    put (.imax d a b false) (fun t => BitVec.ofInt 32 (max (x t).toInt (y t).toInt)) ∧
    put (.imax d a b true) (fun t => BitVec.ofNat 32 (max (x t).toNat (y t).toNat)) ∧
    put (.iabs d a) (fun t => BitVec.ofInt 32 |(x t).toInt|) ∧
    put (.iand d a b) (fun t => x t &&& y t) ∧
    put (.ior d a b) (fun t => x t ||| y t) ∧
    put (.ixor d a b) (fun t => x t ^^^ y t) ∧
    put (.inot d a) (fun t => ~~~(x t)) ∧
    put (.popc d a) (fun t => BitVec.ofNat 32 ((List.range 32).countP (fun i => (x t).getLsbD i))) ∧
    put (.clz d a) (fun t => BitVec.ofNat 32 (32 - Nat.size (x t).toNat)) ∧
    put (.brev d a) (fun t => (x t).reverse)

/-- O3. SHL, SHR and SAR shift by the unsigned 32-bit count, a count of 32 or more giving zeros or copies of bit 31; ROT rotates by the count modulo 32; BFE extracts and BFI inserts the field of offset SB[4:0] and width min(SB[13:8], 32 − offset); IDOT4 adds four products of bytes to d. Each answers a next state that differs in vD of the issue set alone. -/
def Obligations.ShiftAndFieldWords : Prop :=
  ∀ (s : State) (c : Cur) (g : Group) (d : Nat) (a b : Src) (x y : Nat → Word),
    s.issuing c g → d < 64 → s.src c g .int a = .ok x → s.src c g .int b = .ok y →
    let z := fun t => g.regs.getV t d
    let put := fun (i : Instr) (f : Nat → Word) => leaves i s c g (g.regs.onlyV d (c.runs g) f)
    let o := fun t => (y t).toNat % 32
    let w := fun t => min ((y t).toNat / 256 % 64) (32 - o t)
    put (.shl d a b) (fun t => x t <<< (y t).toNat) ∧
    put (.shr d a b) (fun t => x t >>> (y t).toNat) ∧
    put (.sar d a b) (fun t => if (y t).toNat < 32 then (x t).sshiftRight (y t).toNat else if (x t).msb then 0xFFFFFFFF else 0) ∧
    put (.rot d a b false) (fun t => x t <<< ((y t).toNat % 32) ||| x t >>> (32 - (y t).toNat % 32)) ∧
    put (.rot d a b true) (fun t => x t >>> ((y t).toNat % 32) ||| x t <<< (32 - (y t).toNat % 32)) ∧
    put (.bfe d a b false) (fun t => (x t <<< (32 - o t - w t)) >>> (32 - w t)) ∧
    put (.bfe d a b true) (fun t => if w t = 0 then 0 else (x t <<< (32 - o t - w t)).sshiftRight (32 - w t)) ∧
    (∃ f : Nat → Word, put (.bfi d a b) f ∧ ∀ t i, (f t).getLsbD i =
      if o t ≤ i ∧ i < o t + w t then (x t).getLsbD (i - o t) else (z t).getLsbD i) ∧
    put (.idot4 d a b false) (fun t => BitVec.ofInt 32 ((z t).toInt +
      ((List.range 4).map (fun i => ((x t).extractLsb' (8 * i) 8).toInt * ((y t).extractLsb' (8 * i) 8).toInt)).sum)) ∧
    put (.idot4 d a b true) (fun t => BitVec.ofNat 32 ((z t).toNat +
      ((List.range 4).map (fun i => ((x t).extractLsb' (8 * i) 8).toNat * ((y t).extractLsb' (8 * i) 8).toNat)).sum))

/-- O4. IADD64 writes (a + b) mod 2^64 and LEA (a + ZeroExtend64(b)) mod 2^64 to the pair vD:vD+1, bits [31:0] in the even register; QUNPK writes the n widened elements of vS to vD to vD+n−1. Each answers a next state that differs in those registers of the issue set alone. -/
def Obligations.WideWords : Prop :=
  ∀ (s : State) (c : Cur) (g : Group) (d v : Nat) (a b : Src) (x y : Nat → DWord) (u : Nat → Word),
    s.issuing c g → d + 1 < 64 → v < 64 → s.src64 c g a = .ok x → s.src64 c g b = .ok y → s.src c g .int b = .ok u →
    leaves (.iadd64 d a b) s c g (g.regs.onlyPair d (c.runs g) (fun t => x t + y t)) ∧
    leaves (.lea d a b) s c g (g.regs.onlyPair d (c.runs g) (fun t => x t + (u t).setWidth 64)) ∧
    (∀ ty, d + packCount ty ≤ 64 → leaves (.qunpk d v ty) s c g (g.regs.onlyRun d (packCount ty) (c.runs g) (fun t i =>
      let e := (g.regs.getV t v).toNat / 2 ^ (32 / packCount ty * i) % 2 ^ (32 / packCount ty)
      match ty with
      | 0 => BitVec.ofNat 32 (Fmt.fp32.roundNE (Fmt.fp16.decode e))
      | 1 => BitVec.ofNat 32 (Fmt.fp32.roundNE (Fmt.bf16.decode e))
      | 2 => BitVec.ofNat 32 (Fmt.fp32.roundNE (Fmt.e4m3.decode e))
      | 3 => BitVec.ofNat 32 (Fmt.fp32.roundNE (Fmt.e5m2.decode e))
      | 4 => BitVec.ofNat 32 (Fmt.fp32.roundNE (Fmt.e2m1.decode e))
      | 5 => (BitVec.ofNat 8 e).signExtend 32
      | 6 => (BitVec.ofNat 4 e).signExtend 32
      | _ => BitVec.ofNat 32 e)))

/-- O5. ICMP and SCMP (R112, R123) set pD in the issue set to the signed or unsigned comparison that the condition code names (R30), FCMP to the FP32 comparison (unordered makes eq, lt, le, gt, ge, ord false and ne, uo true); ISEL and FSEL (R113) write vD from SA or vSB by pP xor NEG; PAND, POR and PNOT write pD. With D = p0 nothing is written (R11); nothing else changes. -/
def Obligations.ComparesAndPredicates : Prop :=
  ∀ (s : State) (c : Cur) (g : Group) (d p v : Nat) (a b : Src) (x y xf yf : Nat → Word),
    s.issuing c g → d < 64 → s.src c g .int a = .ok x → s.src c g .int b = .ok y →
    s.src c g .flt a = .ok xf → s.src c g .flt b = .ok yf →
    let set := fun (i : Instr) (f : Nat → Bool) => leaves i s c g (g.regs.onlyP d (c.runs g) g.width f)
    let put := fun (i : Instr) (f : Nat → Word) => leaves i s c g (g.regs.onlyV d (c.runs g) f)
    let num := fun (w : Word) => Fmt.fp32.decode w.toNat
    let has := fun (n t : Nat) => (g.regs.getP n).getLsbD t
    (∀ e ∈ [(0, fun (m n : Int) => decide (m = n)), (1, fun m n => decide (m ≠ n)), (2, fun m n => decide (m < n)),
        (3, fun m n => decide (m ≤ n)), (4, fun m n => decide (m > n)), (5, fun m n => decide (m ≥ n))],
      set (.icmp d e.1 a b false) (fun t => e.2 (x t).toInt (y t).toInt) ∧
      set (.icmp d e.1 a b true) (fun t => e.2 (x t).toNat (y t).toNat) ∧
      set (.scmp d e.1 a b false) (fun _ => e.2 (x 0).toInt (y 0).toInt) ∧
      set (.scmp d e.1 a b true) (fun _ => e.2 (x 0).toNat (y 0).toNat)) ∧
    set (.fcmp d 0 a b) (fun t => (num (xf t)).eq (num (yf t))) ∧
    set (.fcmp d 1 a b) (fun t => !(num (xf t)).eq (num (yf t))) ∧
    set (.fcmp d 2 a b) (fun t => (num (xf t)).lt (num (yf t))) ∧
    set (.fcmp d 3 a b) (fun t => (num (xf t)).lt (num (yf t)) || (num (xf t)).eq (num (yf t))) ∧
    set (.fcmp d 4 a b) (fun t => (num (yf t)).lt (num (xf t))) ∧
    set (.fcmp d 5 a b) (fun t => (num (yf t)).lt (num (xf t)) || (num (xf t)).eq (num (yf t))) ∧
    set (.fcmp d 6 a b) (fun t => decide (num (xf t) = .nan ∨ num (yf t) = .nan)) ∧
    set (.fcmp d 7 a b) (fun t => decide (num (xf t) ≠ .nan ∧ num (yf t) ≠ .nan)) ∧
    (∀ neg, put (.isel d p a v neg) (fun t => if (has p t ^^ neg) then x t else g.regs.getV t v) ∧
      put (.fsel d p a v neg) (fun t => if (has p t ^^ neg) then xf t else g.regs.getV t v)) ∧
    (∀ e ∈ [(0, false, false), (1, true, false), (2, false, true), (3, true, true)],
      set (.pand d p v e.1) (fun t => (has p t ^^ e.2.1) && (has v t ^^ e.2.2)) ∧
      set (.por d p v e.1) (fun t => (has p t ^^ e.2.1) || (has v t ^^ e.2.2))) ∧
    set (.pnot d p) (fun t => !has p t)

/-- O6. SADD, SSUB, SMUL, SAND, SOR, SXOR, SSHL, SSHR, SSHR.a and SMOV write sD with the result of R122, SLI with the sign-extended 17-bit immediate, whatever the size of the issue set; no other register, and nothing else, changes. -/
def Obligations.ScalarWords : Prop :=
  ∀ (s : State) (c : Cur) (g : Group) (d imm : Nat) (a b : Src) (x y : Nat → Word),
    s.issuing c g → imm < 2 ^ 17 → s.src c g .int a = .ok x → s.src c g .int b = .ok y →
    let put := fun (i : Instr) (w : Word) => leaves i s c g (g.regs.onlyS d w)
    put (.sadd d a b) (BitVec.ofNat 32 ((x 0).toNat + (y 0).toNat)) ∧
    put (.ssub d a b) (BitVec.ofInt 32 ((x 0).toInt - (y 0).toInt)) ∧
    put (.smul d a b) (BitVec.ofNat 32 ((x 0).toNat * (y 0).toNat)) ∧
    put (.sand d a b) (x 0 &&& y 0) ∧
    put (.sor d a b) (x 0 ||| y 0) ∧
    put (.sxor d a b) (x 0 ^^^ y 0) ∧
    put (.sshl d a b) (x 0 <<< (y 0).toNat) ∧
    put (.sshr d a b false) (x 0 >>> (y 0).toNat) ∧
    put (.sshr d a b true) (if (y 0).toNat < 32 then (x 0).sshiftRight (y 0).toNat else if (x 0).msb then 0xFFFFFFFF else 0) ∧
    put (.smov d a) (x 0) ∧
    put (.sli d imm) ((BitVec.ofNat 17 imm).signExtend 32)

/-- O7. MOV and S2V write vD of the issue set, V2S writes sD with vS of lane n where that lane is live and 0 where it is not, and raises 0x01 for a lane at or above the width; MOVS writes the special registers %lane, %grp, %core, %part, %width, %fstat, %live, %liveh, %iss, %issh, %lpb, %lpbh, %clock, %clockh and raises 0x01 for a number that R14 does not list; CWIN sets the bank and the offset of the constant window. Nothing else changes. NOP changes nothing but the place of its block: in slots 0 and 1 the live threads of the issue set go on at the next slot of the packet; after slot 2, with no entry at the next packet and no pre-emption asked, the block goes on at the next packet, slot 0; where an entry stands there, or pre-emption is asked, they enter the table there. The literal word goes on to the next slot with every register and all else unchanged, and no word boundary follows it. -/
def Obligations.MovesAndNop : Prop :=
  (∀ (s : State) (c : Cur) (g : Group) (d v n : Nat) (a : Src) (x : Nat → Word),
    s.issuing c g → d < 64 → s.src c g .int a = .ok x →
    let put := fun (i : Instr) (f : Nat → Word) => leaves i s c g (g.regs.onlyV d (c.runs g) f)
    put (.mov d a) x ∧
    put (.s2v d v) (fun _ => g.regs.getS v) ∧
    (n < g.width → leaves (.v2s d v n) s c g (g.regs.onlyS d (if g.live.getLsbD n then g.regs.getV n v else 0))) ∧
    (g.width ≤ n → exec (.v2s d v n) s = .next (s.stopAt c (.trap ⟨0x01, c.map, 0⟩))) ∧
    put (.movs d 0x000) (fun t => BitVec.ofNat 32 t) ∧
    (∀ e ∈ [(0x001, g.grp), (0x008, g.core), (0x009, g.part), (0x00B, g.width), (0x00E, s.clock), (0x00F, s.clock / 2 ^ 32),
        (0x013, g.live.toNat), (0x014, g.live.toNat / 2 ^ 32), (0x015, c.map.toNat), (0x016, c.map.toNat / 2 ^ 32),
        (0x017, g.lpb), (0x018, g.lpb / 2 ^ 32 % 2 ^ 16)],
      put (.movs d e.1) (fun _ => BitVec.ofNat 32 e.2)) ∧
    put (.movs d 0x012) (fun _ => g.regs.fstat) ∧
    (∀ r, 0x018 < r → exec (.movs d r) s = .next (s.stopAt c (.trap ⟨0x01, c.map, 0⟩))) ∧
    (∀ r, r ≤ 0x018 → ∃ f, put (.movs d r) f) ∧
    (∀ b h l, leaves (.cwin b h l) s c g (fun r => r = { g.regs with cwBank := b, cwIdx := 4 * h + l }) ∧
      leaves (.cwinReg b v) s c g (fun r => r = { g.regs with cwBank := b, cwIdx := (g.regs.getS v).toNat % 256 }))) ∧
  (∀ (s : State) (c : Cur) (g : Group) (b : Block) (payload : Nat),
    s.issuing c g → g.blk = some b → c.map &&& g.live ≠ 0 →
    (c.slot < 2 → moves .nop s c g (fun h => h.regs = g.regs ∧ h.bbt = g.bbt ∧
      h.blk = some ⟨c.map &&& g.live, c.pc, c.slot + 1, b.words, !c.chain⟩)) ∧
    (c.slot = 2 → g.trap.preempt = false → (∀ e ∈ g.bbt, e.pc ≠ c.pc + 12) →
      moves .nop s c g (fun h => h.regs = g.regs ∧ h.bbt = g.bbt ∧ h.blk = some ⟨c.map &&& g.live, c.pc + 12, 0, [], true⟩)) ∧
    (c.slot = 2 → (g.trap.preempt = true ∨ ∃ e ∈ g.bbt, e.pc = c.pc + 12) →
      moves .nop s c g (fun h => h.regs = g.regs ∧ h.blk = none ∧ ∀ t pc slot w, h.stands t pc slot w ↔
        g.stands t pc slot w ∨ ((c.map &&& g.live).getLsbD t = true ∧ pc = c.pc + 12 ∧ slot = 0 ∧ w = .runnable))) ∧
    (c.slot < 2 → ∃ t h, exec (.lit payload) s = .next t ∧ SMap.find t.groups c.gid = some h ∧
      h = { g with blk := some ⟨c.map &&& g.live, c.pc, c.slot + 1, b.words, false⟩ } ∧
      t = { s with groups := SMap.put s.groups c.gid h, cur := none }))

/-- O8. FADD, FSUB, FMUL and FMA write RoundNE (saturated with .sat) of the exact a + b, a − b, a × b, a × b + d, FMIN and FMAX an operand's own code, HADD2, HMUL2, HFMA2, HMIN2 and HMAX2 the same in each half in FP16 or BF16; %fstat gains the union of the status of the issue set's threads and halves. Nothing else changes. -/
def Obligations.FloatWords : Prop :=
  ∀ (s : State) (c : Cur) (g : Group) (d : Nat) (a b : Src) (m : Bool) (x y xh yh : Nat → Word),
    s.issuing c g → d < 64 → s.src c g .flt a = .ok x → s.src c g .flt b = .ok y →
    s.src c g (.half m) a = .ok xh → s.src c g (.half m) b = .ok yh →
    let z := fun t => g.regs.getV t d
    let num := fun (w : Word) => Fmt.fp32.decode w.toNat
    let put := fun (i : Instr) (f : Nat → Word) => leaves i s c g (g.regs.onlyV d (c.runs g) f)
    let stat := fun (i : Instr) (f : Nat → Word × Stat) => leaves i s c g (g.regs.onlyStat d (c.runs g) g.width f)
    let word := fun (p : Nat × Stat) => (BitVec.ofNat 32 p.1, p.2)
    let h := if m then Fmt.bf16 else Fmt.fp16
    let part := fun (w : Word) (k : Nat) => w.toNat / 2 ^ (16 * k) % 2 ^ 16
    let two := fun (f : Nat → Nat × Stat) => (BitVec.ofNat 32 ((f 0).1 + (f 1).1 * 2 ^ 16), (f 0).2 ||| (f 1).2)
    stat (.fadd d a b m) (fun t => word (Fmt.fp32.sum m (num (x t)) (num (y t)))) ∧
    stat (.fsub d a b m) (fun t => word (Fmt.fp32.sum m (num (x t)) (num (y t)).neg)) ∧
    stat (.fmul d a b m) (fun t => word (Fmt.fp32.product m (num (x t)) (num (y t)))) ∧
    stat (.fma d a b m) (fun t => word (Fmt.fp32.fused m (num (x t)) (num (y t)) (num (z t)))) ∧
    put (.fmin d a b) (fun t => BitVec.ofNat 32 (Fmt.fp32.pick false (x t).toNat (y t).toNat)) ∧
    put (.fmax d a b) (fun t => BitVec.ofNat 32 (Fmt.fp32.pick true (x t).toNat (y t).toNat)) ∧
    stat (.hadd2 d a b m) (fun t => two (fun k => h.sum false (h.decode (part (xh t) k)) (h.decode (part (yh t) k)))) ∧
    stat (.hmul2 d a b m) (fun t => two (fun k => h.product false (h.decode (part (xh t) k)) (h.decode (part (yh t) k)))) ∧
    stat (.hfma2 d a b m) (fun t => two (fun k =>
      h.fused false (h.decode (part (xh t) k)) (h.decode (part (yh t) k)) (h.decode (part (z t) k)))) ∧
    stat (.hmin2 d a b m) (fun t => two (fun k => (h.pick false (part (xh t) k) (part (yh t) k), 0))) ∧
    stat (.hmax2 d a b m) (fun t => two (fun k => (h.pick true (part (xh t) k) (part (yh t) k), 0)))

/-- O9. For each of the formats FP32, FP16, BF16, FA40, E5M2, E4M3 and E2M1, delivering the exact value of a finite code into the same format, in every rounding mode and with or without saturation, gives that code (the sign of zero kept) and sets no status bit. A NaN operand of a sum, a product or a fused product-sum gives the canonical NaN, with .sat too; ∞ − ∞ and 0 × ∞ give it and set NV, in a fused word whatever d holds; a − b is a + (−b); FMIN and FMAX return the other operand for one NaN, the canonical NaN for two, and take −0 as below +0. -/
def Obligations.RoundingAndSpecialValues : Prop :=
  (∀ (f : Fmt) (mode : Nat) (sat neg : Bool) (c m : Nat) (e : Int),
    c < 2 ^ f.width → f.decode c = .fin neg m e → f.deliver mode sat (f.decode c) = (c, 0)) ∧
  (∀ (sat neg : Bool) (x y z : Machine.Num) (a b : Nat),
    (x = .nan ∨ y = .nan → (Fmt.fp32.sum sat x y).1 = 0x7FC00000 ∧ (Fmt.fp32.product sat x y).1 = 0x7FC00000 ∧
      (Fmt.fp32.fused sat x y z).1 = 0x7FC00000) ∧
    ((Fmt.fp32.fused sat x y .nan).1 = 0x7FC00000) ∧
    (Fmt.fp32.sum sat (.inf neg) (.inf !neg) = (0x7FC00000, Stat.nv)) ∧
    (∀ s e, Fmt.fp32.product sat (.inf neg) (.fin s 0 e) = (0x7FC00000, Stat.nv) ∧
      Fmt.fp32.product sat (.fin s 0 e) (.inf neg) = (0x7FC00000, Stat.nv) ∧
      Fmt.fp32.fused sat (.inf neg) (.fin s 0 e) z = (0x7FC00000, Stat.nv) ∧
      Fmt.fp32.fused sat (.fin s 0 e) (.inf neg) z = (0x7FC00000, Stat.nv)) ∧
    (Fmt.fp32.decode a = .nan → Fmt.fp32.decode b = .nan →
      Fmt.fp32.pick sat a b = 0x7FC00000) ∧
    (Fmt.fp32.decode a = .nan → Fmt.fp32.decode b ≠ .nan → Fmt.fp32.pick sat a b = b ∧ Fmt.fp32.pick sat b a = b) ∧
    (Fmt.fp32.pick false 0 0x80000000 = 0x80000000 ∧ Fmt.fp32.pick false 0x80000000 0 = 0x80000000 ∧
      Fmt.fp32.pick true 0 0x80000000 = 0 ∧ Fmt.fp32.pick true 0x80000000 0 = 0))

/-- O10. Each unary float word answers a next state in which vD of the issue set holds its function of a and %fstat gains its status; for a = ±0 and ±∞ the result and the status are those of R117's table, a NaN gives the canonical NaN with none, a finite a below 0 gives NaN with NV in FRSQ, FSQRT and FLOG2; FFRC of ±∞ is NaN with NV, FRND keeps ±∞ and ±0 and sets no status. -/
def Obligations.FloatFunctions : Prop :=
  (∀ (s : State) (c : Cur) (g : Group) (d mode : Nat) (a : Src) (x : Nat → Word),
    s.issuing c g → d < 64 → s.src c g .flt a = .ok x →
    let stat := fun (i : Instr) (f : Nat → Nat × Stat) =>
      leaves i s c g (g.regs.onlyStat d (c.runs g) g.width (fun t => (BitVec.ofNat 32 (f (x t).toNat).1, (f (x t).toNat).2)))
    stat (.frcp d a) frcp ∧ stat (.frsq d a) frsq ∧ stat (.fsqrt d a) fsqrt ∧ stat (.fexp2 d a) fexp2 ∧
    stat (.flog2 d a) flog2 ∧ stat (.fsin d a) fsin ∧ stat (.fcos d a) fcos ∧ stat (.ffrc d a) ffrc ∧
    stat (.frnd d a mode) (frnd mode)) ∧
  (∀ e ∈ [(frcp, (0x7F800000, Stat.dz), (0xFF800000, Stat.dz), (0, 0), (0x80000000, 0)),
      (frsq, (0x7F800000, Stat.dz), (0xFF800000, Stat.dz), (0, 0), (0x7FC00000, Stat.nv)),
      (fsqrt, (0, 0), (0x80000000, 0), (0x7F800000, 0), (0x7FC00000, Stat.nv)),
      (fexp2, (0x3F800000, 0), (0x3F800000, 0), (0x7F800000, 0), (0, 0)),
      (flog2, (0xFF800000, Stat.dz), (0xFF800000, Stat.dz), (0x7F800000, 0), (0x7FC00000, Stat.nv)),
      (fsin, (0, 0), (0x80000000, 0), (0x7FC00000, Stat.nv), (0x7FC00000, Stat.nv)),
      (fcos, (0x3F800000, 0), (0x3F800000, 0), (0x7FC00000, Stat.nv), (0x7FC00000, Stat.nv)),
      (ffrc, (0, 0), (0, 0), (0x7FC00000, Stat.nv), (0x7FC00000, Stat.nv))],
    e.1 0 = e.2.1 ∧ e.1 0x80000000 = e.2.2.1 ∧ e.1 0x7F800000 = e.2.2.2.1 ∧ e.1 0xFF800000 = e.2.2.2.2) ∧
  (∀ (n mode : Nat) (f : Nat → Nat × Stat), f ∈ [frcp, frsq, fsqrt, fexp2, flog2, fsin, fcos, ffrc, frnd mode] →
    Fmt.fp32.decode n = .nan → f n = (0x7FC00000, 0)) ∧
  (∀ (n m : Nat) (e : Int) (f : Nat → Nat × Stat), f ∈ [frsq, fsqrt, flog2] → m ≠ 0 →
    Fmt.fp32.decode n = .fin true m e → f n = (0x7FC00000, Stat.nv)) ∧
  (∀ mode n, (frnd mode n).2 = 0) ∧
  (∀ mode n, n ∈ [0, 0x80000000, 0x7F800000, 0xFF800000] → frnd mode n = (n, 0))

/-- O11. CVT reads the low bits of vS as the source type and delivers the exact value to the destination type in the mode of R63: into a float format as R64 and R65 give it, into i32 or ui32 with a NaN as 0 and NV, an infinity as the nearer end with NV and SF, a value out of range as the nearer end (NV and SF from a float, SF alone from an integer) and NX where rounding is inexact; QPACK packs n such codes into vD. Nothing but vD of the issue set and %fstat changes. -/
def Obligations.Conversions : Prop :=
  ∀ (s : State) (c : Cur) (g : Group) (d v mode : Nat) (sat : Bool) (dst src ty : Nat),
    s.issuing c g → d < 64 → ty < 8 →
    let flt := fun n => [Fmt.fp32, Fmt.fp16, Fmt.bf16, Fmt.e4m3, Fmt.e5m2, Fmt.e2m1].getD n .fp32
    let val := fun (w : Word) => if src < 6 then (flt src).decode (w.toNat % 2 ^ (flt src).width)
      else Machine.Num.ofInt (if src = 6 then w.toInt else w.toNat)
    let toInt : Bool → Int → Int → Machine.Num → Int × Stat := fun fromFloat lo hi n => match n with
      | .nan => (0, Stat.nv)
      | .inf neg => (if neg then lo else hi, Stat.nv ||| Stat.sf)
      | .fin neg m e =>
        let r := roundInt mode neg m e
        if r.1 < lo then (lo, if fromFloat then Stat.nv ||| Stat.sf else Stat.sf)
        else if hi < r.1 then (hi, if fromFloat then Stat.nv ||| Stat.sf else Stat.sf)
        else (r.1, if r.2 then Stat.nx else 0)
    let one := fun (w : Word) => if dst < 6 then
        (BitVec.ofNat 32 ((flt dst).deliver mode sat (val w)).1, ((flt dst).deliver mode sat (val w)).2)
      else
        let r := toInt (decide (src < 6)) (if dst = 6 then -2 ^ 31 else 0) (if dst = 6 then 2 ^ 31 - 1 else 2 ^ 32 - 1) (val w)
        (BitVec.ofInt 32 r.1, r.2)
    let n := packCount ty
    let elem := fun (w : Word) => if ty < 5 then
        ([Fmt.fp16, Fmt.bf16, Fmt.e4m3, Fmt.e5m2, Fmt.e2m1].getD ty .fp16).deliver mode sat (Fmt.fp32.decode w.toNat)
      else
        let w' := if ty = 6 then 4 else 8
        let r := toInt false (if ty = 7 then 0 else -2 ^ (w' - 1)) (if ty = 7 then 255 else 2 ^ (w' - 1) - 1) (Machine.Num.ofInt w.toInt)
        ((r.1 % 2 ^ w').toNat, r.2)
    leaves (.cvt d v mode sat dst src) s c g
      (g.regs.onlyStat d (c.runs g) g.width (fun t => one (g.regs.getV t v))) ∧
    leaves (.qpack d v mode sat ty) s c g (g.regs.onlyStat d (c.runs g) g.width (fun t =>
      (BitVec.ofNat 32 (((List.range n).map (fun i => (elem (g.regs.getV t (v + i))).1 * 2 ^ (32 / n * i))).sum),
        (List.range n).foldl (fun a i => a ||| (elem (g.regs.getV t (v + i))).2) 0)))

/-- O12. With the target below 2^48 (one beyond is left out here), each thread of the issue set re-enters the BBT runnable at PC + 12 × displacement where it takes the branch (R31) and at PC + 12 where it does not: in BRA and CALL by pP(t) xor NEG, in BRC by whether that holds in every thread of the issue set (R78), in SBRA by whether sN is not 0 (R125). CALL writes v0 with PC + 12 − base in the threads that take it; no other register, and nothing else, changes. -/
def Obligations.Branches : Prop :=
  ∀ (s : State) (c : Cur) (g : Group) (p e n i : Nat) (neg : Bool) (target : Nat),
    s.issuing c g → e < 2 ^ 20 → i < 2 ^ 17 → target < 2 ^ 48 →
    let cond := fun t => (g.regs.getP p).getLsbD t ^^ neg
    let all := (List.range 64).all (fun t => !c.map.getLsbD t || cond t)
    let goes := fun (taken : Nat → Bool) (h : Group) => h.blk = none ∧ ∀ t pc slot w, t < 64 → (h.stands t pc slot w ↔
      g.stands t pc slot w ∨ (c.map.getLsbD t = true ∧ slot = 0 ∧ w = .runnable ∧ pc = if taken t then target else c.pc + 12))
    ((target : Int) = c.pc + 12 * (BitVec.ofNat 20 e).toInt →
      moves (.bra p neg e) s c g (fun h => h.regs = g.regs ∧ goes cond h) ∧
      moves (.brc p neg e) s c g (fun h => h.regs = g.regs ∧ goes (fun _ => all) h) ∧
      moves (.call p neg e) s c g (fun h => goes cond h ∧
        g.regs.onlyV 0 (fun t => c.runs g t && cond t) (fun _ => BitVec.ofNat 32 (c.pc + 12 - g.base)) h.regs)) ∧
    ((target : Int) = c.pc + 12 * (BitVec.ofNat 17 i).toInt →
      moves (.sbra n i) s c g (fun h => h.regs = g.regs ∧ goes (fun _ => g.regs.getS n != 0) h))

/-- O13. With the sources readable, off(t) is SA(t) for RET and SA(t) + SB(t) mod 2^32 for JMPX. If every thread of the issue set has off(t) mod 12 = 0, each re-enters the BBT runnable at base + off(t), the threads with equal targets in one entry; where no two entries of the table stand for one place and wait, none do afterwards, so two runnable entries of one packet and slot are the same entry; and nothing else changes; otherwise cause 0x04 is raised for exactly the threads whose offset is misaligned. -/
def Obligations.Jumps : Prop :=
  ∀ (s : State) (c : Cur) (g : Group) (a b : Src) (x y : Nat → Word),
    s.issuing c g → s.src c g .int a = .ok x → s.src c g .int b = .ok y → g.width ≤ 64 →
    ∀ e ∈ [(Instr.ret a, x), (Instr.jmpx a b, fun t => BitVec.ofNat 32 ((x t).toNat + (y t).toNat))],
      ((∀ t, c.runs g t = true → (e.2 t).toNat % 12 = 0) →
        moves e.1 s c g (fun h => h.regs = g.regs ∧ h.blk = none ∧ (∀ t pc slot w, t < 64 → (h.stands t pc slot w ↔
          g.stands t pc slot w ∨ (c.runs g t = true ∧ slot = 0 ∧ w = .runnable ∧ pc = g.base + (e.2 t).toNat))) ∧
          (∀ t u, c.runs g t = true → c.runs g u = true → e.2 t = e.2 u → ∃ f ∈ h.bbt,
            f.map.getLsbD t = true ∧ f.map.getLsbD u = true ∧ f.pc = g.base + (e.2 t).toNat ∧ f.slot = 0 ∧ f.wait = .runnable) ∧
          (g.tableOrder → h.tableOrder ∧ ∀ f ∈ h.bbt, ∀ k ∈ h.bbt,
            f.wait = .runnable → k.wait = .runnable → f.pc = k.pc → f.slot = k.slot → f = k))) ∧
      ((∃ t, c.runs g t = true ∧ (e.2 t).toNat % 12 ≠ 0) → ∃ m : Lanes, raises e.1 s c 0x04 m ∧
        ∀ t, m.getLsbD t = true ↔ c.runs g t = true ∧ (e.2 t).toNat % 12 ≠ 0)

/-- O14. When the issue set equals the live threads, VOTE writes pD or the ballot pair, SHFL writes vS of lane j where j is a live lane below the width and the thread's own vS elsewhere, REDG writes the tree combination of R72 (for iadd the sum of the live lanes) to vD of every thread or to sD, SCANG the prefix combination of R73; only those registers and %fstat change. When it differs, each raises cause 0x03 for its issue set. -/
def Obligations.Collectives : Prop :=
  ∀ (s : State) (c : Cur) (g : Group) (d v p n o : Nat),
    s.issuing c g → d + 1 < 64 → g.width ∈ [8, 16, 32, 64] →
    let lives := fun t => c.runs g t
    let has := fun t => (g.regs.getP p).getLsbD t
    let any := (List.range 64).any (fun t => g.live.getLsbD t && has t)
    let all := (List.range 64).all (fun t => !g.live.getLsbD t || has t)
    let put := fun (i : Instr) (f : Nat → Word) => leaves i s c g (g.regs.onlyV d lives f)
    let set := fun (i : Instr) (b : Bool) => leaves i s c g (g.regs.onlyP d lives g.width (fun _ => b))
    let shf := fun (j : Nat → Int) (t : Nat) =>
      if 0 ≤ j t ∧ j t < g.width ∧ g.live.getLsbD (j t).toNat = true then g.regs.getV (j t).toNat v else g.regs.getV t v
    let val := fun t => if t < g.width ∧ g.live.getLsbD t = true then some (g.regs.getV t v) else none
    let sum := fun k => BitVec.ofNat 32 (((List.range k).map (fun t => ((val t).getD 0).toNat)).sum)
    let stat := fun (i : Instr) (f : Nat → Word × Stat) => leaves i s c g (g.regs.onlyStat d lives g.width f)
    (c.map = g.live →
      set (.voteAny d p) any ∧ set (.voteAll d p) all ∧ set (.voteEq d p) (all || !any) ∧
      (∃ m : BitVec 64, (∀ t, m.getLsbD t = (decide (t < g.width) && g.live.getLsbD t && has t)) ∧
        leaves (.voteBallot d p) s c g (fun r => r = { g.regs with s := r.s } ∧
          ∀ k, r.getS k = if k = d + 1 then highWord m else if k = d then lowWord m else g.regs.getS k)) ∧
      put (.shflIdx d v p) (shf (fun t => (g.regs.getV t p).toNat)) ∧
      put (.shflUp d v n) (shf (fun t => (t : Int) - n)) ∧
      put (.shflDown d v n) (shf (fun t => (t : Int) + n)) ∧
      put (.shflXor d v n) (shf (fun t => ((t ^^^ n : Nat) : Int))) ∧
      (let r := redNode o val (Nat.log2 g.width) 0
       stat (.redg d v o) (fun _ => (r.1.getD 0, r.2)) ∧
       leaves (.redgScalar d v o) s c g (fun q => q.getS d = r.1.getD 0 ∧ (∀ k, k ≠ d → q.getS k = g.regs.getS k) ∧
         q = { g.regs with s := q.s, fstat := g.regs.fstat ||| (r.2 &&& 0x3F) }) ∧
       stat (.scangIncl d v o) (fun t => ((scanTo o val (t + 1)).1.getD 0, (scanTo o val (t + 1)).2)) ∧
       stat (.scangExcl d v o) (fun t => ((scanTo o val t).1.getD (redIdentity o), (scanTo o val t).2))) ∧
      stat (.redg d v 0) (fun _ => (sum g.width, 0)) ∧
      stat (.scangIncl d v 0) (fun t => (sum (t + 1), 0)) ∧ stat (.scangExcl d v 0) (fun t => (sum t, 0))) ∧
    (c.map ≠ g.live → ∀ i ∈ [Instr.voteAny d p, .voteAll d p, .voteEq d p, .voteBallot d p, .shflIdx d v p, .shflUp d v n,
      .shflDown d v n, .shflXor d v n, .redg d v o, .redgScalar d v o, .scangIncl d v o, .scangExcl d v o],
      raises i s c 0x03 c.map)

/-- O15. When the issue set is the whole live set and no other entry stands, CONVERGE and BAR.G, and BAR.T in a team with no other live group, leave every live thread runnable at the next packet in one entry. The last arrival at BAR.T of a team of several groups, whose other live groups all wait there with no render-target word in flight, leaves each of them runnable at the packet after its own BAR.T (R82, R240). When another live thread is still runnable elsewhere, the issue set stands in the wait of its kind at the word, and no other thread of the group moves. When the arrival leaves every live thread parked in the three kinds and none of them complete, the group takes cause 0x03 if every thread stands in CONVERGE and 0x0C otherwise, with the bitmap of the live threads and the place of the first entry (R76), which is the lowest where the table stands in order (R236). -/
def Obligations.Convergence : Prop :=
  ∀ (s : State) (c : Cur) (g : Group), s.issuing c g → g.life = .resident → c.map ≠ 0 →
    (c.map = g.live → g.bbt = [] → g.parked = [] →
      ∀ i ∈ [Instr.converge, .barG], becomes i s c.gid (fun t h =>
        h.bbt = [⟨g.live, c.pc + 12, 0, .runnable, 0, 0⟩] ∧ h.blk = none ∧ h.regs = g.regs ∧ h.live = g.live ∧ t.cur = none)) ∧
    (c.map = g.live → g.bbt = [] → g.parked = [] → s.groups.filter (fun e => e.2.team == g.team) = [(c.gid, g)] →
      becomes .barT s c.gid (fun t h =>
        h.bbt = [⟨g.live, c.pc + 12, 0, .runnable, 0, 0⟩] ∧ h.blk = none ∧ h.regs = g.regs ∧ h.live = g.live ∧ t.cur = none)) ∧
    (∀ u pc slot, g.stands u pc slot .runnable → g.live.getLsbD u = true → c.map.getLsbD u = false →
      (∀ pc' slot' w, w ≠ .runnable → ¬ g.stands u pc' slot' w) →
      ∀ e ∈ [(Instr.converge, BbtWait.converge), (.barG, .barG), (.barT, .barT)], becomes e.1 s c.gid (fun t h =>
        h.regs = g.regs ∧ h.live = g.live ∧ h.blk = none ∧ h.parked = g.parked ∧ (s.targets = [] → t.mem = s.mem) ∧
        ∀ t' pc' slot' w, h.stands t' pc' slot' w ↔
          g.stands t' pc' slot' w ∨ (c.map.getLsbD t' = true ∧ pc' = c.pc ∧ slot' = c.slot ∧ w = e.2))) ∧
    (c.map = g.live → g.bbt = [] → g.parked = [] → s.targets = [] → SMap.rises s.groups →
      (∀ e ∈ s.groups, e.2.team = g.team → e.1 ≠ c.gid → e.2.live ≠ 0 →
        e.2.life = .resident ∧ e.2.waiting .barT = e.2.live ∧ ∀ f ∈ e.2.bbt, f.wait = .barT) →
      ∃ t, exec .barT s = .next t ∧ t.cur = none ∧ ∀ id a, SMap.find s.groups id = some a → a.team = g.team → a.live ≠ 0 →
        ∃ h, SMap.find t.groups id = some h ∧ h.regs = a.regs ∧ h.live = a.live ∧
          (id = c.gid → h.bbt = [⟨g.live, c.pc + 12, 0, .runnable, 0, 0⟩]) ∧
          (id ≠ c.gid → ∀ u pc slot w, h.stands u pc slot w ↔
            ∃ pc' slot', a.stands u pc' slot' .barT ∧ pc = pc' + 12 ∧ slot = 0 ∧ w = .runnable)) ∧
    (∀ e ∈ [(Instr.converge, BbtWait.converge), (.barG, .barG), (.barT, .barT)], ∀ ps hs : List Nat,
      let p := { g with bbt := bbtEnter g.bbt ⟨c.map, c.pc, c.slot, e.2, 0, 0⟩, blk := none }
      let cause := if p.waiting .converge = g.live then 0x03 else 0x0C
      s.targets = [] → g.parked = [] → g.live ≠ 0 → (∀ f ∈ g.bbt, f.wait ≠ .runnable) →
      (∀ f ∈ p.bbt, f.wait = .converge → f.map ≠ g.live) → p.waiting .barG ≠ g.live → p.waiting .barT ≠ g.live →
      s.mayTrap p cause ps hs → ∃ t, exec e.1 s = .next t ∧ s.trapped c.gid p cause g.live 0 false ps t ∧
        ∀ f, p.bbt.head? = some f → f.slot < 3 →
          (let h := headerOf (wordsNat ((t.readPages g.core ps).take 16))
           h.pc = f.pc % 2 ^ 48 ∧ h.slot = f.slot))

/-- O16. With the group table in order (O56), after EXIT or TASKEND of a whole live set, or with another thread runnable, and with no task's remote stash store held up (R287), no thread of the issue set is live, and every other live thread of the group is; where none is left the group has gone or has ended. YIELD and SAFEPT leave the issue set runnable at the next packet, YIELD held back for 8 clocks; SAFEPT reloads the safe-point budget and, with a pre-emption request standing, stops the group, once the other half of its paired grid no longer runs out its steps. SLEEP in supervisor mode parks the issue set with its limit and in user mode raises 0x02. TRIGGER outside tasks and batches marks the issue set as triggered. -/
def Obligations.EndsAndHolds : Prop :=
  ∀ (s : State) (c : Cur) (g : Group) (n : Nat), s.issuing c g → c.map ≠ 0 →
    (SMap.rises s.groups →
      (g.live &&& ~~~c.map = 0 ∨ ∃ u pc slot, g.stands u pc slot .runnable ∧ c.map.getLsbD u = false) →
      (g.tasksIn c.map = true → s.stashStuck c.gid = false) →
      ∀ i ∈ [Instr.exit, .taskend], ∃ t, exec i s = .next t ∧ t.cur = none ∧
      match SMap.find t.groups c.gid with
      | some h => h.live = g.live &&& ~~~c.map
      | none => g.live &&& ~~~c.map = 0) ∧
    moves .yield s c g (fun h => h.regs = g.regs ∧ h.blk = none ∧ (∃ e ∈ h.bbt, e.pc = c.pc + 12 ∧ e.slot = 0 ∧
        e.wait = .runnable ∧ c.map &&& ~~~e.map = 0) ∧
      ((∀ e ∈ g.bbt, e.pc ≠ c.pc + 12) → ∃ e ∈ h.bbt, e.map = c.map ∧ e.pc = c.pc + 12 ∧ e.held = s.clock + 8)) ∧
    (g.trap.preempt = false → g.trap.stopped = false → moves .safept s c g (fun h => h.regs = g.regs ∧ h.blk = none ∧
      h.trap.safecnt = s.budgetOf g ∧ h.trap.stopped = false ∧
      ∀ t pc slot w, h.stands t pc slot w ↔
        g.stands t pc slot w ∨ (c.map.getLsbD t = true ∧ pc = c.pc + 12 ∧ slot = 0 ∧ w = .runnable))) ∧
    (g.trap.preempt = true → s.runsOut g = true → exec .safept s = .next (s.stopAt c .wait)) ∧
    (g.trap.preempt = true → s.runsOut g = false → becomes .safept s c.gid (fun t h => h.trap.stopped = true ∧ h.regs = g.regs ∧ h.blk = none ∧
      t.mem = s.mem ∧ ∀ t pc slot w, h.stands t pc slot w ↔
        g.stands t pc slot w ∨ (c.map.getLsbD t = true ∧ pc = c.pc + 12 ∧ slot = 0 ∧ w = .runnable))) ∧
    (g.trap.mode = true → g.firsts = [] → becomes (.sleep n) s c.gid (fun t h => h.regs = g.regs ∧ t.mem = s.mem ∧
      h.parked = g.parked ++ [⟨c.map, c.pc, c.slot,
        .sleep (if g.regs.getS n = 0 then 0 else s.clock + 1400 * (g.regs.getS n).toNat), s.clock, s.clock⟩])) ∧
    (g.trap.mode = false → raises (.sleep n) s c 0x02 c.map) ∧
    (g.isTask = false → g.batch = none → s.stashStuck c.gid = false →
      becomes .trigger s c.gid (fun t h => h.triggered = g.triggered ||| c.map ∧ h.live = g.live ∧ t.cur = none ∧
        ((∀ o ∈ s.mesh, o.stashOf c.gid = false) → h.regs = g.regs))) ∧
    ((g.isTask = true ∨ g.batch.isSome = true) → s.stashStuck c.gid = false →
      moves .trigger s c g (fun h => h.regs = g.regs ∧ h.triggered = g.triggered))

/-- O17. A cause of a group without replay tasks or a tile, whose frame and header pages translate, is taken at level S when the group is in supervisor mode, in level U's handler, has no user handler, or the cause is 0x02, 0x14 or 0x15, else at level U. The frame receives the header (FMAP, FADDR, PC, slot, PMODE, CAUSE, number of images), s0 to s7, v0 and v1; every live thread then stands in one entry at SHVEC or base + UHVEC, the mode is the level's, no thread waits, and the registers stand. TRAP is this with cause 0x0F and its tag, saved at the next packet; a packet that fails its check is this with 0x01 and the offending slot. With LEVEL S, or with any level active at cause 0x14 (R451), or with SHVEC misaligned for a supervisor trap, or with a frame page that does not translate, the group instead ends by double trap: no thread of it stays live, and the record of R368 goes to the context's error log, with the cause, or 0x3F for the last two. -/
def Obligations.TakingATrap : Prop :=
  ∀ (s : State) (c : Cur) (g : Group) (b : Block) (r : Raise) (tag slot : Nat) (ps hs : List Nat),
    s.issuing c g → g.blk = some b → g.isTask = false → g.tile = none → g.frameWait = none → r.fmap ≠ 0 → c.map ≠ 0 →
    r.cause < 64 → c.slot < 3 → tag < 2 ^ 12 → slot < 3 →
    let handled := fun (i : Option Instr) (r : Raise) =>
      let super := g.trap.mode || g.trap.level == .user || [0x02, 0x14, 0x15].contains r.cause || g.trap.uhvec == 0xFFFFFFFF
      let shvec := (s.ctx g.ctx).shvec
      let start := if super then shvec else g.code + g.trap.uhvec.toNat
      let nent := (if r.cause = 0x0F then { g with blk := some { b with pc := c.pc + 12, slot := 0 } } else g).images.length
      g.trap.level ≠ .super → (r.cause = 0x14 → g.trap.level = .none) → shvec % 256 = 0 → nent ≤ 64 → (ps ++ hs).Pairwise (fun p q => p + 4096 ≤ q ∨ q + 4096 ≤ p) →
      s.pagesOf g .write (g.trap.gcb + if super then 0x3000 else 0x1000) 2 = .ok ps → s.pagesOf g .write g.trap.gcb 1 = .ok hs →
      ∃ (t : State) (h : Group), (match i with
          | some i => exec i s = .next t
          | none => s.stopAt c (.trap r) = t) ∧
        SMap.find t.groups c.gid = some h ∧ t.cur = none ∧ h.regs = g.regs ∧ h.live = g.live ∧
        h.bbt = [⟨g.live, start, 0, .runnable, 0, 0⟩] ∧ h.parked = [] ∧ h.blk = none ∧
        h.trap.mode = super ∧ h.trap.level = (if super then .super else .user) ∧
        (let ws := t.readPages g.core ps
         let f := headerOf (wordsNat (ws.take 16))
         f.fmap = r.fmap ∧ f.faddr = r.faddr % 2 ^ 64 ∧ f.pc = c.pc % 2 ^ 48 ∧ f.slot = c.slot ∧ f.nent = nent ∧ f.nstep = 0 ∧
         f.async = false ∧ f.pmode = g.trap.mode ∧ f.cause = r.cause ∧
         (∀ k, k < 8 → ws.getD (32 + k) 0 = g.regs.getS k) ∧
         (∀ k, k < g.width → k < 64 → ws.getD (64 + k) 0 = g.regs.getV k 0 ∧ ws.getD (128 + k) 0 = g.regs.getV k 1))
    handled (some (.trap tag)) ⟨0x0F, c.map, tag⟩ ∧ handled (some (.illegalEncoding slot)) ⟨0x01, c.map, slot⟩ ∧ handled none r ∧
    (let super := g.toSuper r.cause
     let refused := ∃ va, ∃ x ∈ [Xlat.absent, .denied],
       s.pagesOf g .write (g.trap.gcb + if super then 0x3000 else 0x1000) 2 = .error (va, x)
     let twice := g.trap.level = .super ∨ (r.cause = 0x14 ∧ g.trap.level ≠ .none)
     SMap.rises s.groups → g.live ≠ 0 → twice ∨ (super = true ∧ (s.ctx g.ctx).shvec % 256 ≠ 0) ∨ refused →
       (match SMap.find (s.stopAt c (.trap r)).groups c.gid with
         | some h => h.live = 0
         | none => True) ∧
       ∃ (u : State) (cause2 : Nat), s.stopAt c (.trap r) = u.logError g.ctx (2 ^ 120 + c.pc % 2 ^ 48 * 2 ^ 72 + gridNumber g.grid * 2 ^ 40
         + g.core * 2 ^ 34 + g.gcn * 2 ^ 26 + g.frameCause * 2 ^ 20 + cause2 * 2 ^ 14) ∧
         (twice → cause2 = r.cause) ∧ (¬ twice → cause2 = 0x3F))

/-- O18. With a frame active, not of cause 0x14, readable, its zero fields zero, without step records, whose 1 to 64 images, less the threads that have ended in the handler, are runnable, share no thread, lie within the threads live at the trap and hold exactly the live threads that no wait of the handler parks (log 151), and no task with replay in the group, ERET leaves each live thread standing where its image says, restores s0 to s7, p1 to p7, v0, v1 and the constant window, sets the mode to PMODE (user from level U) and the level to U when returning from S above U, else to none; every other register stands. With no frame active it raises 0x01; a frame page that is not present gives 0x05 and one that is refused 0x06 (log 82); from a frame of cause 0x14, with the group table in order (O56), every live thread ends. -/
def Obligations.ReturningFromATrap : Prop :=
  ∀ (s : State) (c : Cur) (g : Group) (ps : List Nat) (l : List BbtEntry), s.issuing c g → c.map ≠ 0 →
    (g.trap.level = .none → raises .eret s c 0x01 c.map) ∧
    (∀ va, g.trap.level ≠ .none → g.frameCause ≠ 0x14 →
      (s.pagesOf g .read g.frame 2 = .error (va, .absent) → raises .eret s c 0x05 c.map) ∧
      (s.pagesOf g .read g.frame 2 = .error (va, .denied) → raises .eret s c 0x06 c.map)) ∧
    (SMap.rises s.groups → g.trap.level ≠ .none → g.frameCause = 0x14 → ∃ t, exec .eret s = .next t ∧
      match SMap.find t.groups c.gid with
      | some h => h.live = 0
      | none => True) ∧
    (let ws := s.readPages g.core ps
     let f := headerOf (wordsNat (ws.take 16))
     let was := if g.trap.level = .super then g.trap.liveS else g.trap.liveU
     let win := if g.trap.level = .super then g.trap.winS else g.trap.winU
     g.trap.level ≠ .none → g.frameCause ≠ 0x14 → s.pagesOf g .read g.frame 2 = .ok ps → g.tile = none → g.live ≠ 0 →
     g.life = .resident → g.width ≤ 64 →
     frameZeros ws = true → (∀ e ∈ g.tasks, e.2.replay = false) → (∀ pa ∈ ps, poisoned s.mem.poison pa 4096 = false) →
     1 ≤ f.nent → f.nent ≤ 64 → f.nstep = 0 → imagesOf g.code (was &&& ~~~g.live) (ws.drop 192) f.nent = some l →
     (∀ e ∈ l, e.wait = .runnable ∧ e.map &&& ~~~was = 0) → l.Pairwise (fun e e' => e.map &&& e'.map = 0) →
     (∀ t, t < 64 → ((g.live.getLsbD t = true ∧ g.parkedMap.getLsbD t = false) ↔ ∃ e ∈ l, e.map.getLsbD t = true)) →
     becomes .eret s c.gid (fun _ h =>
       (∀ t pc slot, t < 64 → (h.stands t pc slot .runnable ↔
         g.live.getLsbD t = true ∧ ∃ e ∈ l, e.map.getLsbD t = true ∧ e.pc = pc ∧ e.slot = slot)) ∧
       (∀ k, h.regs.getS k = if k < 8 then ws.getD (32 + k) 0 else g.regs.getS k) ∧
       (∀ k t, 1 ≤ k → k < 8 → t < 64 → (h.regs.getP k).getLsbD t = (joinPair (ws.getD (38 + 2 * k) 0) (ws.getD (39 + 2 * k) 0)).getLsbD t) ∧
       (∀ t k, k < 64 → h.regs.getV t k = if t < g.width ∧ k < 2 then ws.getD (64 + 64 * k + t) 0 else g.regs.getV t k) ∧
       h.regs.h = g.regs.h ∧ h.regs.claims = g.regs.claims ∧ h.regs.fstat = g.regs.fstat ∧
       h.regs.cwBank = win / 256 ∧ h.regs.cwIdx = win % 256 ∧ h.live = g.live ∧
       h.trap.mode = (decide (g.trap.level = .super) && f.pmode) ∧
       h.trap.level = (if g.trap.level = .super ∧ g.trap.inU = true then .user else .none)))

/-- O19. CSRR writes sY with the CSR's value, CSRW changes the CSR alone (FSTAT its six bits, UIEN bit 0, SHVEC and KAB by halves, SNAPCTL two bits); SNAPTRIG reads 0 and a write of it fires the trigger with its tag, unless a snapshot is held; a number that R220 does not list, and a write to a read-only CSR, fail the packet check (0x01, which R37 puts before 0x02); a listed number from 0x100 on, for a write a writable one, in user mode raises 0x02, and a UHVEC that is neither all ones nor a multiple of 12 raises 0x01, changing nothing. TLBI in supervisor mode removes every cached translation its kind covers, and in user mode raises 0x02. SNAP latches a snapshot with its tag where it may and none is held, and otherwise has no effect. -/
def Obligations.SystemWords : Prop :=
  ∀ (s : State) (c : Cur) (g : Group) (n y tag : Nat), s.issuing c g →
    let x := s.ctx g.ctx
    let w := g.regs.getS y
    let csr := fun (n : Nat) (v : Nat) => leaves (.csrr n y) s c g (g.regs.onlyS y (BitVec.ofNat 32 v))
    let writes := fun (n : Nat) (u : State) => ∃ t, exec (.csrw n y) s = .next t ∧ u.passed c g g.regs t
    let ctx := fun (f : Ctx → Ctx) => writes n { s with ctxs := SMap.put s.ctxs g.ctx (f x) }
    csr 0x000 g.regs.fstat.toNat ∧ csr 0x001 g.trap.uhvec.toNat ∧ csr 0x002 (if g.trap.uien then 1 else 0) ∧
    (g.trap.level = .none → csr 0x003 0 ∧ csr 0x004 0) ∧
    (g.trap.level = .user → csr 0x003 (g.trap.gcb + 0x1000) ∧ csr 0x004 ((g.trap.gcb + 0x1000) / 2 ^ 32 % 2 ^ 16)) ∧
    (g.trap.level = .super → csr 0x003 (g.trap.gcb + 0x3000) ∧ csr 0x004 ((g.trap.gcb + 0x3000) / 2 ^ 32 % 2 ^ 16)) ∧
    csr 0x005 g.trap.safecnt ∧
    (g.trap.mode = true → csr 0x100 x.shvec ∧ csr 0x101 (x.shvec / 2 ^ 32 % 2 ^ 16) ∧
      csr 0x102 (x.kab % 2 ^ 32 / 2 ^ 29 * 2 ^ 29) ∧ csr 0x103 (x.kab / 2 ^ 32 % 2 ^ 16) ∧
      csr 0x104 (x.tag % 2 ^ 16) ∧ csr 0x105 (x.pasid % 2 ^ 20) ∧ csr 0x110 0 ∧ csr 0x111 (s.snap.snapctl % 4)) ∧
    (g.trap.mode = false → n ∈ [0x100, 0x101, 0x102, 0x103, 0x104, 0x105, 0x110, 0x111] → raises (.csrr n y) s c 0x02 c.map ∧
      (n ≠ 0x104 → n ≠ 0x105 → raises (.csrw n y) s c 0x02 c.map)) ∧
    (n ∉ [0, 1, 2, 3, 4, 5, 0x100, 0x101, 0x102, 0x103, 0x104, 0x105, 0x110, 0x111] →
      ∀ h k, wordFits h k (.csrr n y) = false ∧ wordFits h k (.csrw n y) = false) ∧
    (n ∈ [3, 4, 5, 0x104, 0x105] → ∀ h k, wordFits h k (.csrw n y) = false) ∧
    leaves (.csrw 0x000 y) s c g (fun r => r = { g.regs with fstat := w &&& 0x3F }) ∧
    (w = 0xFFFFFFFF ∨ w.toNat % 12 = 0 → becomes (.csrw 0x001 y) s c.gid (fun _ h => h.trap.uhvec = w ∧ h.regs = g.regs)) ∧
    (w ≠ 0xFFFFFFFF → w.toNat % 12 ≠ 0 → raises (.csrw 0x001 y) s c 0x01 c.map) ∧
    becomes (.csrw 0x002 y) s c.gid (fun _ h => h.trap.uien = w.getLsbD 0 ∧ h.regs = g.regs) ∧
    (g.trap.mode = true →
      (n = 0x100 → ctx (fun k => { k with shvec := k.shvec / 2 ^ 32 * 2 ^ 32 + w.toNat })) ∧
      (n = 0x101 → ctx (fun k => { k with shvec := k.shvec % 2 ^ 32 + w.toNat % 2 ^ 16 * 2 ^ 32 })) ∧
      (n = 0x102 → ctx (fun k => { k with kab := k.kab / 2 ^ 32 * 2 ^ 32 + w.toNat / 2 ^ 29 * 2 ^ 29 })) ∧
      (n = 0x103 → ctx (fun k => { k with kab := k.kab % 2 ^ 32 + w.toNat % 2 ^ 16 * 2 ^ 32 })) ∧
      writes 0x111 { s with snap := { s.snap with snapctl := w.toNat % 4 } } ∧
      (s.snap.held = false → ∃ l, writes 0x110 { s with
        snap := { s.snap with held := true, tag := w.toNat % 2 ^ 8, src := 1, clk := s.clock % 2 ^ 32, latched := l } }) ∧
      (s.snap.held = true → writes 0x110 s)) ∧
    (g.trap.mode = true → ∀ kind, ∃ t, exec (.tlbi y kind) s = .next t ∧
      ∀ e ∈ t.trans.tlb, e ∈ s.trans.tlb ∧ kind ≠ 0 ∧
        (kind = 1 → e.ctxid ≠ (g.regs.getS (y + 2)).toNat % 2 ^ 16) ∧ (kind = 3 → e.pasid ≠ (g.regs.getS (y + 2)).toNat % 2 ^ 20) ∧
        (kind = 4 → ¬ (e.s2 = true ∧ e.vmid = (g.regs.getS (y + 2)).toNat % 2 ^ 16)) ∧
        (kind = 2 → ¬ (e.ctxid = (g.regs.getS (y + 2)).toNat % 2 ^ 16 ∧
          e.va = ((g.regs.pairS y).toNat % 2 ^ 48) / 2 ^ e.bits * 2 ^ e.bits))) ∧
    (g.trap.mode = false → ∀ kind, raises (.tlbi y kind) s c 0x02 c.map) ∧
    (s.snap.held = false → (g.trap.mode = true ∨ s.snap.snapctl % 2 = 1) → ∃ l t, exec (.snap tag) s = .next t ∧
      State.passed { s with snap := { s.snap with held := true, tag := tag, src := 0, clk := s.clock % 2 ^ 32, latched := l } } c g g.regs t) ∧
    (s.snap.held = true ∨ (g.trap.mode = false ∧ s.snap.snapctl % 2 = 0) → moves (.snap tag) s c g (fun h => h.regs = g.regs))

/-- O20. A misaligned address incurs cause 0x04, and an aligned one of 2^48 or more cause 0x06, before any translation. An aligned 48-bit address in a present line of a mapped window reaches the line's byte when the rights of its page and the carve-outs (R456) allow, and else incurs 0x06; one in a line whose fill has failed incurs the cause kept for it (log 150, the model's choice), and one in an absent line waits for it. Outside every window, a sealed tile of the aperture incurs 0x08 for a load and 0x06 for a store, a filling one is reached in the tile unless a pending copy keeps the line absent, when the access waits, and an aperture address of no tile, or any atomic there, incurs 0x06. Elsewhere the translation decides: a page not present incurs 0x05, a right missing 0x06, a table entry with an uncorrectable error 0x15, and a translated address reaches memory. A read or an atomic of a word with an uncorrectable error incurs 0x15. -/
def Obligations.AddressFaults : Prop :=
  ∀ (s : State) (g : Group) (va size : Nat) (acc : Access) (atomic : Bool), 0 < size →
    (va % size ≠ 0 → s.spot g va size acc atomic = .fail 0x04) ∧
    (va % size = 0 → 2 ^ 48 ≤ va → s.spot g va size acc atomic = .fail 0x06) ∧
    (va % size = 0 → va < 2 ^ 48 →
      (∀ tm n l, SMap.find s.teams g.team = some tm → tm.windowOf va = some (n, l) →
        ((∀ e, SMap.find tm.lines (n * 65536 + l) = some e → e.present = true →
          s.spot g va size acc atomic =
            if (acc = .write ∧ e.w = false) ∨ (g.trap.mode = false ∧ e.u = false) ∨ s.svc.barred g.ctx e.pa = true then .fail 0x06
            else if (acc = .read ∨ atomic = true) ∧ poisoned s.mem.poison (e.pa + va % 256) size = true then .fail 0x15
            else .mem (e.pa + va % 256)) ∧
        (∀ e, SMap.find tm.lines (n * 65536 + l) = some e → e.present = false → e.cause ≠ 0 →
          s.spot g va size acc atomic = .fail e.cause) ∧
        ((∀ e, SMap.find tm.lines (n * 65536 + l) = some e → e.present = false ∧ e.cause = 0) →
          s.spot g va size acc atomic = .park (.window g.team n l)))) ∧
      ((∀ tm, SMap.find s.teams g.team = some tm → tm.windowOf va = none) →
        ((s.ctx g.ctx).inAperture va = true →
          (s.apertureTile g.ctx va = none → s.spot g va size acc atomic = .fail 0x06) ∧
          ∀ tl o, s.apertureTile g.ctx va = some (tl, o) →
            s.spot g va size acc atomic = if atomic = true then .fail 0x06 else
              if tl.sealed = true then .fail (if acc = .write then 0x06 else 0x08)
              else if s.tileAbsent tl.core tl.slot o size = true then .park (.tileLine tl.core tl.slot (o / 256))
              else if acc = .read ∧ poisoned tl.poison o size = true then .fail 0x15
              else .tile tl.core tl.slot o) ∧
        ((s.ctx g.ctx).inAperture va = false →
          (s.translate (g.req (.core g.core) acc) va = .absent → s.spot g va size acc atomic = .fail 0x05) ∧
          (s.translate (g.req (.core g.core) acc) va = .denied → s.spot g va size acc atomic = .fail 0x06) ∧
          (s.translate (g.req (.core g.core) acc) va = .soft → s.spot g va size acc atomic = .fail 0x15) ∧
          (∀ gpa, s.translate (g.req (.core g.core) acc) va = .stage2 gpa → s.spot g va size acc atomic = .page gpa) ∧
          (∀ pa e, s.translate (g.req (.core g.core) acc) va = .ok pa e → s.spot g va size acc atomic =
            if (acc = .read ∨ atomic = true) ∧ poisoned s.mem.poison pa size = true then .fail 0x15 else .mem pa))))

/-- O21. When every guarded lane's address (base plus the scaled signed offset) reaches memory, no registration of a sector read and no render-target word of the group is in flight, and the tables of the hierarchy are in order (O55), the word completes: each guarded lane's registers from vT on hold the words at its address as its core reads them, lowest first, under its task's own tentative bytes (a copy may have given way to the slice's word where another lane's access fills the sector or evicts the line); every other register and all other state but the caches stand, and so does every byte of memory, outside words with a registration in flight, as the slices answer it and as any core reads it, but for such copies. The same holds where every guarded lane reaches a filling Kennel tile, whose bytes it reads. -/
def Obligations.LoadsRead : Prop :=
  ∀ (s : State) (c : Cur) (g : Group) (t a : Nat) (as : Bool) (p o : Nat), s.issuing c g →
    ∀ e ∈ [(Instr.ld t a as p o, 1), (.ldB64 t a as p o, 2), (.ldB128 t a as p o, 4)], t + e.2 ≤ 64 → s.noTargets c.gid →
    let addr := laneAddr g a as ((BitVec.ofNat 8 o).toInt * (4 * e.2 : Nat))
    (∀ pa, s.lanesReach c g p .read false (4 * e.2) addr pa → s.mem.risen →
      (∀ l i, c.on g p l = true → i < e.2 → s.mem.quiet (pa l / 4 + i)) →
      ∃ m tr u r v, exec e.1 s = .next u ∧ ({ s with mem := m, trans := tr }).passed c g r u ∧
        g.regs.onlyRun t e.2 (c.on g p) v r ∧ (∀ l i, c.on g p l = true → i < e.2 → s.takes g l (pa l) i (v l i)) ∧
        s.mem.sameBytes m s.mem.inFlight) ∧
    (∀ sp : Nat → Nat × Nat × Nat,
      (∀ l, c.on g p l = true → s.spot g (addr l) (4 * e.2) .read false = .tile (sp l).1 (sp l).2.1 (sp l).2.2) →
      ∃ tr u r, exec e.1 s = .next u ∧ ({ s with trans := tr }).passed c g r u ∧
        g.regs.onlyRun t e.2 (c.on g p) (fun l i => s.sees g l (.tile (sp l).1 (sp l).2.1 (sp l).2.2) i) r)

/-- O22. When every guarded lane's address reaches memory, no guarded lane has a task with replay, no other core's registration of a stored word and no render-target word of the group is in flight, and the tables of the hierarchy are in order (O55), the word completes: the core reads each lane's stored words back, the highest lane's where lanes store to one word, every byte outside the stored words and the words with a registration in flight reads on every core and at the slices as before (a copy in a core may have given way to what the slices answer), and no register and nothing else but the caches changes. A single lane's store to a filling Kennel tile writes the tile's bytes, and a single store in a task with replay and a free granule is kept by the task, memory standing. -/
def Obligations.StoresWrite : Prop :=
  ∀ (s : State) (c : Cur) (g : Group) (t a : Nat) (as : Bool) (p o : Nat), s.issuing c g →
    ∀ e ∈ [(Instr.st t a as p o, 1), (.stB64 t a as p o, 2), (.stB128 t a as p o, 4)], t + e.2 ≤ 64 → s.noTargets c.gid →
    let addr := laneAddr g a as ((BitVec.ofNat 8 o).toInt * (4 * e.2 : Nat))
    let plain := fun l => ∀ q, SMap.find g.tasks l = some q → q.replay = false
    (∀ pa, s.lanesReach c g p .write false (4 * e.2) addr pa → (∀ l, c.on g p l = true → plain l) → s.mem.risen →
      (∀ l i, c.on g p l = true → i < e.2 → s.mem.ownOnly g.core (pa l / 4 + i)) →
      ∃ m tr u, exec e.1 s = .next u ∧ ({ s with mem := m, trans := tr }).passed c g g.regs u ∧
        (∀ l i, c.on g p l = true → i < e.2 →
          (∀ k j, l < k → c.on g p k = true → j < e.2 → pa k / 4 + j ≠ pa l / 4 + i) →
          m.coreWord g.core (pa l / 4 + i) = g.regs.getV l (t + i)) ∧
        s.mem.sameBytes m (fun b => s.mem.inFlight b ∨ ∃ l, c.on g p l = true ∧ pa l ≤ b ∧ b < pa l + 4 * e.2)) ∧
    (∀ l, (∀ k, c.on g p k = true ↔ k = l) →
      (∀ tl off, s.spot g (addr l) (4 * e.2) .write false = .tile tl.core tl.slot off → s.kennel.tileAt tl.core tl.slot = some tl →
        plain l →
        let bs := Memory.write tl.bytes off ((List.range e.2).flatMap (fun i => wordBytes4 (g.regs.getV l (t + i))))
        let ps := (List.range e.2).foldl (fun q i => unpoison q (off / 4 + i)) tl.poison
        ∃ tr u, exec e.1 s = .next u ∧
          ({ s with trans := tr, kennel := s.kennel.setTile { tl with bytes := bs, poison := ps } }).passed c g g.regs u) ∧
      (∀ pa q, s.lanesReach c g p .write false (4 * e.2) addr pa → SMap.find g.tasks l = some q → q.replay = true →
        g.granules < 256 → s.mem.risen →
        let ts := SMap.put g.tasks l (q.keep (pa l) ((List.range e.2).map (fun i => g.regs.getV l (t + i))))
        ∃ m tr u, exec e.1 s = .next u ∧ ({ s with mem := m, trans := tr }).passed c { g with tasks := ts } g.regs u ∧
          s.mem.sameBytes m s.mem.inFlight))

/-- O23. Below scope sys, LD.ord loads each guarded lane's word as LD does, and at scope sys what the slice answers, an owner's value forwarded; with acquire the core's words that it does not own become invalid afterwards. ST.ord stores as ST does, and at scope sys at the SLC, where hosts read it; with release the tasks of the issue set first commit and the release of the scope is performed for every thread. The lines of a store with release, or of scope sys, await evaluation as notifying writes. No other register changes, and outside words with a registration in flight no other byte of the memory that the release leaves. No render-target word of the group is in flight at its issue. -/
def Obligations.OrderedAccesses : Prop :=
  ∀ (s : State) (c : Cur) (g : Group) (t a : Nat) (as : Bool) (p r e : Nat) (pa : Nat → Nat),
    s.issuing c g → t < 64 → e < 5 → s.noTargets c.gid →
    let addr := laneAddr g a as 0
    let after := fun (m : MemSys) => if r = 1 then m.acquire g.core e else m
    (s.lanesReach c g p .read false 4 addr pa → s.mem.risen → (∀ l, c.on g p l = true → s.mem.quiet (pa l / 4)) →
      (e < 4 → ∃ m tr u q v, exec (.ldOrdered t a as p r e) s = .next u ∧
        ({ s with mem := after m, trans := tr }).passed c g q u ∧
        g.regs.onlyV t (c.on g p) v q ∧ (∀ l, c.on g p l = true → s.takes g l (pa l) 0 (v l)) ∧
        s.mem.sameBytes m s.mem.inFlight) ∧
      (e = 4 → ∃ m tr u q, exec (.ldOrdered t a as p r e) s = .next u ∧
        ({ s with mem := after m, trans := tr }).passed c g q u ∧
        g.regs.onlyV t (c.on g p) (fun l => g.merged l (pa l) (s.mem.sliceWord (pa l / 4))) q ∧
        s.mem.sameBytes m s.mem.inFlight ∧
        (∀ l, c.on g p l = true → m.sliceWord (pa l / 4) = s.mem.sliceWord (pa l / 4)))) ∧
    (s.lanesReach c g p .write false 4 addr pa → (r = 2 → s.stashStuck c.gid = false) →
      (r ≠ 2 → ∀ q ∈ g.tasks, q.2.replay = false) →
      let v := if r = 2 then (s.commitTasks c.gid c.map).releaseBy c.gid e else s
      ∀ h, SMap.find v.groups c.gid = some h → v.mem.risen → (∀ l, c.on g p l = true → v.mem.ownOnly g.core (pa l / 4)) →
      ∃ m tr u, exec (.stOrdered t a as p r e) s = .next u ∧ ({ v with mem := m, trans := tr }).passed c h h.regs u ∧
        (∀ l, c.on g p l = true → (∀ k, l < k → c.on g p k = true → pa k / 4 ≠ pa l / 4) →
          (e < 4 → m.coreWord g.core (pa l / 4) = g.regs.getV l t) ∧
          (e = 4 → m.slcWord (pa l / 4) = g.regs.getV l t ∧ m.sliceWord (pa l / 4) = g.regs.getV l t)) ∧
        v.mem.sameBytes m (fun b => v.mem.inFlight b ∨ ∃ l, c.on g p l = true ∧ pa l / 4 = b / 4) ∧
        (r = 2 ∨ e = 4 → ∀ l, c.on g p l = true → pa l / 256 ∈ m.notify))

/-- O24. When every guarded lane's address reaches memory at a word of its own (lanes that share a word are left out here) and no render-target word of the group is in flight, the tasks concerned commit (with a release those of the issue set, without one those of the lanes whose guard is true: log 44), a release of the ordering is performed, and each word becomes its operation of R34 on the latest value (the core's own where it owns the word, or the slice's that answers for it) and vT (vT+1 for cas): in the core where the scope is below sys or the address falls in a window, else at the SLC. ATOM and ATOM.fadd write the old value to vT, RED no register; the lines await evaluation, an acquire follows, and no other byte changes outside words with a registration in flight. -/
def Obligations.AtomicAccesses : Prop :=
  ∀ (s : State) (c : Cur) (g : Group) (t a : Nat) (as : Bool) (p r e o : Nat) (pa : Nat → Nat),
    s.issuing c g → t + 1 < 64 → e < 5 → o < 8 → s.stashStuck c.gid = false → s.noTargets c.gid →
    let addr := laneAddr g a as 0
    s.lanesReach c g p .write true 4 addr pa →
    (∀ k l, c.on g p k = true → c.on g p l = true → pa k = pa l → k = l) →
    let rel := r = 2 ∨ r = 3
    let v := if rel then (s.commitTasks c.gid c.map).releaseBy c.gid e else s.commitTasks c.gid (c.onMap g p)
    ∀ h tm, SMap.find v.groups c.gid = some h → SMap.find v.teams g.team = some tm → v.mem.risen →
      (∀ l, c.on g p l = true → v.mem.quiet (pa l / 4)) →
    let far := fun l => e == 4 && (tm.windowOf (addr l)).isNone
    let owned := fun l => match SMap.find v.mem.l1 (l1Key g.core (pa l / 4)) with
      | some w => w.owned
      | none => false
    let latest := fun (old : Nat → Word) => ∀ l, c.on g p l = true → old l = v.mem.sliceWord (pa l / 4) ∨
      (far l = false ∧ owned l = true ∧ old l = v.mem.coreWord g.core (pa l / 4))
    let new := fun (f : Word → Word → Word → Word) (old : Nat → Word) l => f (h.regs.getV l t) (h.regs.getV l (t + 1)) (old l)
    let after := fun (m : MemSys) => if r = 1 ∨ r = 3 then m.acquire g.core e else m
    let does := fun (i : Instr) (back : Bool) (f : Word → Word → Word → Word) =>
      ∃ m tr u q old, exec i s = .next u ∧ ({ v with mem := after m, trans := tr }).passed c h q u ∧ latest old ∧
        h.regs.onlyV t (fun l => back && c.on g p l) old q ∧
        (∀ l, c.on g p l = true → pa l / 256 ∈ m.notify ∧
          (far l = true → m.slcWord (pa l / 4) = new f old l ∧ m.sliceWord (pa l / 4) = new f old l) ∧
          (far l = false → m.coreWord g.core (pa l / 4) = new f old l ∧ (owned l = false → m.sliceWord (pa l / 4) = new f old l))) ∧
        v.mem.sameBytes m (fun b => v.mem.inFlight b ∨ ∃ l, c.on g p l = true ∧ pa l / 4 = b / 4)
    let op : Word → Word → Word → Word := fun b b2 old => match o with
      | 0 => old + b
      | 1 => if old.toInt ≤ b.toInt then old else b
      | 2 => if b.toInt ≤ old.toInt then old else b
      | 3 => old &&& b
      | 4 => old ||| b
      | 5 => old ^^^ b
      | 6 => b
      | _ => if old = b then b2 else old
    let sum : Word → Word → Word → Word := fun b _ old => (fadd32 false old b).1
    does (.atom t a as p r e o) true op ∧ does (.atomFadd t a as p r e) true sum ∧
    does (.red t a as p r e o) false (if o = 6 then sum else op)

/-- O25. When some guarded lane's address of a load, store, ordered access or atomic incurs a cause, the word raises the first cause in the order 0x04, 0x07, 0x08, 0x06, 0x05 of R133, with 0x15 before them (R375, R464), that some guarded lane incurs, for exactly the lanes that incur it and with the lowest one's address (with 0x05, each task that aborts waits for its own lane's address), and nothing else takes effect. When every guarded lane waits for one absent window line, the word has no effect: with no ordering these lanes park at it and the others go on (R33, R143, R277), and with an acquire or a release the issue set parks (R137, R299). -/
def Obligations.AccessStops : Prop :=
  ∀ (s : State) (c : Cur) (g : Group) (t a : Nat) (as : Bool) (p o r e : Nat), s.issuing c g → s.stashStuck c.gid = false →
    ∀ w ∈ [(Instr.ld t a as p o, 1, Access.read, false), (.ldB64 t a as p o, 2, .read, false), (.ldB128 t a as p o, 4, .read, false),
      (.st t a as p o, 1, .write, false), (.stB64 t a as p o, 2, .write, false), (.stB128 t a as p o, 4, .write, false),
      (.ldOrdered t a as p r e, 0, .read, false), (.stOrdered t a as p r e, 0, .write, false), (.atom t a as p r e o, 0, .write, true),
      (.atomFadd t a as p r e, 0, .write, true), (.red t a as p r e o, 0, .write, true)],
    let size := if w.2.1 = 0 then 4 else 4 * w.2.1
    let addr := laneAddr g a as (if w.2.1 = 0 then 0 else (BitVec.ofNat 8 o).toInt * (4 * w.2.1 : Nat))
    let sp := fun l => s.spot g (addr l) size w.2.2.1 w.2.2.2
    (∀ k l, c.on g p l = true → sp l = .fail k → (∀ j, j < l → c.on g p j = true → sp j ≠ .fail k) →
      (∀ q j, c.on g p j = true → sp j = .fail q → q ∈ [0x15, 0x04, 0x07, 0x08, 0x06, 0x05]) →
      (∀ q, q ∈ [0x15, 0x04, 0x07, 0x08, 0x06, 0x05].takeWhile (fun x => x != k) → ∀ j, c.on g p j = true → sp j ≠ .fail q) →
      ∃ m : Lanes, (∀ j, m.getLsbD j = true ↔ c.on g p j = true ∧ sp j = .fail k) ∧
        exec w.1 s = .next (s.raiseAt c ⟨k, m, addr l⟩
          (if k = 0x05 then ((List.range g.width).filter (fun j => c.on g p j)).map (fun j => (j, addr j)) else []))) ∧
    (∀ tm n ln, c.onMap g p ≠ 0 → (∀ l, c.on g p l = true → sp l = .park (.window tm n ln)) →
      (r = 0 ∨ w.2.1 ≠ 0 → becomes w.1 s c.gid (fun u h => h.regs = g.regs ∧ u.mem = s.mem ∧ u.cur = none ∧
        (∃ b, h.parked = g.parked ++ [⟨c.onMap g p, c.pc, c.slot, .window tm n ln, b, s.clock⟩]) ∧
        (∀ b, h.blk = some b → b.map &&& c.onMap g p = 0))) ∧
      (r ≠ 0 → w.2.1 = 0 → becomes w.1 s c.gid (fun u h => h.regs = g.regs ∧ u.mem = s.mem ∧ u.cur = none ∧
        (∃ b, h.parked = g.parked ++ [⟨c.map, c.pc, c.slot, .window tm n ln, b, s.clock⟩]) ∧ h.blk = none)))

/-- O26. RGET writes vX:vX+1 of each thread of the issue set with the address of the record of its lane in the group's consumer batch, in commit order, and the second form vY with the number of records; outside a batch both are 0. No other register and nothing else changes. When the last thread of the group ceases to be live, every record of its batch returns to the Mire, whether or not steps of a linked tile stand queued. -/
def Obligations.BatchRecords : Prop :=
  ∀ (s : State) (c : Cur) (g : Group) (x y : Nat), s.issuing c g → x + 1 < 64 → y < 64 →
    let rec_ := fun t => BitVec.ofNat 64 (match g.batch with
      | some b => b.2.getD t 0
      | none => 0)
    let n := BitVec.ofNat 32 (match g.batch with
      | some b => b.2.length
      | none => 0)
    leaves (.rget x) s c g (g.regs.onlyPair x (c.runs g) rec_) ∧
    leaves (.rgetCount x y) s c g (fun r => r = { g.regs with v := r.v } ∧ ∀ t k, k < 64 → r.getV t k =
      if c.runs g t = false then g.regs.getV t k else if k = y then n else if k = x then lowWord (rec_ t)
      else if k = x + 1 then highWord (rec_ t) else g.regs.getV t k) ∧
    (∀ node l d r, g.batch = some (node, l) → SMap.find s.grids g.grid = some r → r.nodes[node]? = some d → 16 ≤ d.recsz →
      d.recsz % 16 = 0 →
      ∀ b ∈ (s.groupEnd c.gid).mire, b.ctx = g.ctx → ∀ a ∈ l, (s.ctx g.ctx).mcfg.base ≤ a →
        ∀ k, (a - (s.ctx g.ctx).mcfg.base) / 16 ≤ k → k < (a - (s.ctx g.ctx).mcfg.base) / 16 + d.recsz / 16 →
          ¬ (b.granule ≤ k ∧ k < b.granule + b.count))

/-- O27. A partial issue set raises 0x03; no graph or node, a count above 64 or a total beyond the node's ceiling raises 0x0E. A total of 0 completes at once with zeros. When the partition grants the run, each thread's pair receives the run's address plus the record size times the counts of the lanes below, 0 with a count of 0; the run is taken in the Mire, the reservations are noted, and the threads go on at the next packet. When it does not, the set parks at the word, and nothing else changes. -/
def Obligations.Reservations : Prop :=
  ∀ (s : State) (c : Cur) (g : Group) (x y node : Nat), s.issuing c g → x + 1 < 64 →
    let n := fun t => (g.regs.getV t y).toNat
    let sum := fun k => ((List.range k).map (fun t => if c.runs g t then n t else 0)).sum
    let i := Instr.rsv x y node
    (c.map ≠ g.live → raises i s c 0x03 c.map) ∧
    (c.map = g.live → (SMap.find s.grids g.grid).bind (fun r => r.nodes[node]?) = none → raises i s c 0x0E c.map) ∧
    ∀ r d, c.map = g.live → SMap.find s.grids g.grid = some r → r.nodes[node]? = some d → 16 ≤ d.recsz →
      let run := sum 64 * (d.recsz / 16)
      ((∃ t, c.runs g t = true ∧ 64 < n t) ∨ d.ceil < sum 64 → raises i s c 0x0E c.map) ∧
      ((∀ t, c.runs g t = true → n t ≤ 64) → sum 64 ≤ d.ceil →
        (sum 64 = 0 → moves i s c g (fun h => g.regs.onlyPair x (c.runs g) (fun _ => 0) h.regs ∧ g.nextPacket c h)) ∧
        (∀ a, sum 64 ≠ 0 → s.mireMay g (some node) run (g.firstAge c.map c.pc c.slot s.clock) = true →
          s.mireFit g.grid (some node) run = some a →
          let addr := fun t => if n t = 0 then 0 else (s.ctx g.ctx).mcfg.base + 16 * a + sum t * d.recsz
          let new := ((List.range g.width).filter (fun t => c.runs g t && n t != 0)).map (fun t => (⟨t, node, addr t, n t⟩ : Reservation))
          movesFrom { s with mire := s.mire ++ [⟨g.ctx, g.grid, some node, d.mpart, a, run⟩] } i s c
            { g with resvs := g.resvs ++ new } (fun h =>
              g.regs.onlyPair x (c.runs g) (fun t => BitVec.ofNat 64 (addr t)) h.regs ∧ g.nextPacket c h)) ∧
        (sum 64 ≠ 0 → c.map ≠ 0 → s.mireMay g (some node) run (g.firstAge c.map c.pc c.slot s.clock) = false →
          becomes i s c.gid (fun t h => h.regs = g.regs ∧ t.mire = s.mire ∧ t.mem = s.mem ∧
            h.resvs = g.resvs ∧ g.parksAt c s.clock (.rsv x y node (sum 64)) h)))

/-- O28. A SPAWN by the whole live set whose offered records are aligned and inside the storage commits the issue set's tasks, releases at scope dev and appends the offering lanes' tasks, lowest lane first, with the records' bytes, to the grid's queue when the queue is granted room, queues instead the entries and records that SPAWN_GRANT has set aside for the word where it has, and parks the set with no other effect when no room is granted; an offer beyond the queue's ceiling raises 0x0E, a partial set 0x03. An RCOMMIT whose one counting thread names records of its own reservations appends them to their nodes in address order with the present time, and they leave the reservations; a run that lies in a lane's one reservation does so, and each record committed lies in a reservation of its lane; with a thread some of whose records lie in none it raises 0x0E for exactly these threads; with all counts 0 it only releases. -/
def Obligations.SpawnAndCommit : Prop :=
  ∀ (s : State) (c : Cur) (g : Group) (task x y p : Nat), s.issuing c g → s.stashStuck c.gid = false →
    let u := (s.commitTasks c.gid c.map).releaseBy c.gid 3
    let offer := g.regs.getP p &&& c.map
    let lanes := (List.range g.width).filter (fun t => offer.getLsbD t)
    let i := Instr.spawn task y p
    (c.map ≠ g.live → raises i s c 0x03 c.map) ∧
    (∀ r e tm gu, c.map = g.live → SMap.find s.grids g.grid = some r → r.taskTable[task]? = some e → g.width ≤ 64 →
      SMap.find s.teams g.team = some tm → SMap.find u.groups c.gid = some gu →
      (∀ t, t ∈ lanes → (g.regs.getV t y).toNat % 16 = 0 ∧ (g.regs.getV t y).toNat + e.arg ≤ tm.tlsSize) →
      let may := s.mireMay g none (offer.count * taskGranules r) (g.firstAge c.map c.pc c.slot s.clock)
      let due := g.grants.filter (fun x => x.pc == c.pc && x.slot == c.slot)
      let queues := fun (ms : List MireBlock) (qs : List QTask) =>
        let r2 : Grid := { r with tasks := r.tasks ++ qs }
        movesFrom { u with mire := u.mire ++ ms, grids := SMap.put s.grids g.grid r2 } i s c
          { gu with grants := gu.grants.filter (fun x => !due.contains x) } (fun h => h.regs = gu.regs)
      (r.lpb.tceil < offer.count → raises i s c 0x0E c.map) ∧
      (offer.count ≤ r.lpb.tceil →
        (offer = 0 → queues [] []) ∧
        (offer ≠ 0 → due ≠ [] → queues [] (due.map (fun x => ⟨task, x.record, x.entry⟩))) ∧
        (∀ as, offer ≠ 0 → due = [] → may = true → (s.taskRuns g (taskGranules r) lanes.length).2 = as → as.length = lanes.length →
          queues (as.map (fun a => ⟨g.ctx, g.grid, none, r.lpb.tpart, a, taskGranules r⟩))
            ((lanes.zip as).map (fun q => ⟨task, Memory.read tm.tls (g.regs.getV q.1 y).toNat e.arg, q.2⟩))) ∧
        (offer ≠ 0 → due = [] → may = false → becomes i s c.gid (fun t h => h.regs = g.regs ∧ t.mire = s.mire ∧ t.grids = s.grids ∧
          t.mem = s.mem ∧ g.parksAt c s.clock (.spawn task y offer) h)))) ∧
    (let n := fun t => (g.regs.getV t y).toNat
     let addr := fun t => (g.regs.pairV t x).toNat
     let cover := fun t => s.coverRecords g g.resvs t (addr t) (n t)
     let bad := fun t => c.runs g t = true ∧ n t ≠ 0 ∧ cover t = none
     ((∃ t, bad t) → ∃ m : Lanes, raises (.rcommit x y) s c 0x0E m ∧ ∀ t, m.getLsbD t = true ↔ bad t) ∧
     (∀ t l rest, cover t = some (l, rest) → l.length = n t ∧ (n t ≠ 0 → (l.head?).map Prod.snd = some (addr t)) ∧
       ∀ e ∈ l, ∃ q ∈ g.resvs, q.lane = t ∧ q.node = e.1 ∧ q.addr ≤ e.2 ∧
         e.2 + s.recSize g q.node ≤ q.addr + q.count * s.recSize g q.node) ∧
     (∀ t q, q ∈ g.resvs → q.lane = t → (∀ o ∈ g.resvs, o.lane = t → o = q) →
       let size := s.recSize g q.node
       0 < size → q.addr ≤ addr t → (addr t - q.addr) % size = 0 → addr t + n t * size ≤ q.addr + q.count * size →
       (cover t).map Prod.fst = some ((List.range (n t)).map (fun k => (q.node, addr t + k * size)))) ∧
     (∀ gu, SMap.find u.groups c.gid = some gu →
       ((∀ t, c.runs g t = true → n t = 0) → movesFrom u (.rcommit x y) s c gu (fun h => h.regs = gu.regs)) ∧
       (∀ t l rest r, (∀ k, c.runs g k = true ∧ n k ≠ 0 ↔ k = t) → cover t = some (l, rest) → SMap.find s.grids g.grid = some r →
         let new := l.foldl (fun m e => SMap.put m e.1 (SMap.getD m e.1 [] ++ [(⟨e.2, s.clock⟩ : Committed)])) r.committed
         let r2 : Grid := { r with committed := new }
         ∃ ms, movesFrom { u with grids := SMap.put s.grids g.grid r2, mireStir := ms } (.rcommit x y) s c { gu with resvs := rest }
           (fun h => h.regs = gu.regs))))

/-- O29. A load of a word with an uncorrectable error in some thread raises 0x15 for those threads, else a misaligned offset raises 0x04 for the misaligned threads, else an offset beyond the named team's storage or a refused address word raises 0x07 for those. When every lane reaches a present line of a resident team, a load writes each thread's registers with the bytes there, zero- or sign-extended, and changes nothing else; a store to the own team, beside its barriers in use, writes the registers' low bytes, the highest lane's where they overlap, and no other byte of the storage, and one to other ranks queues them on the mesh. Lanes at absent lines park there with no effect, and an evicted rank parks the whole set and is wanted. The 0x15 that comes first is R464 with the order of R375. An STX whose lanes name the own rank and others, and a word with lanes at present and at absent lines, are left out. -/
def Obligations.TeamStorage : Prop :=
  ∀ (s : State) (c : Cur) (g : Group) (x y z n : Nat), s.issuing c g → n < 7 → g.width ≤ 64 →
    let size := stashSize n
    x + (size + 3) / 4 ≤ 64 →
    ∀ e ∈ [(Instr.lds x y z n, false, false), (.sts x y z n, false, true), (.ldx x y z n, true, false), (.stx x y z n, true, true)],
    let sp := fun t => s.stashSpot g e.2.1 (!e.2.2) (g.regs.getV t y) (z * size) size
    (∀ k ∈ [0x15, 0x04, 0x07], (∃ t a, c.runs g t = true ∧ sp t = .inr (k, a)) →
      (∀ q ∈ [0x15, 0x04, 0x07].takeWhile (fun q => q != k), ∀ t a, c.runs g t = true → sp t ≠ .inr (q, a)) →
      ∃ m : Lanes, raises e.1 s c k m ∧ ∀ t, m.getLsbD t = true ↔ c.runs g t = true ∧ ∃ a, sp t = .inr (k, a)) ∧
    (∀ at_ : Nat → Nat × Nat, (∀ t, c.runs g t = true → sp t = .inl (at_ t)) →
      ((∃ t tm, c.runs g t = true ∧ SMap.find s.teams (at_ t).1 = some tm ∧ tm.life = .saved) →
        becomes e.1 s c.gid (fun u h => h.regs = g.regs ∧ u.mem = s.mem ∧ ∃ t tm, c.runs g t = true ∧ g.parksAt c s.clock (.rank (at_ t).1) h ∧
          SMap.find u.teams (at_ t).1 = some tm ∧ tm.wanted = true)) ∧
      ((∀ t tm, c.runs g t = true → SMap.find s.teams (at_ t).1 = some tm → tm.life ≠ .saved) →
        ((∀ t, c.runs g t = true → s.lineAbsent (at_ t).1 (at_ t).2 size = true) →
          becomes e.1 s c.gid (fun u h => h.regs = g.regs ∧ u.teams = s.teams ∧ u.mesh = s.mesh ∧
            ∀ t, c.runs g t = true → h.waits t c.pc c.slot (.line (at_ t).1 ((at_ t).2 / 256)))) ∧
        ((∀ t, c.runs g t = true → s.lineAbsent (at_ t).1 (at_ t).2 size = false) →
          (e.2.2 = false → (∀ o ∈ s.mesh, o.stashOf c.gid = false) →
            ∀ tm : Nat → Team, (∀ t, c.runs g t = true → SMap.find s.teams (at_ t).1 = some (tm t)) →
            leaves e.1 s c g (g.regs.onlyRun x (max 1 (size / 4)) (c.runs g) (fun t i =>
              let b := fun k => Memory.get (tm t).tls ((at_ t).2 + 4 * i + k)
              match n with
              | 0 => (b 0).setWidth 32
              | 1 => (b 1 ++ b 0).setWidth 32
              | 5 => (b 0).signExtend 32
              | 6 => (b 1 ++ b 0).signExtend 32
              | _ => b 3 ++ b 2 ++ b 1 ++ b 0))) ∧
          (e.2.2 = true → ∀ h, SMap.find (s.commitTasks c.gid c.map).groups c.gid = some h →
            (∀ tm, (∀ t, c.runs g t = true → (at_ t).1 = g.team) → SMap.find s.teams g.team = some tm → Memory.wf tm.tls = true →
              (∀ o ∈ s.barriers g.team, ∀ t, c.runs g t = true → (at_ t).2 + size ≤ o ∨ o + 16 ≤ (at_ t).2) →
              ∃ tls ps u, exec e.1 s = .next u ∧
                ({ s.commitTasks c.gid c.map with
                  teams := SMap.put s.teams g.team { tm with tls := tls, poison := ps } }).passed c h g.regs u ∧
                (∀ t b, c.runs g t = true → b < size →
                  (∀ k, t < k → c.runs g k = true → ¬ ((at_ k).2 ≤ (at_ t).2 + b ∧ (at_ t).2 + b < (at_ k).2 + size)) →
                  Memory.get tls ((at_ t).2 + b) = byteOf (g.regs.getV t (x + b / 4)) (b % 4)) ∧
                ∀ a, (∀ t, c.runs g t = true → ¬ ((at_ t).2 ≤ a ∧ a < (at_ t).2 + size)) → Memory.get tls a = Memory.get tm.tls a) ∧
            ((∀ t, c.runs g t = true → (at_ t).1 ≠ g.team) →
              ∃ u, exec e.1 s = .next u ∧
                ({ s.commitTasks c.gid c.map with
                  mesh := s.mesh ++ ((List.range g.width).filter (c.runs g)).map (fun t =>
                    MeshOp.stash c.gid (at_ t).1 (at_ t).2 (g.regs.low t x size)) }).passed c h g.regs u)))))

/-- O30. A block of sX whose base, offset and length are 256-byte multiples and whose window fits the team's space without overlap is recorded in the slot with no line present, as is a tensor block whose record is read and whose box is aligned; a misaligned one raises 0x04, one that does not fit 0x07. Unmapping removes the slot's window and lines; FLUSH keeps them, and the slices answer the owned words' values (for a word already written back, what the slice holds of it); each leaves no dirty sector of the window. INV drops the lines, and no word of them stays in the core. No register changes. The 0x04 for the offset and the length is log 47 (R142 gives it for the base), the fit is judged as log 48 has it, and the 0x13 of a refused record is left out. PREF changes no register and, outside words with a registration in flight, no value of memory: to the L1 it sends the sector misses of each line that an address reaches, but for lines of a window there. -/
def Obligations.StashWindows : Prop :=
  ∀ (s : State) (c : Cur) (g : Group) (x n l : Nat) (tm : Team), s.issuing c g → n < 8 → SMap.find s.teams g.team = some tm →
    SMap.rises tm.windows →
    let v := s.commitTasks c.gid c.map
    let base := (g.regs.pairS x).toNat
    let off := (g.regs.getS (x + 2)).toNat
    let len := (g.regs.getS (x + 3)).toNat
    let slot := fun (u : State) (w : Option Window) => ∃ t, SMap.find u.teams g.team = some t ∧ SMap.find t.windows n = w ∧
      (∀ k, k ≠ n → SMap.find t.windows k = SMap.find tm.windows k) ∧ t.tls = tm.tls ∧ ∀ e ∈ t.lines, e.1 / 65536 ≠ n
    let maps := fun (i : Instr) (w : Window) =>
      (s.windowFits g tm n w = true → w.gbase < 2 ^ 48 →
        becomes i s c.gid (fun u h => h.regs = g.regs ∧ u.cur = none ∧ slot u (some w))) ∧
      (s.windowFits g tm n w = false → raises i s c 0x07 c.map)
    (base % 256 = 0 → off % 256 = 0 → len % 256 = 0 → maps (.stashMap x false n) ⟨false, base, off, len, none, [], []⟩) ∧
    (base % 256 ≠ 0 ∨ off % 256 ≠ 0 ∨ len % 256 ≠ 0 → raises (.stashMap x false n) s c 0x04 c.map) ∧
    (base % 64 ≠ 0 ∨ off % 256 ≠ 0 → raises (.stashMap x true n) s c 0x04 c.map) ∧
    (∀ r, base % 64 = 0 → off % 256 = 0 → s.tensorAt c g base = .ok r →
      (∃ m, boxCheck c r base (boxOrigin g x) (boxExtents g x) = .ok m) →
      maps (.stashMap x true n) ⟨true, 0, off, boxBytes r (boxExtents g x), some r, boxOrigin g x, boxExtents g x⟩) ∧
    becomes (.stashMapUnmap n) s c.gid (fun u h => h.regs = g.regs ∧ u.cur = none ∧ slot u none) ∧
    (SMap.rises v.mem.dirty → v.mem.risen → (∀ q ∈ tm.present n, 64 * q + 64 ≤ 2 ^ 46) →
      (∀ i ∈ [Instr.stashMapUnmap n, .stashFlush n, .stashInv n], becomes i s c.gid (fun u h => h.regs = g.regs ∧
        ∀ q ∈ tm.present n, SMap.find u.mem.dirty (secKey tm.core (2 * q)) = none ∧
          SMap.find u.mem.dirty (secKey tm.core (2 * q + 1)) = none)) ∧
      becomes (.stashInv n) s c.gid (fun u h => h.regs = g.regs ∧ slot u (SMap.find tm.windows n) ∧
        ∀ q ∈ tm.present n, ∀ w, w / 64 = q → SMap.find u.mem.l1 (l1Key tm.core w) = none) ∧
      becomes (.stashFlush n) s c.gid (fun u h => h.regs = g.regs ∧ u.teams = s.teams ∧
        ∀ q ∈ tm.present n, ∀ w e o, w / 64 = q → v.mem.quiet w → SMap.find v.mem.l1 (l1Key tm.core w) = some e → e.owned = true →
          SMap.find v.mem.registry w = some o → o.core = tm.core →
            u.mem.sliceWord w = e.val ∨ (o.current = true ∧ u.mem.sliceWord w = v.mem.l2Word w))) ∧
    (s.mem.risen → ∃ m tr ts u, exec (.pref x l) s = .next u ∧ ({ s with mem := m, trans := tr, teams := ts }).passed c g g.regs u ∧
      s.mem.sameBytes m s.mem.inFlight ∧
      (∀ k, (SMap.find ts k).map (fun t => { t with lines := [] }) = (SMap.find s.teams k).map (fun t => { t with lines := [] })) ∧
      ∀ t pa, l = 0 → c.runs g t = true → s.spot g ((g.regs.pairV t x).toNat / 256 * 256) 4 .read false = .mem pa →
        s.lineHere g.core (pa / 256) = false →
        (g.core, 2 * (pa / 256)) ∈ m.misses ∧ (g.core, 2 * (pa / 256) + 1) ∈ m.misses)

/-- O31. An LCOPY whose threads' addresses, ranges and completion object pass the checks puts one copy of its own in flight for each thread with a size, and a TCOPY whose record, box, range and object pass puts one for its box; nothing else joins the copies in flight, which stand, and no register and no byte of memory or storage changes. A misaligned address raises 0x04, a range beyond the storage 0x07. A counted chunk of an inbound linear copy, whose source, free of errors, and counter addresses translate, writes the source's bytes to the storage, beside its barriers in use, and no other byte, adds its size to the 64-bit counter, and leaves the chunks not yet counted. One of an outbound linear copy writes the storage's bytes to memory at the slices, and no other byte. One of an inbound tensor copy writes the elements' bytes, and zeros for those outside the record (R147). One whose completion object is a barrier takes its size from PEND, and completes the phase where ARRIVED equals EXPECTED and PEND reaches 0: its waiters with another token resume with a true predicate. -/
def Obligations.Copies : Prop :=
  (∀ (s : State) (c : Cur) (g : Group) (x y z : Nat) (out pb : Bool) (tm : Team), s.issuing c g → z < 32 →
    SMap.find s.teams g.team = some tm →
    let v := s.commitTasks c.gid c.map
    let size := fun t => 16 * bits (g.regs.getV t y).toNat 31 24
    let va := fun t => (g.regs.pairV t x).toNat
    let off := fun t => bits (g.regs.getV t y).toNat 22 0
    let on := fun t => c.runs g t = true ∧ size t ≠ 0
    let i := Instr.lcopy x y z out pb
    (∀ compl, s.completionAt g pb (2 * z) = (compl, []) →
      (∀ t, on t → va t % 16 = 0 ∧ off t % 16 = 0 ∧ flagBit (g.regs.getV t y).toNat 23 = false ∧ off t + size t ≤ tm.tlsSize) →
      ∀ h, SMap.find v.groups c.gid = some h →
      ∃ cs u, ∃ key : Nat → Nat, exec i s = .next u ∧ ({ v with copies := cs }).passed c h g.regs u ∧
        (∀ k q, SMap.find s.copies k = some q → SMap.find cs k = some q) ∧
        (∀ t, on t → ∃ q, SMap.find s.copies (key t) = none ∧ SMap.find cs (key t) = some q ∧ q.group = c.gid ∧ q.out = out ∧
          q.shape = .run (va t) (size t) ∧ q.near = .tls g.team (off t) ∧ q.compl = compl ∧ q.bytes = size t ∧
          q.left = List.range ((size t + 255) / 256) ∧ q.paused = false ∧ q.waits = none) ∧
        (∀ t t', on t → on t' → key t = key t' → t = t') ∧
        ∀ k q, SMap.find cs k = some q → SMap.find s.copies k = some q ∨ ∃ t, on t ∧ k = key t) ∧
    ((∃ t, on t ∧ (va t % 16 ≠ 0 ∨ off t % 16 ≠ 0)) → ∃ m, raises i s c 0x04 m) ∧
    ((∀ t, on t → va t % 16 = 0 ∧ off t % 16 = 0) → (s.completionAt g pb (2 * z)).2 = [] → (∃ t, on t ∧ tm.tlsSize < off t + size t) →
      ∃ m, raises i s c 0x07 m)) ∧
  (∀ (s : State) (c : Cur) (g : Group) (x y h : Nat) (out pb : Bool) (tm : Team) (r : TensorRec) (compl : Completion), s.issuing c g →
    SMap.find s.teams g.team = some tm →
    let v := (s.afterRead g g.aheadCache (g.regs.pairS x).toNat).commitTasks c.gid c.map
    let dst := (g.regs.getS (x + 2)).toNat
    let n := boxBytes r (boxExtents g x)
    let starts := fun (i : Instr) (near : Near) (out : Bool) => ∀ gv, SMap.find v.groups c.gid = some gv →
      ∃ cs u k q, exec i s = .next u ∧ ({ v with copies := cs }).passed c gv g.regs u ∧
        (∀ k q, SMap.find s.copies k = some q → SMap.find cs k = some q) ∧ SMap.find s.copies k = none ∧ SMap.find cs k = some q ∧
        q.group = c.gid ∧ q.pathT = true ∧ q.out = out ∧ q.shape = .box r (boxOrigin g x) (boxExtents g x) ∧ q.near = near ∧
        q.compl = compl ∧ q.bytes = n ∧ ∀ k' q', SMap.find cs k' = some q' → SMap.find s.copies k' = some q' ∨ k' = k
    (g.regs.pairS x).toNat % 64 = 0 → dst % 16 = 0 → s.completionAt g pb y = (compl, []) →
    s.tensorAt c g (g.regs.pairS x).toNat = .ok r →
    (∃ m, boxCheck c r (g.regs.pairS x).toNat (boxOrigin g x) (boxExtents g x) = .ok m) →
    (dst + n ≤ tm.tlsSize → starts (.tcopy x y h false out pb) (.tls g.team dst) out) ∧
    (tm.tlsSize < dst + n → raises (.tcopy x y h false out pb) s c 0x07 c.map) ∧
    (s.currentTile g (g.regs.getH h) = none → raises (.tcopy x y h true false pb) s c 0x09 c.map) ∧
    (∀ k, s.currentTile g (g.regs.getH h) = some k → k.sealed = false → k.core = tm.home → dst + n ≤ 256 * k.units →
      starts (.tcopy x y h true false pb) (.tile k.core k.slot (s.kennel.gen k.core k.slot) dst) false)) ∧
  (∀ (s : State) (id k : Nat) (q : Copy) (g : Group) (tm : Team) (va len off cva pc : Nat) (pa : Nat → Nat),
    SMap.find s.copies id = some q → SMap.find s.groups q.group = some g → SMap.find s.teams q.team = some tm →
    q.out = false → q.shape = .run va len → q.near = .tls q.team off → q.compl = .ctr cva → q.covered = [] →
    k ∈ q.left → q.paused = false → q.waits = none → s.frozen = false → s.mem.risen → Memory.wf tm.tls = true → 256 * k < len → pc % 8 = 0 →
    let gq := { g with core := q.core, trap := { g.trap with mode := q.super } }
    let n := min 256 (len - 256 * k)
    (∀ b, (va + 256 * k) / 256 ≤ b → b ≤ (va + 256 * k + n - 1) / 256 →
      s.engineSpot gq (q.cache gq) (256 * b) .read = .mem (pa b) ∧ poisoned s.mem.poison (pa b) 256 = false) →
    (∀ o ∈ s.barriers q.team, off + 256 * k + n ≤ o ∨ o + 16 ≤ off + 256 * k) →
    s.counterSpot gq cva = .mem pc → s.mem.quiet (pc / 4) → pc + 8 ≤ 2 ^ 48 →
    ∃ u t2, exec (.copyChunkCounted id k) s = .next u ∧ SMap.find u.teams q.team = some t2 ∧
      (∀ a, Memory.get t2.tls a = if off + 256 * k ≤ a ∧ a < off + 256 * k + n then
          let m := va + (a - off)
          s.copyByte q.core (q.cache gq) (pa (m / 256) + m % 256)
        else Memory.get tm.tls a) ∧
      joinPair (u.mem.slcWord (pc / 4)) (u.mem.slcWord (pc / 4 + 1)) =
        joinPair (s.mem.sliceWord (pc / 4)) (s.mem.sliceWord (pc / 4 + 1)) + BitVec.ofNat 64 n ∧
      (∀ q2, q.left.erase k ≠ [] → SMap.find u.copies id = some q2 → q2 = { q with left := q.left.erase k })) ∧
  (∀ (s : State) (id k : Nat) (q : Copy) (g : Group) (tm : Team) (va len off cva pc : Nat) (pa : Nat → Nat),
    SMap.find s.copies id = some q → SMap.find s.groups q.group = some g → SMap.find s.teams q.team = some tm →
    q.out = true → q.shape = .run va len → q.near = .tls q.team off → q.compl = .ctr cva → q.covered = [] →
    k ∈ q.left → q.paused = false → q.waits = none → s.frozen = false → s.mem.risen → 256 * k < len → pc % 8 = 0 →
    let gq := { g with core := q.core, trap := { g.trap with mode := q.super } }
    let n := min 256 (len - 256 * k)
    let at_ := fun i => pa ((va + 256 * k + i) / 256) + (va + 256 * k + i) % 256
    (∀ b, (va + 256 * k) / 256 ≤ b → b ≤ (va + 256 * k + n - 1) / 256 → s.engineSpot gq (q.cache gq) (256 * b) .write = .mem (pa b)) →
    (∀ i j, i < n → j < n → at_ i = at_ j → i = j) → s.lineAbsent q.team (off + 256 * k) n = false →
    (∀ i, i < n → poisoned tm.poison (off + 256 * k + i) 1 = false) →
    s.counterSpot gq cva = .mem pc → s.mem.quiet (pc / 4) → pc + 8 ≤ 2 ^ 48 → (∀ i, i < n → at_ i / 8 ≠ pc / 8) →
    ∃ u, exec (.copyChunkCounted id k) s = .next u ∧
      (∀ i, i < n → u.mem.sliceByte (at_ i) = Memory.get tm.tls (off + 256 * k + i)) ∧
      joinPair (u.mem.slcWord (pc / 4)) (u.mem.slcWord (pc / 4 + 1)) =
        joinPair (s.mem.sliceWord (pc / 4)) (s.mem.sliceWord (pc / 4 + 1)) + BitVec.ofNat 64 n ∧
      s.mem.sameBytes u.mem (fun b => s.mem.inFlight b ∨ (∃ i, i < n ∧ b = at_ i) ∨ (pc ≤ b ∧ b < pc + 8))) ∧
  (∀ (s : State) (id k : Nat) (q : Copy) (g : Group) (tm : Team) (r : TensorRec) (origin : List Int) (extent : List Nat)
      (off cva pc : Nat) (pa : Nat → Nat),
    SMap.find s.copies id = some q → SMap.find s.groups q.group = some g → SMap.find s.teams q.team = some tm →
    q.out = false → q.shape = .box r origin extent → q.near = .tls q.team off → q.compl = .ctr cva → q.covered = [] →
    k ∈ q.left → q.paused = false → q.waits = none → s.frozen = false → Memory.wf tm.tls = true →
    let gq := { g with core := q.core, trap := { g.trap with mode := q.super } }
    let o := (q.shape.chunk k).1
    let n := (q.shape.chunk k).2
    (∀ e ∈ q.places k, s.engineSpot gq (q.cache gq) (256 * (e.2.1 / 256)) .read = .mem (pa (e.2.1 / 256)) ∧
      poisoned s.mem.poison (pa (e.2.1 / 256)) 256 = false) →
    (∀ b ∈ s.barriers q.team, off + o + n ≤ b ∨ b + 16 ≤ off + o) → s.counterSpot gq cva = .mem pc →
    ∃ u t2, exec (.copyChunkCounted id k) s = .next u ∧ SMap.find u.teams q.team = some t2 ∧
      ∀ a, Memory.get t2.tls a = if off + o ≤ a ∧ a < off + o + n then
          let p := q.shape.place (a - off)
          if p.2 = 0 then 0 else s.copyByte q.core (q.cache gq) (pa (p.1 / 256) + p.1 % 256) &&& p.2
        else Memory.get tm.tls a) ∧
  (∀ (s : State) (id k : Nat) (q : Copy) (g : Group) (tm bm : Team) (va len off tb ob : Nat) (pa : Nat → Nat),
    SMap.find s.copies id = some q → SMap.find s.groups q.group = some g → SMap.find s.teams q.team = some tm →
    q.out = false → q.shape = .run va len → q.near = .tls q.team off → q.compl = .pb tb ob → q.covered = [] →
    k ∈ q.left → q.paused = false → q.waits = none → s.frozen = false → Memory.wf tm.tls = true → 256 * k < len →
    SMap.find s.teams tb = some bm → bm.life ≠ .ended → Memory.wf bm.tls = true → SMap.rises s.groups →
    let gq := { g with core := q.core, trap := { g.trap with mode := q.super } }
    let n := min 256 (len - 256 * k)
    (∀ b, (va + 256 * k) / 256 ≤ b → b ≤ (va + 256 * k + n - 1) / 256 →
      s.engineSpot gq (q.cache gq) (256 * b) .read = .mem (pa b) ∧ poisoned s.mem.poison (pa b) 256 = false) →
    (∀ o ∈ s.barriers q.team, off + 256 * k + n ≤ o ∨ o + 16 ≤ off + 256 * k) →
    let pend := bm.pb ob 3 - BitVec.ofNat 32 n
    let due := bm.pb ob 2 ≠ 0 ∧ bm.pb ob 1 = bm.pb ob 2 ∧ pend = 0
    ∃ u t2, exec (.copyChunkCounted id k) s = .next u ∧ SMap.find u.teams tb = some t2 ∧
      (¬ due → (List.range 4).map (t2.pb ob) = [bm.pb ob 0, bm.pb ob 1, bm.pb ob 2, pend]) ∧
      (due → (List.range 4).map (t2.pb ob) = [bm.pb ob 0 + 1, 0, bm.pb ob 2, 0] ∧
        s.pbResumes u tb ob true (fun x => x ≠ bm.pb ob 0 + 1) (fun _ => True)))

/-- O32. With no render-target word of the group in flight: CTR.ADD on an aligned counter that its address reaches adds sY to it modulo 2^64 at the SLC after the release of its scope, changes no other byte that the release leaves outside words with a registration in flight, and notes the line. CTR.WAIT goes on at the next packet with an acquire when the counter is at least its target, unsigned, and else parks; WAITCMP does so on its condition of the word and sY, and polls when its slice has no free entry; each word is the core's own store or what the slice answers. WAKE leaves the core no dirty sector of the line and notes it. A failing address raises its cause. No register changes (where the release performs a store of the group into a barrier on which it waits, the waiter's predicate does). -/
def Obligations.CountersAndWaits : Prop :=
  ∀ (s : State) (c : Cur) (g : Group) (x y e cond pa : Nat), s.issuing c g → e < 5 → s.stashStuck c.gid = false → s.noTargets c.gid →
    let va := (g.regs.pairS x).toNat
    let v := (s.commitTasks c.gid c.map).releaseBy c.gid e
    let passes := fun (i : Instr) => ∃ m tr, s.mem.sameBytes m s.mem.inFlight ∧
      movesFrom { s with mem := m.acquire g.core e, trans := tr } i s c g (fun h => h.regs = g.regs ∧ g.nextPacket c h)
    let parks := fun (i : Instr) (w : Park) => becomes i s c.gid (fun u h => h.regs = g.regs ∧
      s.mem.sameBytes u.mem s.mem.inFlight ∧ g.parksAt c s.clock w h)
    let reads := fun (i : Nat) (w : Word) => w = s.mem.waitWord g.core (pa / 4 + i) ∨ w = s.mem.sliceWord (pa / 4 + i)
    let calm := fun (k : Nat) => c.map ≠ 0 ∧ s.mem.risen ∧ ∀ i, i < k → s.mem.quiet (pa / 4 + i)
    (∀ h, s.spot g va 8 .write true = .mem pa → SMap.find v.groups c.gid = some h → v.mem.risen → v.mem.quiet (pa / 4) → pa % 8 = 0 →
      pa + 8 ≤ 2 ^ 48 →
      ∃ m tr u, exec (.ctrAdd x y e) s = .next u ∧ ({ v with mem := m, trans := tr }).passed c h h.regs u ∧
        joinPair (m.slcWord (pa / 4)) (m.slcWord (pa / 4 + 1)) =
          joinPair (v.mem.sliceWord (pa / 4)) (v.mem.sliceWord (pa / 4 + 1)) + (g.regs.getS y).setWidth 64 ∧
        m.sliceWord (pa / 4) = m.slcWord (pa / 4) ∧ m.sliceWord (pa / 4 + 1) = m.slcWord (pa / 4 + 1) ∧
        v.mem.sameBytes m (fun a => v.mem.inFlight a ∨ (pa ≤ a ∧ a < pa + 8)) ∧ pa / 256 ∈ m.notify) ∧
    (calm 2 → s.spot g va 8 .read true = .mem pa → ∃ lo hi, reads 0 lo ∧ reads 1 hi ∧
      ((g.regs.pairS y).toNat ≤ (joinPair lo hi).toNat → passes (.ctrWait x y e)) ∧
      ((joinPair lo hi).toNat < (g.regs.pairS y).toNat → parks (.ctrWait x y e) (.ctrWait pa (g.regs.pairS y) e))) ∧
    (calm 1 → s.spot g va 4 .read true = .mem pa → ∃ w, reads 0 w ∧
      let b := g.regs.getS y
      ∀ q ∈ [(0, w = b), (1, w ≠ b), (2, b.toNat ≤ w.toNat), (3, w.toNat < b.toNat)],
        (q.2 → passes (.waitcmp x y e q.1)) ∧
        (¬ q.2 → parks (.waitcmp x y e q.1) (.waitcmp pa b q.1 e (decide (2048 ≤ s.wakeUsed (slcSlice pa)))))) ∧
    (s.spot g va 1 .read true = .mem pa → SMap.rises v.mem.dirty →
      becomes (.wake x e) s c.gid (fun u h => ((∀ o ∈ s.mesh, o.stashOf c.gid = false) → h.regs = g.regs) ∧ u.cur = none ∧
        pa / 256 ∈ u.mem.notify ∧
        SMap.find u.mem.dirty (secKey g.core (2 * (pa / 256))) = none ∧
        SMap.find u.mem.dirty (secKey g.core (2 * (pa / 256) + 1)) = none)) ∧
    (∀ i ∈ [(Instr.ctrAdd x y e, 8, Access.write), (.ctrWait x y e, 8, .read), (.waitcmp x y e cond, 4, .read), (.wake x e, 1, .read)],
      ∀ k, s.spot g va i.2.1 i.2.2 true = .fail k → exec i.1 s = .next (s.stopAt c (.trap ⟨k, c.map, va⟩)))

/-- O33. On a barrier its register reaches, with no phase due: INIT without waiters, copies or a zero count writes PHASE 0, ARRIVED 0, EXPECTED sX, PEND 0, and else raises 0x0C; ARRIVE writes the token and adds its count, and where ARRIVED reaches EXPECTED with PEND 0 the phase advances, ARRIVED is 0, and every group whose one wait is a PB.WAIT there with another token than the new phase goes on at the next packet with its predicate true; beyond EXPECTED, or with EXPECTED 0, it raises 0x0C; EXPECT adds sX to PEND, and completes the phase in the same way where that brings PEND to 0 and all have arrived; WAIT sets pD false on an invalid barrier, true with an acquire in another phase, and else parks; INVAL sets EXPECTED 0, and such waiters go on with a false predicate, and it raises 0x0C with a copy pending. No other byte of the storage changes in INIT. -/
def Obligations.PhaseBarriers : Prop :=
  ∀ (s : State) (c : Cur) (g : Group) (x y d n t o : Nat) (tm : Team), s.issuing c g → c.map ≠ 0 → n < 32 → s.stashStuck c.gid = false →
    s.barrierSpot g (g.regs.getS y) = .inl (t, o) → SMap.find s.teams t = some tm → Memory.wf tm.tls = true →
    (∀ q ∈ s.mesh, q.stashOf c.gid = false) →
    let phase := tm.pb o 0
    let arrived := tm.pb o 1
    let expected := tm.pb o 2
    let pend := tm.pb o 3
    let words := fun (u : State) (ws : List Word) => ∃ t2, SMap.find u.teams t = some t2 ∧ (List.range 4).map (t2.pb o) = ws
    let completes := fun (u : State) => SMap.rises s.groups → s.pbResumes u t o true (fun k => k ≠ phase + 1) (fun id => id ≠ c.gid)
    let waited := (s.waiters (fun _ w => match w with
      | .pbWait u p _ _ => u == t && p == o
      | _ => false)).isEmpty = false
    (waited ∨ s.pbPending t o = true ∨ g.regs.getS x = 0 → raises (.pbInit x y) s c 0x0C c.map) ∧
    (¬ waited → s.pbPending t o = false → g.regs.getS x ≠ 0 → becomes (.pbInit x y) s c.gid (fun u h => h.regs = g.regs ∧
      words u [0, 0, g.regs.getS x, 0] ∧ ∀ t2, SMap.find u.teams t = some t2 → ∀ a, a < o ∨ o + 16 ≤ a →
        Memory.get t2.tls a = Memory.get tm.tls a)) ∧
    (s.pbPending t o = true → raises (.pbInval y) s c 0x0C c.map) ∧
    (¬ (expected ≠ 0 ∧ arrived = expected ∧ pend = 0) →
      (∀ k ∈ [(Instr.pbArrive x y, c.map.count), (.pbArriveN x y n, n + 1)],
        (expected = 0 ∨ expected.toNat < arrived.toNat + k.2 → raises k.1 s c 0x0C c.map) ∧
        (expected ≠ 0 → arrived.toNat + k.2 ≤ expected.toNat → becomes k.1 s c.gid (fun u h => h.regs.getS x = phase ∧
          if arrived.toNat + k.2 = expected.toNat ∧ pend = 0 then words u [phase + 1, 0, expected, 0] ∧ completes u
          else words u [phase, BitVec.ofNat 32 (arrived.toNat + k.2), expected, pend] ∧
            h.regs = g.regs.setS x phase))) ∧
      (expected = 0 → raises (.pbExpect x y) s c 0x0C c.map) ∧
      (expected ≠ 0 → ¬ (arrived = expected ∧ pend + g.regs.getS x = 0) → becomes (.pbExpect x y) s c.gid (fun u h =>
        h.regs = g.regs ∧ words u [phase, arrived, expected, pend + g.regs.getS x])) ∧
      (expected ≠ 0 → arrived = expected → pend + g.regs.getS x = 0 → becomes (.pbExpect x y) s c.gid (fun u _ =>
        words u [phase + 1, 0, expected, 0] ∧ completes u)) ∧
      (expected = 0 → moves (.pbWait x y d) s c g (fun h => g.regs.onlyP d (c.runs g) g.width (fun _ => false) h.regs ∧
        g.nextPacket c h)) ∧
      (expected ≠ 0 → phase ≠ g.regs.getS x → movesFrom { s with mem := s.mem.acquire g.core 2 } (.pbWait x y d) s c g (fun h =>
        g.regs.onlyP d (c.runs g) g.width (fun _ => true) h.regs ∧ g.nextPacket c h)) ∧
      (expected ≠ 0 → phase = g.regs.getS x → becomes (.pbWait x y d) s c.gid (fun u h => h.regs = g.regs ∧ u.teams = s.teams ∧
        g.parksAt c s.clock (.pbWait t o phase d) h)) ∧
      (s.pbPending t o = false → ¬ waited → becomes (.pbInval y) s c.gid (fun u h => h.regs = g.regs ∧
        words u [phase, arrived, 0, pend])) ∧
      (s.pbPending t o = false → becomes (.pbInval y) s c.gid (fun u _ => words u [phase, arrived, 0, pend] ∧
        (SMap.rises s.groups → s.pbResumes u t o false (fun _ => True) (fun id => id ≠ c.gid)))))

/-- O34. A release at any scope leaves no render-target word of the core in flight (R218), and one at scope clu or beyond leaves the core no dirty sector and no registration in flight, and at scope sys the slices hold no dirty sector; an acquire at clu or beyond leaves the core only words that it owns. FENCE performs them as its ORD says, and at scopes grp and team changes nothing else; XFENCE naming path L and TFENCE release at scope dev at least, XFENCE acquires as well naming path X, drops the decoded texels of its scope, and naming path T the read caches of its tensor engines. No register changes, but for waits on a barrier that the release of the group's remote stores ends. -/
def Obligations.Fences : Prop :=
  ∀ (s : State) (c : Cur) (g : Group) (e r m : Nat), s.issuing c g → e < 5 → s.stashStuck c.gid = false → g.core < 64 →
    s.mem.risen → SMap.rises s.mem.dirty →
    let settled := fun (u : State) => ∀ t ∈ u.targets, t.core ≠ g.core
    let released := fun (u : State) (scope : Nat) => settled u ∧ (∀ k ∈ u.mem.dirty, k.1 / 2 ^ 41 ≠ g.core) ∧ (∀ k ∈ u.mem.regq, k.1 ≠ g.core) ∧
      (scope = 4 → ∀ k ∈ u.mem.l2, k.2.dirty = false) ∧ ∀ o ∈ u.mesh, o.stashOf c.gid = false
    let kept := fun (h : Group) => (∀ o ∈ s.mesh, o.stashOf c.gid = false) → h.regs = g.regs
    let acquired := fun (u : State) => ∀ k ∈ u.mem.l1, k.1 / 2 ^ 46 = g.core → k.2.owned = true
    (e < 2 → let v := if r = 2 ∨ r = 3 then s.settleTargets (fun t => t.core == g.core) else s
      ∀ h, SMap.find v.groups c.gid = some h → movesFrom v (.fence e r) s c h (fun k => k.regs = g.regs) ∧
        (r = 2 ∨ r = 3 → settled v) ∧ ((∀ t ∈ s.targets, t.core ≠ g.core) → v = s)) ∧
    (2 ≤ e → becomes (.fence e r) s c.gid (fun u h => kept h ∧ u.cur = none ∧ (r = 2 ∨ r = 3 → released u e) ∧
      (r = 1 ∨ r = 3 → acquired u))) ∧
    becomes (.tfence e) s c.gid (fun u h => kept h ∧ u.cur = none ∧ released u e) ∧
    becomes (.xfence e m) s c.gid (fun u h => kept h ∧ u.cur = none ∧ (m % 2 = 1 → released u e ∧ acquired u) ∧
      (flagBit m 2 = true → ∀ k ∈ u.mem.reads, s.scopeHas g e (k.1 / 2 ^ 41) = false) ∧
      (flagBit m 3 = true → ∀ t ∈ u.texels, t ∈ s.texels ∧ s.scopeHas g e t.core = false))

/-- A tile has been allocated for a group in a run of slots, and its handle stands in hX (R165, R167). -/
def Sys2Proof.Machine.State.allocated (v : State) (g : Group) (id h units reads part slot : Nat) (u : State) (k : Group) : Prop :=
  let w := v.dropClaim id h (BitVec.allOnes 64) true
  let core := v.homeCore g
  (∃ share, (share = none ∨ share = some g.grid) ∧ u.kennel.tiles =
    w.kennel.tiles ++ [⟨g.ctx, core, slot, units, part, share, g.team, id, false, reads, reads, 0, 0, [], []⟩]) ∧
  k.regs = (g.regs.setH h (mkHandle (w.kennel.gen core slot) slot core part)).setClaim h 0 0

/-- Nothing of a group for a tile is on the mesh, and nobody waits for the tile. -/
def Sys2Proof.Machine.State.calm (s : State) (id core slot : Nat) : Prop :=
  (∀ o ∈ s.mesh, o.group ≠ id) ∧ ∀ e ∈ s.groups, ∀ p ∈ e.2.parked, p.why.onTile core slot = false

/-- O35. TALLOC refuses a bad size, reads or partition with 0x0E; granted, at issue or by TALLOC_GRANT, it appends a filling tile with its reads, counts down what hX held and writes the handle; else it parks. TCLAIM takes one claim, or one for each thread, or raises 0x0B, and 0x09 for a stale handle. TSEAL of a current filling tile without pending fills seals it, or frees it with no read left. TDROP consumes the issue set's claims with a count-down each. An operation on another core's tile stands on the mesh until it arrives. A tile of an ended team is sealed. A count-down lowers REMAIN and OUTST, and frees a sealed tile at 0. -/
def Obligations.TilesAllocated : Prop :=
  (∀ (s : State) (c : Cur) (g : Group) (h y z : Nat), s.issuing c g → c.map ≠ 0 →
    let size := (g.regs.getS y).toNat
    let w := (g.regs.getS z).toNat
    let reads := w % 2 ^ 16
    let part := w / 2 ^ 16 % 16
    let bad := size = 0 ∨ size % 256 ≠ 0 ∨ 65536 < size ∨ reads = 0 ∨ w / 2 ^ 20 ≠ 0 ∨
      s.kennelCeiling g.grid (s.homeCore g) part < size / 256
    let v := s.commitTasks c.gid c.map
    let may := v.kennelMay g (size / 256) part (g.firstAge c.map c.pc c.slot s.clock)
    (bad → raises (.talloc h y z) s c 0x0E c.map) ∧
    (¬ bad → may = none → becomes (.talloc h y z) s c.gid (fun u k => k.regs = g.regs ∧ u.kennel = v.kennel ∧
      g.parksAt c s.clock (.talloc h (size / 256) reads part) k)) ∧
    (∀ slot, ¬ bad → may = some slot → becomes (.talloc h y z) s c.gid (fun u k =>
      v.allocated g c.gid h (size / 256) reads part slot u k ∧
      ∀ t, c.map.getLsbD t = true → k.stands t (c.pc + 12) 0 .runnable))) ∧
  (∀ (s : State) (id h units reads part slot : Nat) (g : Group) (p : Parked), SMap.find s.groups id = some g →
    g.waitOf (fun q => (s.tallocMay g q).isSome) = some p → p.why = .talloc h units reads part → s.kennelMay g units part p.born = some slot →
    becomes (.tallocGrant id) s id (fun u k => s.allocated g id h units reads part slot u k ∧
      (∀ t, p.map.getLsbD t = true → k.stands t (p.pc + 12) 0 .runnable) ∧
      (g.life = .saved → ∀ tm, SMap.find u.teams g.team = some tm → tm.wanted = true))) ∧
  (∀ (s : State) (c : Cur) (g : Group) (h : Nat), s.issuing c g → c.map ≠ 0 → s.stashStuck c.gid = false →
    let hv := g.regs.getH h
    s.calm c.gid (hCore hv) (hSlot hv) →
    (s.currentTile g hv = none → ∀ i ∈ [Instr.tseal h, .tclaim h, .tclaimEach h], raises i s c 0x09 c.map) ∧
    (∀ t, s.currentTile g hv = some t →
      (t.sealed = true → movesFrom (s.commitTasks c.gid c.map) (.tseal h) s c
        ((SMap.find (s.commitTasks c.gid c.map).groups c.gid).getD g) (fun k => k.regs = g.regs)) ∧
      (t.sealed = false → (∃ e ∈ s.copies, ∃ o, e.2.near = .tile t.core t.slot (hGen hv) o) → becomes (.tseal h) s c.gid (fun u k =>
        u.kennel = (s.commitTasks c.gid c.map).kennel ∧ k.regs = g.regs ∧ g.parksAt c s.clock (.tile t.core t.slot) k)) ∧
      (t.sealed = false → (∀ e ∈ s.copies, ∀ o, e.2.near ≠ .tile t.core t.slot (hGen hv) o) →
        s.kennel.tiles.Pairwise (fun a b => ¬ (a.core = b.core ∧ a.slot = b.slot)) →
        becomes (.tseal h) s c.gid (fun u k => k.regs = g.regs ∧
          (t.core = g.core → t.remain ≠ 0 → ∃ t2, u.kennel.tileAt t.core t.slot = some t2 ∧ t2.sealed = true ∧ t2.remain = t.remain) ∧
          (t.core = g.core → t.remain = 0 → u.kennel.tileAt t.core t.slot = none) ∧
          (t.core ≠ g.core → MeshOp.seal c.gid t.core t.slot (hGen hv) ∈ u.mesh))) ∧
      ∀ e ∈ [(Instr.tclaim h, Lanes.one c.map.low), (.tclaimEach h, c.map)],
        (t.reads < t.taken + e.2.count ∨ (g.regs.claim h).1 &&& e.2 ≠ 0 → raises e.1 s c 0x0B c.map) ∧
        (t.taken + e.2.count ≤ t.reads → (g.regs.claim h).1 &&& e.2 = 0 →
          let t2 := { t with taken := t.taken + e.2.count, outst := t.outst + e.2.count }
          movesFrom { s with kennel := s.kennel.setTile t2 } e.1 s c g (fun k =>
            k.regs = g.regs.setClaim h ((g.regs.claim h).1 ||| e.2) hv)))) ∧
  (∀ (s : State) (c : Cur) (g gv : Group) (h : Nat), s.issuing c g →
    let hv := g.regs.getH h
    let e := g.regs.claim h
    let n := (e.1 &&& c.map).count
    let v := s.commitTasks c.gid c.map
    (hValid hv = false → raises (.tdrop h) s c 0x09 c.map) ∧
    (hValid hv = true → e.1 &&& c.map = 0 → raises (.tdrop h) s c 0x08 c.map) ∧
    (hValid hv = true → e.1 &&& c.map ≠ 0 → SMap.find v.groups c.gid = some gv → s.calm c.gid (hCore e.2) (hSlot e.2) →
      movesFrom (if hCore e.2 = g.core then { v with kennel := v.kennel.countDown (hCore e.2) (hSlot e.2) (hGen e.2) n n }
          else { v with mesh := v.mesh ++ [.countDown c.gid (hCore e.2) (hSlot e.2) (hGen e.2) n n] }) (.tdrop h) s c gv
        (fun k => k.regs = g.regs.setClaim h (e.1 &&& ~~~c.map) e.2))) ∧
  (∀ (s : State) (k id core slot gen n m : Nat) (o : MeshOp) (q : Kennel), s.mesh[k]? = some o →
    (o, q) ∈ [(MeshOp.seal id core slot gen, s.kennel.seal core slot gen), (.countDown id core slot gen n m, s.kennel.countDown core slot gen n m),
      (.unclaim id core slot gen n, s.kennel.unclaim core slot gen n)] →
    (∀ p ∈ s.mesh.take k, p.group = id → p.onTile core slot = false) →
    ∃ u, exec (.kennelRemoteOperation k) s = .next u ∧ u.kennel = q ∧ u.mesh = s.mesh.eraseIdx k ∧ u.mem = s.mem ∧ u.teams = s.teams) ∧
  (∀ (k : Kennel) (t : Tile) (core slot gen n m : Nat), k.tileAt core slot = some t → k.gen core slot = gen →
    (k.countDown core slot gen n m).tileAt core slot = (if t.sealed = true ∧ t.remain ≤ n then none
      else some { t with remain := t.remain - n, outst := t.outst - m })) ∧
  (∀ (s : State) (team : Nat), (∀ t, SMap.find s.teams team = some t → t.life = .ended) → (∀ e ∈ s.copies, e.2.team ≠ team) →
    ∃ u, exec (.tileAutoSeal team) s = .next u ∧ u.mem = s.mem ∧ u.teams = s.teams ∧
      ∀ t ∈ u.kennel.tiles, t.team = team → t.sealed = true)

/-- O36. A null handle raises 0x09, an issue set without a claim, or whose claim names no tile of the context that still stands, 0x08, a misaligned offset 0x04, one beyond the tile 0x07; a filling tile parks the set. TPEEK of a sealed tile writes each thread's registers with the tile's words at its offset and changes nothing else; TREAD also consumes the set's claims with a count-down each. A poisoned word raises 0x15. The stash forms put one copy of the tile's bytes in flight; TREAD.stash releases its claims at issue, which lowers OUTST, and the copy counts REMAIN down. TSTAT.info writes OUTST, REMAIN, size, partition and state, 0 for a stale handle; .addr the tile's generic address; .get the handle; .put counts the held claims down and loads the handle; .part 0 for a partition that the grid may not name. -/
def Obligations.TilesRead : Prop :=
  ∀ (s : State) (c : Cur) (g gv : Group) (x y f h z : Nat), s.issuing c g → c.map ≠ 0 → x + 2 ^ f ≤ 64 → x + 8 ≤ 128 → f < 3 →
    let hv := g.regs.getH h
    let e := g.regs.claim h
    let size := 4 * 2 ^ f
    let off := fun t => (g.regs.getV t z).toNat
    let v := s.commitTasks c.gid c.map
    let n := (e.1 &&& c.map).count
    let down := fun r o => if hCore e.2 = g.core then { v with kennel := v.kennel.countDown (hCore e.2) (hSlot e.2) (hGen e.2) r o }
      else { v with mesh := v.mesh ++ [.countDown c.gid (hCore e.2) (hSlot e.2) (hGen e.2) r o] }
    SMap.find v.groups c.gid = some gv → s.calm c.gid (hCore e.2) (hSlot e.2) →
    (∀ i ∈ [Instr.tread x f h z, .tpeek x f h z, .treadStash x h false, .tpeekStash x h false],
      (hValid hv = false → raises i s c 0x09 c.map) ∧
      (hValid hv = true → e.1 &&& c.map = 0 → raises i s c 0x08 c.map)) ∧
    (hValid hv = true → e.1 &&& c.map ≠ 0 → (∀ t, s.kennel.tileAt (hCore e.2) (hSlot e.2) = some t → t.ctx ≠ g.ctx ∨
        s.kennel.gen t.core t.slot ≠ hGen e.2) → ∀ i ∈ [Instr.tread x f h z, .tpeek x f h z, .treadStash x h false, .tpeekStash x h false],
      raises i s c 0x08 c.map) ∧
    (∀ t, hValid hv = true → e.1 &&& c.map ≠ 0 → s.kennel.tileAt (hCore e.2) (hSlot e.2) = some t → t.ctx = g.ctx →
        s.kennel.gen t.core t.slot = hGen e.2 →
      (∀ i ∈ [Instr.tread x f h z, .tpeek x f h z],
        ((∃ l, c.runs g l = true ∧ off l % size ≠ 0) → ∃ m : Lanes, raises i s c 0x04 m ∧
          ∀ l, m.getLsbD l = true ↔ c.runs g l = true ∧ off l % size ≠ 0) ∧
        ((∀ l, c.runs g l = true → off l % size = 0) → (∃ l, c.runs g l = true ∧ 256 * t.units < off l + size) →
          ∃ m : Lanes, raises i s c 0x07 m ∧ ∀ l, m.getLsbD l = true ↔ c.runs g l = true ∧ 256 * t.units < off l + size) ∧
        ((∀ l, c.runs g l = true → off l % size = 0 ∧ off l + size ≤ 256 * t.units) → t.sealed = true →
          (∃ l, c.runs g l = true ∧ poisoned t.poison (off l) size = true) → ∃ m : Lanes, raises i s c 0x15 m ∧
          ∀ l, m.getLsbD l = true ↔ c.runs g l = true ∧ poisoned t.poison (off l) size = true)) ∧
      (∀ w ∈ [(Instr.tread x f h z, v), (.tpeek x f h z, s)],
        (∀ l, c.runs g l = true → off l % size = 0 ∧ off l + size ≤ 256 * t.units) → t.sealed = false →
          becomes w.1 s c.gid (fun u k => k.regs = g.regs ∧ u.kennel = w.2.kennel ∧ g.parksAt c s.clock (.tile t.core t.slot) k)) ∧
      ((∀ l, c.runs g l = true → off l % size = 0 ∧ off l + size ≤ 256 * t.units ∧ poisoned t.poison (off l) size = false) →
        t.sealed = true →
        let word := fun l i => Memory.word t.bytes (off l + 4 * i)
        leaves (.tpeek x f h z) s c g (g.regs.onlyRun x (2 ^ f) (c.runs g) word) ∧
        movesFrom (down n n) (.tread x f h z) s c gv
          (fun k => ∃ r, g.regs.onlyRun x (2 ^ f) (c.runs g) word r ∧ k.regs = r.setClaim h (e.1 &&& ~~~c.map) e.2)) ∧
      (∀ pb compl tm, t.sealed = true → SMap.find s.teams g.team = some tm → s.completionAt g pb (x + 4) = (compl, []) →
        let o := (g.regs.getS x).toNat
        let len := (g.regs.getS (x + 1)).toNat
        let dst := (g.regs.getS (x + 2)).toNat
        let b := if len = 0 then 256 * t.units - o else len
        o % 16 = 0 → len % 16 = 0 → dst % 16 = 0 → o + b ≤ 256 * t.units → dst + b ≤ tm.tlsSize → b ≠ 0 →
        ∀ w ∈ [(Instr.treadStash x h pb, down 0 n, gv, n, g.regs.setClaim h (e.1 &&& ~~~c.map) e.2),
            (.tpeekStash x h pb, s, g, 0, g.regs)],
          ∃ cs u k q, exec w.1 s = .next u ∧ ({ w.2.1 with copies := cs }).passed c w.2.2.1 w.2.2.2.2 u ∧
            (∀ k q, SMap.find s.copies k = some q → SMap.find cs k = some q) ∧ SMap.find s.copies k = none ∧
            SMap.find cs k = some q ∧ q.group = c.gid ∧ q.out = false ∧ q.shape = .tile t.core t.slot (hGen e.2) o b ∧
            q.near = .tls g.team dst ∧ q.compl = compl ∧ q.holds = w.2.2.2.1)) ∧
    (s.calm c.gid (hCore hv) (hSlot hv) →
      (s.currentTile g hv = none → leaves (.tstatInfo x h) s c g (fun r => r = g.regs.setPairS x 0) ∧
        raises (.tstatAddr x h) s c 0x09 c.map) ∧
      (∀ t, s.currentTile g hv = some t → t.outst < 2 ^ 16 → t.remain < 2 ^ 16 → t.units < 2 ^ 16 → t.part < 16 →
        leaves (.tstatInfo x h) s c g (fun r => r = { g.regs with s := r.s } ∧ ∀ k, r.getS k =
          if k = x + 1 then BitVec.ofNat 32 (t.units + t.part * 2 ^ 16 + (if t.sealed then 2 else 1) * 2 ^ 30)
          else if k = x then BitVec.ofNat 32 (t.remain * 2 ^ 16 + t.outst) else g.regs.getS k) ∧
        leaves (.tstatAddr x h) s c g (fun r =>
          r = g.regs.setPairS x (BitVec.ofNat 64 ((s.ctx g.ctx).kab + t.core * 2 ^ 23 + t.slot * 256))))) ∧
    leaves (.tstatGet x h) s c g (fun r => r = g.regs.setPairS x hv) ∧
    (e.1 ≠ 0 → movesFrom (down e.1.count e.1.count) (.tstatPut h y) s c gv
      (fun k => k.regs = (g.regs.setH h (g.regs.pairS y)).setClaim h 0 0)) ∧
    (e.1 = 0 → movesFrom v (.tstatPut h y) s c gv (fun k => k.regs = (g.regs.setH h (g.regs.pairS y)).setClaim h 0 0)) ∧
    (∀ p, leaves (.tstatPart x p) s c g (fun r => r = g.regs.setPairS x (s.partInfo g p) ∧
      (s.kennelCeiling g.grid (s.homeCore g) p = 0 → r = g.regs.setPairS x 0)))

/-- O37. A linking word of a partial live set raises 0x03. LINK of an unlinked group whose need fits the free reserve, with no older request, makes a tile of n zero blocks and sends the threads to the next packet, else it parks, and LINK_GRANT links the oldest waiter or regrants a restored tile; beyond the reserve or linked it raises 0x0D. UNLINK of a tile without queued steps removes it and ends its pairing. PAIR waits for its queue and parks, at the mesh's edge raises 0x0D, and PAIR_MATCH joins equal tiles, the west one leading. LEASH.TAKE takes a free leash or parks, and goes on where the leash has passed to it; LEASH.PASS hands it to the oldest waiter or frees it; both raise 0x0C out of turn. BURST sets its count and starts the ramp, whose four events move it, and with it each grid that a paired tile joins to it and that stands in its state since the same clock, between COLD, UP, WARM and DOWN, each down once it has itself stood quiet for 64 clocks with BURST 0, or 512; a ramp up counts 32 filler clocks, one down 16. Each FMTSET, ACC and SCALE word of a linked group's whole live set completes, no thread trapped or parked, where its operands are valid, its addresses reach memory or a tile, and its blocks wait for no step and hold no error. -/
def Obligations.LinkingTiles : Prop :=
  (∀ (s : State) (c : Cur) (g : Group) (t : LinkTile) (x y n : Nat) (b40 : Bool), s.issuing c g → c.map = g.live → g.tile = some t →
    let f := t.fmt n
    let regs := y + (16 * (otypeFmt f.otype).width + g.width - 1) / g.width ≤ g.vcount ∧ g.vcount ≤ 64
    let done := fun (i : Instr) => ∃ u h, exec i s = .next u ∧ u.cur = none ∧ SMap.find u.groups c.gid = some h ∧ h.live = g.live ∧
      h.trap.level = g.trap.level ∧ h.trap.mode = g.trap.mode ∧ ∀ p ∈ h.parked, p ∈ g.parked
    ((y = 31 ∨ (f.set y (fieldSource g x y)).isSome = true) → done (.fmtset x y n)) ∧ done (.fmtsetGet x y n) ∧ done (.scaleNext n) ∧
    (∀ pa, pa % 128 = 0 → pa < 2 ^ 48 →
      (s.spot g (g.regs.pairS x).toNat 128 .write false = .mem pa → done (.fmtsetSt x n)) ∧
      (s.spot g (g.regs.pairS x).toNat 128 .read false = .mem pa → s.mem.risen → s.mem.quiet (pa / 4) → g.tasks = [] → s.noTargets c.gid →
        (∀ i, i < 32 → SMap.find s.mem.l1 (l1Key g.core (pa / 4 + i)) = none ∨
          ∃ e, SMap.find s.mem.l1 (l1Key g.core (pa / 4 + i)) = some e ∧ e.owned = true) →
        formatOf (wordsNat ((List.range 32).map (fun i => s.sees g c.map.low (.mem pa) i))) ≠ none → done (.fmtsetLd x n))) ∧
    (s.blocksWait g t x (y + 1) = none → done (.accZero x y) ∧ (t.damage x (y + 1) = none → done (.scaleObs x y n))) ∧
    (s.blocksWait g t x 1 = none → done (.accLd x y b40) ∧
      (t.damage x 1 = none → g.width ∈ [8, 16, 32, 64] →
        (regs → done (.accMov x y n)) ∧ (y + 1024 / g.width ≤ 64 → done (.accMovRaw x y n)) ∧
        ∀ tl gv tv, let src := (g.regs.getS y).toNat
          let hv := g.regs.getH (src / 2 ^ 16 % 16)
          let v := s.commitTasks c.gid c.map
          src < 2 ^ 20 → s.calm c.gid (hCore hv) (hSlot hv) → s.currentTile g hv = some tl → tl.sealed = false → tl.core = s.homeCore g →
          src % 2 ^ 16 + 64 * (otypeFmt f.otype).width ≤ 256 * tl.units → SMap.find v.groups c.gid = some gv →
          v.kennel.tileAt tl.core tl.slot = some tv → gv.live = g.live → done (.accMovTile x y n)))) ∧
  (∀ (s : State) (c : Cur) (g gv : Group) (n : Nat) (int w : Bool), s.issuing c g → c.map ≠ 0 →
    let v := s.commitTasks c.gid c.map
    let ctl := s.pairCtl g.core g.pairNo
    let key := g.core * 3 + g.pairNo
    let born := g.firstAge c.map c.pc c.slot s.clock
    let now := !v.olderWaits (linkWaits g.core g.pairNo) born g.gcn && (v.regrant g.core g.pairNo).isNone &&
      v.linkFits g.core g.pairNo (n + 1) && !v.frozen
    (c.map ≠ g.live → ∀ i ∈ [Instr.link n int, .unlink, .pair w, .leashTake, .leashPass, .burst n], raises i s c 0x03 c.map) ∧
    (c.map = g.live → SMap.find v.groups c.gid = some gv →
      (g.tile ≠ none ∨ ctl.reserve < linkNeed (n + 1) → raises (.link n int) s c 0x0D c.map) ∧
      (g.tile = none → linkNeed (n + 1) ≤ ctl.reserve →
        (now = true → ∀ tl : LinkTile, tl = { n := n + 1, int := int, pairNo := g.pairNo } →
          movesFrom { v with pairs := SMap.put s.pairs key { ctl with tiles := ctl.tiles ++ [c.gid] } } (.link n int) s c
            { gv with tile := some tl } (fun h => h.regs = g.regs ∧ g.nextPacket c h)) ∧
        (now = false → becomes (.link n int) s c.gid (fun u h => h.regs = g.regs ∧ u.pairs = s.pairs ∧
          g.parksAt c s.clock (.link (n + 1) int) h))) ∧
      (g.tile = none → ∀ i ∈ [Instr.unlink, .pair w, .burst n], raises i s c 0x0D c.map) ∧
      (∀ t, g.tile = some t →
        (s.feeder t ≠ [] → exec .unlink s = .next (s.stopAt c .wait)) ∧
        (s.feeder t = [] → becomes .unlink s c.gid (fun u h => h.regs = g.regs ∧ h.tile = none ∧ u.mem = s.mem ∧
          (u.pairCtl g.core t.pairNo).tiles = (s.pairCtl g.core t.pairNo).tiles.erase c.gid ∧
          (t.paired = true → t.partner ≠ c.gid → ∀ q z, SMap.find u.groups t.partner = some q → q.tile = some z → z.paired = false))) ∧
        (g.core % 8 = (if w then 0 else 7) → raises (.pair w) s c 0x0D c.map) ∧
        (g.core % 8 ≠ (if w then 0 else 7) → t.queue ≠ [] → exec (.pair w) s = .next (s.stopAt c .wait)) ∧
        (g.core % 8 ≠ (if w then 0 else 7) → t.queue = [] → becomes (.pair w) s c.gid (fun u h => h.regs = g.regs ∧ h.tile = g.tile ∧
          u.pairs = s.pairs ∧ g.parksAt c s.clock (.pair w) h)) ∧
        (let q := s.pairCtl g.core t.pairNo
         let bursts := fun (q2 : PairCtl) =>
           movesFrom { s with pairs := SMap.put s.pairs (g.core * 3 + t.pairNo) q2 } (.burst n) s c g (fun h => h.regs = g.regs)
         (q.ramp ≠ 0 → bursts { q with burst := n + 1 }) ∧
         (q.ramp = 0 → bursts { q with burst := n + 1, ramp := 1, idle := s.clock }))) ∧
      (g.leash.state = 1 → g.leash.due = false → raises .leashTake s c 0x0C c.map) ∧
      (g.leash.state = 1 → g.leash.due = true →
        movesFrom s .leashTake s c { g with leash := { g.leash with due := false } } (fun h => h.regs = g.regs ∧ g.nextPacket c h)) ∧ (g.leash.state ≠ 1 → raises .leashPass s c 0x0C c.map) ∧
      (g.leash.state ≠ 1 →
        let l : LeashRec := if g.leash.state = 2 then g.leash else ⟨2, g.core, g.pairNo, born, false⟩
        let own := s.pairCtl l.core l.pair
        (own.leashOwner = none →
          movesFrom { s with pairs := SMap.put s.pairs (l.core * 3 + l.pair) { own with leashOwner := some c.gid } } .leashTake s c
            { g with leash := { l with state := 1, due := false } } (fun h => h.regs = g.regs ∧ g.nextPacket c h)) ∧
        (own.leashOwner ≠ none → becomes .leashTake s c.gid (fun u h => h.regs = g.regs ∧ u.pairs = s.pairs ∧
          h.leash = { l with state := 2, due := false } ∧ g.parksAt c s.clock (.leash l.core l.pair) h))) ∧
      (g.leash.state = 1 → SMap.rises s.groups → becomes .leashPass s c.gid (fun u h => h.regs = g.regs ∧ h.leash.state = 0 ∧ u.mem = s.mem ∧
        match (s.setGroup c.gid { g with leash := {} }).leashHead g.leash.core g.leash.pair with
        | some (k, _) => (u.pairCtl g.leash.core g.leash.pair).leashOwner = some k
        | none => (u.pairCtl g.leash.core g.leash.pair).leashOwner = none)))) ∧
  (∀ (s : State) (c p : Nat),
    (∀ w n int, s.regrant c p = none → oldest (s.waiters (linkWaits c p)) = some w → w.p.why = .link n int →
      SMap.find s.groups w.id = some w.g → s.linkFits c p n = true → s.frozen = false →
      becomes (.linkGrant c p) s w.id (fun u h => h.tile = some { n := n, int := int, pairNo := w.g.pairNo } ∧ h.regs = w.g.regs ∧
        u.mem = s.mem ∧ ∀ t, w.p.map.getLsbD t = true → h.stands t (w.p.pc + 12) 0 .runnable)) ∧
    (∀ id t g, s.regrant c p = some (id, t) → SMap.find s.groups id = some g → s.linkFits c p t.n = true → s.frozen = false →
      becomes (.linkGrant c p) s id (fun u h => h = { g with tile := some { t with pending := false } } ∧ id ∈ (u.pairCtl c p).tiles ∧
        u.mem = s.mem)) ∧
    (∀ a b ta tb, c % 8 ≠ 7 →
      oldest ((s.pairAsks c p false).filter (fun a => (s.pairAsks (c + 1) p true).any (fun b => b.g.grid == a.g.grid))) = some a →
      oldest ((s.pairAsks (c + 1) p true).filter (fun b => b.g.grid == a.g.grid)) = some b →
      SMap.find s.groups a.id = some a.g → SMap.find s.groups b.id = some b.g → a.g.tile = some ta → b.g.tile = some tb →
      ta.n = tb.n → ta.int = tb.int →
      ∃ u ha hb, exec (.pairMatch c p) s = .next u ∧ SMap.find u.groups a.id = some ha ∧ SMap.find u.groups b.id = some hb ∧
        ha.tile = some { ta with paired := true, partner := b.id, leader := true } ∧
        hb.tile = some { tb with paired := true, partner := a.id, leader := false } ∧ u.mem = s.mem ∧
        (∀ t, a.p.map.getLsbD t = true → ha.stands t (a.p.pc + 12) 0 .runnable) ∧
        ∀ t, b.p.map.getLsbD t = true → hb.stands t (b.p.pc + 12) 0 .runnable) ∧
    (let q := s.pairCtl c p
     let mates := s.rampMates c p
     let set := fun (i : Instr) (l : List Nat) (f : Nat → PairCtl → PairCtl) (fill : Nat) => ∃ m n,
       exec i s = .next { s with pairs := m, snap := { s.snap with counters := n } } ∧ c ∈ l ∧
       (∀ k ∈ l, SMap.find m (k * 3 + p) = some { f k (s.pairCtl k p) with idle := s.clock }) ∧
       (∀ x, (∀ k ∈ l, x ≠ k * 3 + p) → SMap.find m x = SMap.find s.pairs x) ∧
       (fill ≠ 0 → ∀ k ∈ l, SMap.getD n (k * 64 + 28 + p) 0 = (SMap.getD s.snap.counters (k * 64 + 28 + p) 0 + fill) % 2 ^ 32)
     let due := fun k => (s.turnStep k p).isSome || (s.pairCtl k p).burst != 0 || s.pairedDue k p
     (q.ramp = 1 → set (.rampUpEnd c p) mates (fun _ r => { r with ramp := 2 }) 32) ∧
     (q.ramp = 2 → q.burst = 0 → s.gridQuiet c p 64 = true → set (.rampDownStart c p)
       (mates.filter (fun k => (s.pairCtl k p).ramp == 2 && (s.pairCtl k p).burst == 0 && s.gridQuiet k p 64)) (fun _ r => { r with ramp := 3 }) 0) ∧
     (q.ramp = 2 → s.gridQuiet c p 512 = true → set (.burstExpiry c p)
       (mates.filter (fun k => (s.pairCtl k p).ramp == 2 && s.gridQuiet k p 512)) (fun _ r => { r with ramp := 3, burst := 0 }) 0) ∧
     (q.ramp = 3 → set (.rampDownEnd c p) mates (fun k r => { r with ramp := if due k = true then 1 else 0 }) 16)))

/-- O38. In a linked group's whole live set: FMTSET sets the named field, or clears status bits, and refuses a type code with 0x01; .get reads a field; .ld and .st move the 128-byte image. ACC.LD loads every element of a block from its fragment, ACC.ZERO zeroes a range of blocks, ACC.MOV writes the dwords of the converted elements to the fragment's lanes and registers and counts in the record, .raw the 40-bit codes in pairs, .tile the bytes to a filling tile of the home core. SCALE.OBS puts the blocks' amax into the history, SCALE.NEXT sets NOCHG where no entry is non-zero or one is not finite, else SEXP to MARGIN plus the least e with the greatest entry at most 2^e times OTYPE's largest value, bounded (a free value where that entry is not positive, log 145). No other block, record, register or byte changes (a core's copy may give way to what the slices answer), where no render-target word of the group is in flight. Each word so completes; a block with a queued step makes it wait; an unlinked group raises 0x0D, a partial set 0x03. -/
def Obligations.FormatsAndBlocks : Prop :=
  (∀ (s : State) (c : Cur) (g : Group) (x y n : Nat) (b40 : Bool), s.issuing c g →
    let all := [Instr.fmtset x y n, .fmtsetGet x y n, .fmtsetLd x n, .fmtsetSt x n, .accLd x y b40, .accMov x y n, .accMovRaw x y n,
      .accMovTile x y n, .accZero x y, .scaleObs x y n, .scaleNext n]
    (c.map ≠ g.live → ∀ i ∈ all, raises i s c 0x03 c.map) ∧
    (c.map = g.live → g.tile = none → ∀ i ∈ all, raises i s c 0x0D c.map) ∧
    ∀ t, c.map = g.live → g.tile = some t →
    let f := t.fmt n
    let tiles := fun (i : Instr) (p : LinkTile → Prop) => ∃ t2, p t2 ∧ movesFrom s i s c { g with tile := some t2 } (fun h => h.regs = g.regs)
    let block := fun (t2 : LinkTile) (k m : Nat) (code : Nat → Nat → Nat) =>
      (∀ a b, b < 512 → t2.code a b = if k ≤ a ∧ a < k + m then code a b else t.code a b) ∧
      t2 = { t with acc := t2.acc, bad := t.bad.filter (fun b => !(decide (k ≤ b) && decide (b < k + m))), iov := t2.iov }
    (y ≠ 31 → f.set y (fieldSource g x y) = none → raises (.fmtset x y n) s c 0x01 c.map) ∧
    (∀ f2, y ≠ 31 → f.set y (fieldSource g x y) = some f2 → tiles (.fmtset x y n) (fun t2 => t2 = t.setFmt n f2)) ∧
    (y = 31 → tiles (.fmtset x y n) (fun t2 => t2 = t.clearStatus (g.regs.getS x).toNat) ∧
      leaves (.fmtsetGet x y n) s c g (fun r => r = g.regs.setS x (BitVec.ofNat 32 t.status))) ∧
    (y ≠ 31 → leaves (.fmtsetGet x y n) s c g (fun r =>
      r = if y = 12 ∨ y = 13 then g.regs.setPairS x (BitVec.ofNat 64 (f.get y)) else g.regs.setS x (BitVec.ofNat 32 (f.get y)))) ∧
    (∀ pa, pa % 128 = 0 → pa < 2 ^ 48 →
      (s.spot g (g.regs.pairS x).toNat 128 .read false = .mem pa → s.mem.risen → s.mem.quiet (pa / 4) → s.noTargets c.gid →
        ∃ ws : List Word, ws.length = 32 ∧ (∀ i, i < 32 → s.takes g c.map.low pa i (ws.getD i 0)) ∧
          (formatOf (wordsNat ws) = none → raises (.fmtsetLd x n) s c 0x01 c.map) ∧
          ∀ f2, formatOf (wordsNat ws) = some f2 → ∃ m tr u, exec (.fmtsetLd x n) s = .next u ∧
            ({ s with mem := m, trans := tr }).passed c { g with tile := some (t.setFmt n f2) } g.regs u ∧
            s.mem.sameBytes m s.mem.inFlight) ∧
      (s.spot g (g.regs.pairS x).toNat 128 .write false = .mem pa → s.mem.risen → s.noTargets c.gid →
        (∀ i, i < 32 → s.mem.ownOnly g.core (pa / 4 + i)) →
        ∃ m tr u, exec (.fmtsetSt x n) s = .next u ∧ ({ s with mem := m, trans := tr }).passed c g g.regs u ∧
          (∀ i, i < 32 → m.coreWord g.core (pa / 4 + i) = (natWords 32 f.image).getD i 0) ∧
          s.mem.sameBytes m (fun a => s.mem.inFlight a ∨ (pa ≤ a ∧ a < pa + 128)))) ∧
    (∀ e, s.blocksWait g t x 1 = some e → exec (.accLd x y b40) s = .next (s.stopAt c e)) ∧
    (s.blocksWait g t x 1 = none → tiles (.accLd x y b40) (fun t2 => block t2 x 1 (fun _ m =>
      if b40 then (takeCode t.int ((g.regs.pairV (m % g.width) (y + 2 * (m / g.width))).toNat % 2 ^ 40)).1
      else widenCode t.int (g.regs.getV (m % g.width) (y + m / g.width))))) ∧
    (s.blocksWait g t x (y + 1) = none → tiles (.accZero x y) (fun t2 => block t2 x (y + 1) (fun _ _ => 0))) ∧
    (s.blocksWait g t x 1 = none → t.damage x 1 = none → g.width ∈ [8, 16, 32, 64] →
      let conv := (List.range 512).map (fun m => f.convert (accValue t.int (t.code x m)))
      let w := (otypeFmt f.otype).width
      let bits := packCodes w (conv.map Prod.fst)
      let counted : FormatRec := { f with
        satcnt := min (2 ^ 32 - 1) (f.satcnt + (conv.filter (fun e => e.2.1)).length),
        uflcnt := min (2 ^ 32 - 1) (f.uflcnt + (conv.filter (fun e => e.2.2)).length) }
      let frag := fun (r : Regs) (top : Nat) (dword : Nat → Nat → Word) => r = { g.regs with v := r.v } ∧
        ∀ l k, l < g.width → k < 64 → r.getV l k = if g.live.getLsbD l = true ∧ y ≤ k ∧ k < top then dword l (k - y) else g.regs.getV l k
      (y + (16 * w + g.width - 1) / g.width ≤ g.vcount → g.vcount ≤ 64 →
        movesFrom s (.accMov x y n) s c { g with tile := some (t.setFmt n counted) } (fun h =>
          frag h.regs (y + (16 * w + g.width - 1) / g.width) (fun l k =>
            if k * g.width + l < 16 * w then BitVec.ofNat 32 (bits / 2 ^ (32 * (k * g.width + l))) else g.regs.getV l (y + k)))) ∧
      (y + 1024 / g.width ≤ 64 → leaves (.accMovRaw x y n) s c g (fun r => frag r (y + 1024 / g.width) (fun l k =>
        let code := t.code x (k / 2 * g.width + l)
        let v := BitVec.ofNat 64 (if t.int then codeOf 64 (signedOf 40 code) else code)
        if k % 2 = 0 then lowWord v else highWord v))) ∧
      (∀ tl gv, let src := (g.regs.getS y).toNat
        let hv := g.regs.getH (src / 2 ^ 16 % 16)
        let v := s.commitTasks c.gid c.map
        src < 2 ^ 20 → s.calm c.gid (hCore hv) (hSlot hv) → s.currentTile g hv = some tl → tl.sealed = false →
        tl.core = s.homeCore g → src % 2 ^ 16 + 64 * w ≤ 256 * tl.units → SMap.find v.groups c.gid = some gv →
        ∀ tv, v.kennel.tileAt tl.core tl.slot = some tv →
        movesFrom { v with kennel := v.kennel.setTile (tv.write (src % 2 ^ 16) (bytesOf (64 * w) bits)) } (.accMovTile x y n) s c
          { gv with tile := some (t.setFmt n counted) } (fun h => h.regs = g.regs))) ∧
    (s.blocksWait g t x (y + 1) = none → t.damage x (y + 1) = none → tiles (.scaleObs x y n) (fun t2 => t2 = t.setFmt n
      { f with
        hist := f.entries.set f.hpos (Fmt.fa40.deliver 2 false (amaxOf ((List.range ((y + 1) * 512)).map (fun m =>
          accValue t.int (t.code x m))))).1,
        hpos := (f.hpos + 1) % 16, hcnt := min (f.hcnt + 1) 16 })) ∧
    tiles (.scaleNext n) (fun t2 => ∃ f2, t2 = t.setFmt n f2 ∧
      let top := (otypeFmt f.otype).decode (otypeFmt f.otype).maxCode
      ((∃ v ∈ f.valid, v.finite = false) ∨ (∀ v ∈ f.valid, v.isZero = true) → f2 = { f with nochg := true }) ∧
      (∀ v ∈ f.valid, (∀ w ∈ f.valid, w.finite = true ∧ v.lt w = false) → (Num.fin false 0 0).lt v = true →
        ∃ e : Int, (top.scale e).lt v = false ∧ (top.scale (e - 1)).lt v = true ∧
          f2 = { f with nochg := false, sexp := max (-128) (min 127 (e + f.margin)) }) ∧
      ((∀ v ∈ f.valid, v.finite = true ∧ (Num.fin false 0 0).lt v = false) → (∃ v ∈ f.valid, v.isZero = false) →
        ∃ e : Int, -128 ≤ e ∧ e ≤ 127 ∧ f2 = { f with nochg := false, sexp := e }))) ∧
  (∀ (f f2 : FormatRec) (code v : Nat), f.set code v = some f2 → ∀ e ∈ [(0, 4), (1, 4), (2, 4), (3, 2), (4, 1), (5, 2), (6, 8), (7, 8),
    (8, 8), (9, 1), (10, 1), (11, 6), (12, 48), (13, 48), (14, 32), (15, 32), (16, 32), (17, 32)],
    (code = e.1 → f2.get code = v % 2 ^ e.2) ∧ (code ≠ e.1 → code < 18 → f2.get e.1 = f.get e.1))

/-- The rational number of a finite value. -/
def Sys2Proof.Machine.Num.rat : Num → Rat
  | .fin neg m e => (if neg then -1 else 1) * (m : Rat) * (2 : Rat) ^ e
  | _ => 0

/-- O39. A TMMA or TMMA.Q whose types are refused or of a follower raises 0x0D; with the queue full it waits at issue; else the queue gains a step that holds its block, operands, record, DX base and fragments, and nothing else changes; RBOX queues a pass with its rays and boxes likewise. Each element of a working copy is its code brought through 16 k-groups: to each, the exact sum of k products is added, and the result is saturated to 40 bits, or rounded once to FA40. The step whose turn it is starts on a WARM free grid, unless a follower's word that asked first is to have the block, with its working copy formed from the fetched operands, holds a fault of the fetch, and brings a COLD grid, and a follower's with it, to ramp up; no byte of memory changes. Damage holds cause 0x15 instead of a commit. A commit writes the working copy to the block alone, counts the step, gathers the status bits, and frees the grid. A held fault is raised at a boundary, damage that the step would read before it; a completed pass writes its 128 pairs to the live lanes. -/
def Obligations.GridSteps : Prop :=
  (∀ (s : State) (c : Cur) (g : Group) (t : LinkTile) (x y z n : Nat) (fb fa : Bool), s.issuing c g → c.map = g.live → g.tile = some t →
    let f := t.fmt n
    let op := fun i => g.regs.getS (y + i)
    let da := fragDwords (slabRows t.paired false) f.stepK f.typea
    let db := fragDwords 32 f.stepK f.typeb
    let room := fun (on : Bool) (r d : Nat) => on = true → r % 64 + (d + g.width - 1) / g.width ≤ g.vcount
    let frag := fun (on : Bool) (r d : Nat) => if on then (List.range d).map (fun k => g.regs.getV (k % g.width) (r % 64 + k / g.width)) else []
    (∀ e ∈ [(Instr.tmma x y fb fa n, StepKind.tmma), (.tmmaQ x y fb fa n, .tmmaQ)],
      (f.refused t.int (e.2 == .tmmaQ) = true ∨ (t.paired = true ∧ t.leader = false) → raises e.1 s c 0x0D c.map) ∧
      (f.refused t.int (e.2 == .tmmaQ) = false → (t.paired = true → t.leader = true) → room fa (op 0).toNat da → room fb (op 4).toNat db →
        (2 ≤ t.queue.length ∨ s.partnerEnding t = true → exec e.1 s = .next (s.stopAt c .wait)) ∧
        (t.queue.length < 2 → s.partnerEnding t = false → ∃ q : QStep, movesFrom s e.1 s c { g with tile := some { t with queue := t.queue ++ [q] } } (fun h => h.regs = g.regs) ∧
          q.kind = e.2 ∧ q.pc = c.pc ∧ q.slot = c.slot ∧ q.block = x ∧ q.ops = (List.range 8).map op ∧ q.fmt = f ∧ q.dx = g.regs.getS f.dxreg ∧
          q.fa = fa ∧ q.fb = fb ∧ q.fragA = frag fa (op 0).toNat da ∧ q.fragB = frag fb (op 4).toNat db ∧ q.map = c.map ∧ q.started = false))) ∧
    (t.paired = true → t.leader = false → raises (.rbox x y z) s c 0x0D c.map) ∧
    ((t.paired = true → t.leader = true) →
      (2 ≤ t.queue.length ∨ s.partnerEnding t = true → exec (.rbox x y z) s = .next (s.stopAt c .wait)) ∧
      (t.queue.length < 2 → s.partnerEnding t = false → ∃ q : QStep, movesFrom s (.rbox x y z) s c { g with tile := some { t with queue := t.queue ++ [q] } }
          (fun h => h.regs = g.regs) ∧ q.kind = .rbox ∧ q.block = z ∧ q.started = false ∧
        (∀ r i, r < 8 → i < 16 → q.fragA.getD (16 * r + i) 0 = g.regs.getV i (x + r)) ∧
        (∀ r i, r < 6 → i < 8 → q.fragB.getD (8 * r + i) 0 = g.regs.getV i (y + r))))) ∧
  (∀ (s : State) (c p id : Nat) (g : Group) (t : LinkTile) (q : QStep) (r : List QStep), SMap.find s.groups id = some g → g.tile = some t →
    g.core = c → t.pairNo = p → t.queue = q :: r →
    let ctl := s.pairCtl c p
    let idle := fun (l : List QStep) => l.map (fun q => { q with held := none })
    let queue := fun (q2 : QStep) (h : Group) =>
      ∃ r2, idle r2 = idle r ∧ h = { g with tile := some { t with queue := q2 :: r2 } }
    let alone := t.paired = true → ∀ k, SMap.find s.groups t.partner = some k → k.live ≠ 0
    (s.turnStep c p = some (id, g, q) → ctl.running = none → q.waits = none → q.held = none → s.pairedDue c p = false →
      (s.wordFirst t q = true → (∀ k, s.partnerCore t = some k → (s.pairCtl k p).running = none) → exec (.stepStart c p) s = .next s) ∧
      (s.wordFirst t q = false →
      (∀ k, s.partnerCore t = some k → (s.pairCtl k p).running = none) →
      let v := s.forGrid g.grid
      (ctl.ramp = 0 → ∃ m, exec (.stepStart c p) s = .next { s with pairs := m } ∧
        ∀ k ∈ c :: (s.partnerCore t).toList, SMap.find m (k * 3 + p) = some { s.pairCtl k p with ramp := 1, idle := s.clock }) ∧
      (ctl.ramp = 2 → q.kind ≠ .rbox → ∀ k a, v.fetchStep g t q = .error (.fault k a) → becomes (.stepStart c p) s id (fun u h =>
        queue { q with held := some (k, a) } h ∧ u.pairs = s.pairs ∧ u.mem = v.mem)) ∧
      (ctl.ramp = 2 → q.kind ≠ .rbox → s.mem.risen → ∀ x, v.fetchStep g t q = .ok x → becomes (.stepStart c p) s id (fun u h =>
        queue { q with started := true, work := workCopy t.int q.fmt.groupK (t.code q.block) (x.a.take 16) x.b ::
          (if t.paired then [workCopy t.int q.fmt.groupK (s.partnerCode t q.block) (x.a.drop 16) x.b] else []) } h ∧
        (u.pairCtl c p).running = some id ∧ s.mem.sameBytes u.mem s.mem.inFlight)) ∧
      (ctl.ramp = 2 → q.kind = .rbox → t.hurts q = none → s.mem.risen → becomes (.stepStart c p) s id (fun u h =>
        queue { q with started := true } h ∧ (u.pairCtl c p).running = some id ∧ s.mem.sameBytes u.mem s.mem.inFlight)))) ∧
    (ctl.running = some id → q.started = true → g.live ≠ 0 → alone → q.kind ≠ .rbox →
      (∀ b, s.stepHurt t q = some b → becomes (.stepCommit c p) s id (fun u h => u.mem = s.mem ∧ (u.pairCtl c p).running = none ∧
        h = { g with tile := some { t with queue := { q with started := false, work := [], held := some (0x15, b) } :: r.map QStep.undo } })) ∧
      (s.stepHurt t q = none →
      (∀ w, t.paired = false → q.work = [w] → w.codes.length = 512 → becomes (.stepCommit c p) s id (fun u h => ∃ t2, h = { g with tile := some t2 } ∧
        (∀ k m, m < 512 → t2.code k m = if k = q.block then w.codes.getD m 0 else t.code k m) ∧ idle t2.queue = idle r ∧ t2.fmts = t.fmts ∧
        t2.steps = (t.steps + 1) % 2 ^ 16 ∧ t2.finf = (t.finf || w.finf) ∧ t2.fnv = (t.fnv || w.fnv) ∧ t2.iov = (t.iov || w.iov) ∧
        (u.pairCtl c p).running = none ∧ u.mem = s.mem)) ∧
      (∀ w w2 k z, t.paired = true → q.work = [w, w2] → w2.codes.length = 512 → t.partner ≠ id → SMap.find s.groups t.partner = some k → k.tile = some z →
        ∃ u k2 z2, exec (.stepCommit c p) s = .next u ∧ SMap.find u.groups t.partner = some k2 ∧ k2.tile = some z2 ∧
          ∀ m, m < 512 → z2.code q.block m = w2.codes.getD m 0))) ∧
    (ctl.running = some id → q.started = true → g.live ≠ 0 → alone → q.kind = .rbox → t.hurts q = none → g.width ∈ [16, 32, 64] →
      q.block + 256 / g.width ≤ 64 →
      becomes (.rboxPassComplete c p) s id (fun u h => (∃ v, h = { g with regs := { g.regs with v := v }, tile := some { t with queue := r } }) ∧
        u.mem = s.mem ∧ (u.pairCtl c p).running = none ∧ ∀ m, m < 128 → g.live.getLsbD (m % g.width) = true →
          let res := rayBox (fun k => q.fragA.getD (16 * k + m % 16) 0) (fun k => q.fragB.getD (8 * k + m / 16) 0)
          h.regs.getV (m % g.width) (q.block + m / g.width) = res.1 ∧
          h.regs.getV (m % g.width) (q.block + 128 / g.width + m / g.width) = res.2)) ∧
    (∀ k a e, q.held = some (k, a) → g.async = some 7 → g.life = .resident → g.live ≠ 0 →
      g.images.find? (fun e => e.wait == .runnable) = some e →
      let fresh := fun (z : LinkTile) => { z with bad := z.bad.filter (fun b => b != slabArea) }
      ∃ (w : State) (x : Nat × Nat), exec (.stepFault id) s = .next (w.deliver id x.1 (q.map &&& g.live) x.2 e.pc e.slot false) ∧
        (k = 0x0D ∨ t.hurts q = none → x = (k, a)) ∧ (∀ b, k ≠ 0x0D → t.hurts q = some b → x = (0x15, b)) ∧
        w = { s with groups := w.groups } ∧
        SMap.find w.groups id = some { g with tile := some { fresh t with queue := { q with held := none } :: r } } ∧
        (∀ z y, t.paired = true → t.partner ≠ id → SMap.find s.groups t.partner = some z → z.tile = some y →
          SMap.find w.groups t.partner = some { z with tile := some (fresh y) }) ∧
        ∀ n, n ≠ id → (t.paired = true → n ≠ t.partner) → SMap.find w.groups n = SMap.find s.groups n)) ∧
  (∀ (int : Bool) (k m : Nat) (code : Nat → Nat) (a b : List (List Machine.Num)), m < 512 →
    let row := (a.getD (m / 32) []).map Machine.Num.rat
    let col := (b.getD (m % 32) []).map Machine.Num.rat
    (∀ v ∈ a.getD (m / 32) [] ++ b.getD (m % 32) [], v.finite = true ∧ (int = true → ∃ z, v = Machine.Num.ofInt z)) →
    ∃ acc : Nat → Nat, acc 0 = code m ∧ (workCopy int k code a b).codes.getD m 0 = acc 16 ∧ ∀ n, n < 16 →
      let sum : Rat := ((List.range k).map (fun e => row.getD (n * k + e) 0 * col.getD (n * k + e) 0)).sum
      (int = true → ∃ z : Int, (z : Rat) = (signedOf 40 (acc n) : Rat) + sum ∧
        acc (n + 1) = codeOf 40 (max (-(2 ^ 39 - 1)) (min (2 ^ 39 - 1) z))) ∧
      (int = false → (Fmt.fa40.decode (acc n)).finite = true → ∃ v : Machine.Num, v.finite = true ∧
        v.rat = (Fmt.fa40.decode (acc n)).rat + sum ∧ acc (n + 1) = Fmt.fa40.roundNE v))

/-- O40. Each thread of the issue set receives in vX:vX+1 the mask of its triangle, whose vertices are the signed low 24 bits of vY to vY+5: 0 for a zero area or the other winding, else bit 8j + i is set exactly when the centre (256 i + 128, 256 j + 128) lies on the inner side of each edge, or on it where it is a left edge or a top edge. No other register and nothing else changes. -/
def Obligations.Coverage : Prop :=
  ∀ (s : State) (c : Cur) (g : Group) (x y w : Nat), s.issuing c g → x + 1 < 64 → w < 3 →
    let v := fun t i => ((g.regs.getV t (y + i)).setWidth 24).toInt
    let edge := fun (a b p : Int × Int) => (b.1 - a.1) * (p.2 - a.2) - (b.2 - a.2) * (p.1 - a.1)
    ∃ mask : Nat → BitVec 64, leaves (.cover x y w) s c g (g.regs.onlyPair x (c.runs g) mask) ∧
      ∀ t, c.runs g t = true →
        let a := (v t 0, v t 1)
        let b := (v t 2, v t 3)
        let d := (v t 4, v t 5)
        let area := edge a b d
        ∀ i j, i < 8 → j < 8 →
          ((mask t).getLsbD (8 * j + i) = true ↔
            area ≠ 0 ∧ (w = 1 → 0 < area) ∧ (w = 2 → area < 0) ∧
            ∀ e ∈ [(a, b), (b, d), (d, a)],
              let sg : Int := if 0 < area then 1 else -1
              let r := sg * edge e.1 e.2 (256 * (i : Int) + 128, 256 * (j : Int) + 128)
              let ga := sg * (e.1.2 - e.2.2)
              let gb := sg * (e.2.1 - e.1.1)
              0 < r ∨ (r = 0 ∧ (0 < ga ∨ (ga = 0 ∧ 0 < gb))))

/-- O41. A refused control word or register range raises 0x01, a misaligned descriptor address 0x04, a refused descriptor 0x12. When no thread meets a fault, each thread of the issue set receives its result as four FP32 codes or two packed FP16 pairs, and the NRP predicate its not-resident flag; no other register changes, and where no page is asked for no streaming state, and no byte of memory outside words with a registration in flight. TEX.LOAD of a plain texture whose level-0 page is marked resident returns the texel's bytes as converted under the format, and zeros outside the level; a nearest TEX.SMP returns that of the texel at the whole parts of u × W and v × H, and TEX.GATHER inside the level the component of the four texels from the whole parts of u × W − 1/2 and v × H − 1/2 on, where the products are exact in FP32. -/
def Obligations.Texturing : Prop :=
  ∀ (s : State) (c : Cur) (g : Group) (x y z : Nat), s.issuing c g → g.vcount ≤ 64 →
    let ctl := (g.regs.getS (z + 2)).toNat
    let lodm := ctl / 8 % 4
    let half := decide (ctl / 32 % 2 = 1)
    let nd := if half then 2 else 4
    let va := (g.regs.pairS z).toNat
    let bad := ctl / 2 ^ 16 ≠ 0 ∨ lodm = 3 ∨ x % nd ≠ 0 ∨ g.vcount < x + nd ∨
      g.vcount < y + 2 + (if lodm = 0 then 0 else 1) + (if lodm = 2 then 1 else 0)
    let all := [Instr.texSmp x y z, .texLoad x y z, .texGather x y z]
    (bad → ∀ i ∈ all, raises i s c 0x01 c.map) ∧
    (¬ bad → va % 64 ≠ 0 → ∀ i ∈ all, raises i s c 0x04 c.map) ∧
    (¬ bad → va % 64 = 0 → ∀ b, s.readX g va 64 = .ok b →
      (texOf (natOf b) = none → ∀ i ∈ all, raises i s c 0x12 c.map) ∧
      ∀ d table, texOf (natOf b) = some d → s.tableImage g d = .ok table →
        (∀ e ∈ [(Instr.texSmp x y z, s.sampleLane g d table ctl lodm y), (.texLoad x y z, s.loadLane g d table lodm y),
            (.texGather x y z, s.gatherLane g d table ctl lodm y)],
          (∀ t, c.runs g t = true → (e.2 t).faults = [] ∧ s.askFaults g d (e.2 t).asks = []) →
          ∃ m tr st de te u r, exec e.1 s = .next u ∧
            ({ s with mem := m, trans := tr, stream := st, decodes := de, texels := te }).passed c g r u ∧
            (∀ t n, n < 64 → r.getV t n = if c.runs g t = true ∧ x ≤ n ∧ n < x + nd then
              (texWords half (e.2 t).colour).getD (n - x) 0 else g.regs.getV t n) ∧
            (∀ n t, t < g.width → (r.getP n).getLsbD t =
              if n = ctl % 8 ∧ n ≠ 0 ∧ c.runs g t = true then (e.2 t).nrp else (g.regs.getP n).getLsbD t) ∧
            r = { g.regs with v := r.v, p := r.p } ∧
            (s.mem.risen → (∀ t, c.runs g t = true → (e.2 t).asks = []) → s.mem.sameBytes m s.mem.inFlight ∧ st = s.stream)) ∧
        (∀ t bytes, lodm = 0 → d.latent = false → c.runs g t = true → 0 < d.nlev →
          let i := (g.regs.getV t y).toNat
          let j := (g.regs.getV t (y + 1)).toNat
          (d.width 0 ≤ i ∨ d.height 0 ≤ j → (s.loadLane g d table lodm y t).colour = [0, 0, 0, 0] ∧
            (s.loadLane g d table lodm y t).faults = []) ∧
          (i < d.width 0 → j < d.height 0 → s.pageCode g d (d.texelOff 0 0 i j / 65536) = .ok 1 →
            s.readX g (d.base + d.texelOff 0 0 i j) d.texelBytes = .ok bytes →
            (s.loadLane g d table lodm y t).colour = plainTexel d.fmt bytes ∧ (s.loadLane g d table lodm y t).nrp = false ∧
            (s.loadLane g d table lodm y t).faults = [])) ∧
        (∀ (t mu mv ku kv n : Nat) (texel : Nat → Nat → List Byte), lodm = 0 → d.latent = false → c.runs g t = true → 0 < d.nlev → n ≤ 100 →
          f32 (g.regs.getV t y) = .fin false (mu * 2 ^ ku) (-((n + ku : Nat) : Int)) →
          f32 (g.regs.getV t (y + 1)) = .fin false (mv * 2 ^ kv) (-((n + kv : Nat) : Int)) →
          2 * mu * d.width 0 < 2 ^ 24 → 2 * mv * d.height 0 < 2 ^ 24 →
          let held := fun i j => s.pageCode g d (d.texelOff 0 0 i j / 65536) = .ok 1 ∧
            s.readX g (d.base + d.texelOff 0 0 i j) d.texelBytes = .ok (texel i j)
          (∀ i j, d.bilinear = false → i = mu * d.width 0 / 2 ^ n → j = mv * d.height 0 / 2 ^ n → i < d.width 0 → j < d.height 0 → held i j →
            let r := s.sampleLane g d table ctl lodm y t
            r.colour = plainTexel d.fmt (texel i j) ∧ r.nrp = false ∧ r.faults = [] ∧ r.asks = []) ∧
          (∀ i j, 2 ^ n ≤ 2 * mu * d.width 0 → 2 ^ n ≤ 2 * mv * d.height 0 →
            i = (2 * mu * d.width 0 - 2 ^ n) / 2 ^ (n + 1) → j = (2 * mv * d.height 0 - 2 ^ n) / 2 ^ (n + 1) →
            i + 1 < d.width 0 → j + 1 < d.height 0 → held i j → held (i + 1) j → held i (j + 1) → held (i + 1) (j + 1) →
            let r := s.gatherLane g d table ctl lodm y t
            let comp := fun i j => (plainTexel d.fmt (texel i j)).getD (ctl / 64 % 4) 0
            r.colour = [comp i j, comp (i + 1) j, comp i (j + 1), comp (i + 1) (j + 1)] ∧ r.nrp = false ∧ r.faults = [] ∧ r.asks = [])))

/-- O42. The tentative stores of the tasks concerned commit first. With a descriptor that is read and the tiles' slots and mode bytes reached, RTST puts one word in flight with the pixels that the threads name, and RTCLR and RTDC one for each tile of their range; no register and no byte of memory changes then, outside words with an ownership registration in flight. No render-target word of the group is in flight at its issue. A tile or range beyond the descriptor raises 0x06, and a poisoned mode byte or slot that the word would read 0x15. A word arrives at a tile in memory when no older one of a common thread on its bytes is in flight; one that meets an error there only leaves cause 0x15 pending (log 185). Else pixels go over the tile's old ones, the highest lane's where they agree, and leave the slot holding their encoding under the smallest mode, and the mode byte that mode; a clear leaves the mode byte 0x01; an expansion of a listed mode leaves the slot holding its 64 pixels and mode 0. No byte outside the slot and the mode byte's word changes. -/
def Obligations.RenderTargets : Prop :=
  (∀ (s : State) (c : Cur) (g gv : Group) (x y z va : Nat) (d : Target), s.issuing c g →
    let v := s.commitTasks c.gid c.map
    ∀ v1 : State, SMap.find v.groups c.gid = some gv → v.targetAt c gv z = .ok (v1, va, d) → v.mem.risen → s.noTargets c.gid →
    let t := (g.regs.getS (z + 2)).toNat
    let n := (g.regs.getS (z + 3)).toNat
    let fails := fun (i : Instr) => exec i s = .next (v.stopAt c (.trap ⟨0x06, c.map, va⟩))
    let sends := fun (i : Instr) (l : List TargetWord) =>
      (∀ a, l.findSome? v1.targetHurt = some a → exec i s = .next (v.stopAt c (.trap ⟨0x15, c.map, a⟩))) ∧
      (l.findSome? v1.targetHurt = none → ∃ tr u, exec i s = .next u ∧
        ({ v1 with trans := tr, targets := v.targets ++ l }).passed c gv g.regs u)
    v1 = { v with mem := v1.mem, trans := v1.trans } ∧ v.mem.sameBytes v1.mem v.mem.inFlight ∧
    (d.ntiles ≤ t → fails (.rtst x y z)) ∧
    (65535 < n ∨ (n ≠ 0 ∧ d.ntiles < t + n) → ∀ i ∈ [Instr.rtclr z, .rtdc z], fails i) ∧
    (∀ ps pq : Nat → Nat,
      let slot := fun k => v1.spot gv (d.slots + 256 * k) 1 .write false = .mem (ps k)
      let mode := fun k => v1.spot gv ((d.modes + k) / 256 * 256) 1 .write false = .mem (pq k)
      let word := fun (op : TargetOp) (k : Nat) (p : Option Place) => (⟨c.gid, g.core, c.map, .mem (pq k + (d.modes + k) % 256), p, d.clear, op,
        d.modes + k, d.slots + 256 * k⟩ : TargetWord)
      d.slots % 256 = 0 →
      (t < d.ntiles → slot t → mode t → sends (.rtst x y z) [word (.pixels (((List.range g.width).filter (c.runs g)).map
        (fun i => ((g.regs.getV i y).toNat % 64, (g.regs.getV i x).toNat)))) t (some (.mem (ps t)))]) ∧
      (n ≤ 65535 → (n = 0 ∨ t + n ≤ d.ntiles) → (∀ k, t ≤ k → k < t + n → mode k) →
        sends (.rtclr z) ((List.range n).map (fun i => word .clear (t + i) none)) ∧
        ((∀ k, t ≤ k → k < t + n → slot k) →
          sends (.rtdc z) ((List.range n).map (fun i => word .expand (t + i) (some (.mem (ps (t + i)))))))))) ∧
  (∀ (s : State) (k : Nat) (w : TargetWord) (ps pm : Nat), s.targets[k]? = some w → w.mode = .mem pm → w.slot = some (.mem ps) →
    ((∃ o ∈ s.targets.take k, o.group = w.group ∧ o.map &&& w.map ≠ 0 ∧ o.mode = w.mode) → s.arriveTarget k = s) ∧
    ((∀ o ∈ s.targets.take k, o.before w = false) → (∀ va, s.targetHurt w = some va →
      s.arriveTarget k = ({ s with targets := s.targets.eraseIdx k }).modGroup w.group (fun g =>
        { g with trap := { g.trap with pendSoft := some (g.trap.pendSoft.getD va) } })) ∧ (s.targetHurt w = none →
    ps % 256 = 0 → pm / 256 ≠ ps / 256 → ps < 2 ^ 48 → pm < 2 ^ 48 → s.mem.risen →
    (∀ a, a / 64 = ps / 256 ∨ a = pm / 4 → s.mem.quiet a) →
    let read := fun (m : MemSys) (a k : Nat) => (List.range k).map (fun i => m.sliceByte (a + i))
    let mode := (s.mem.sliceByte pm).toNat
    let old := decodePixels mode w.clear (read s.mem ps 256)
    ∃ m, s.arriveTarget k = { s with targets := s.targets.eraseIdx k, mem := m } ∧
      s.mem.sameBytes m (fun a => s.mem.inFlight a ∨ a / 256 = ps / 256 ∨ a / 4 = pm / 4) ∧
      (∀ a, a / 4 = pm / 4 → a ≠ pm → m.sliceByte a = s.mem.sliceByte a) ∧
      (∀ l, w.op = .pixels l →
        let px := l.foldl (fun q e => q.set e.1 e.2) old
        let code := encodePixels (chooseMode px) px
        (m.sliceByte pm).toNat = chooseMode px ∧ read m ps code.length = code ∧
        ∀ i, code.length ≤ i → i < 256 → m.sliceByte (ps + i) = s.mem.sliceByte (ps + i)) ∧
      (w.op = .clear → m.sliceByte pm = 1 ∧ read m ps 256 = read s.mem ps 256) ∧
      (w.op = .expand → m.sliceByte pm = 0 ∧ read m ps 256 = (if modeListed mode = true then old.flatMap (bytesOf 4) else read s.mem ps 256)))))

/-- O43. A registration in flight that reaches the slice, where no other core has one in flight for the aligned pair of words, makes its core the owner with current 0 (with the pair's other word, where that stands in flight too, log 141), and takes the words from displaced owners. A recall takes a word from a core that owns its copy and is not the owner at the slice, unless its newer store is still in flight (log 14). A reply fills a word, or a sector, with what the slice answers, under words that the core owns, and no other word of any core. A write-back puts the words of the sector that the core owns at the slice with current 1, and the sector is clean; the home slice's write-back of a dirty sector moves its words to the SLC. An eviction of a line that no window holds writes its owned words back, and the core holds none of its words and owns none. Words elsewhere so stand where no other line or sector must give way for the transfer, and always read as before outside words with a registration in flight at a miss reply and at a slice's write-back. -/
def Obligations.OwnershipEvents : Prop :=
  (∀ (s : State) (c w : Nat), s.mem.risen → w < 2 ^ 46 → s.mem.regq.contains (c, w) = true → (∀ e ∈ s.mem.regq, e.2 / 2 = w / 2 → e.1 = c) →
    ∃ m : MemSys, exec (.ownershipRegistration c w) s = .next { s with mem := m } ∧
      SMap.find m.registry w = some ⟨c, false⟩ ∧
      (s.mem.regq.contains (c, sibling w) = true → SMap.find m.registry (sibling w) = some ⟨c, false⟩) ∧
      (∀ x, x / 2 ≠ w / 2 → SMap.find m.registry x = SMap.find s.mem.registry x) ∧
      m.regq = (if s.mem.regq.contains (c, sibling w) = true then (s.mem.regq.erase (c, w)).erase (c, sibling w)
        else s.mem.regq.erase (c, w)) ∧
      (∀ o, SMap.find s.mem.registry w = some o → o.core ≠ c → SMap.find m.l1 (l1Key o.core w) = none) ∧
      (∀ k, (∀ x o, x / 2 = w / 2 → SMap.find s.mem.registry x = some o → o.core ≠ c → k ≠ l1Key o.core x) →
        SMap.find m.l1 k = SMap.find s.mem.l1 k) ∧
      m.l2 = s.mem.l2 ∧ m.cells = s.mem.cells ∧ m.dirty = s.mem.dirty) ∧
  (∀ (s : State) (c w : Nat) (o : Owner) (e : L1Word), s.mem.risen → SMap.find s.mem.registry w = some o → o.core ≠ c →
    SMap.find s.mem.l1 (l1Key c w) = some e →
    ∃ m : MemSys, exec (.recall c w) s = .next { s with mem := m } ∧ m = { s.mem with l1 := m.l1 } ∧
      (s.mem.regq.contains (c, w) = true ∨ e.owned = false → m = s.mem) ∧
      (s.mem.regq.contains (c, w) = false → e.owned = true → SMap.find m.l1 (l1Key c w) = none ∧
        ∀ k, k ≠ l1Key c w → SMap.find m.l1 k = SMap.find s.mem.l1 k)) ∧
  (∀ (s : State) (c w : Nat), s.mem.quiet w → s.mayFill c (w / 32) = true →
    let keeps := ((SMap.find s.mem.l1 (l1Key c w)).map (fun e => e.owned)).getD false
    ∃ m : MemSys, exec (.forwardedRead c w) s = .next { s with mem := m } ∧ m = { s.mem with l1 := m.l1 } ∧
      ∀ k, SMap.find m.l1 k = if k = l1Key c w ∧ keeps = false then some ⟨s.mem.sliceWord w, false⟩ else SMap.find s.mem.l1 k) ∧
  (∀ (s : State) (c x : Nat), s.mem.quiet (32 * x) → s.mayFill c x = true → s.mem.risen →
    ∃ m : MemSys, exec (.readMiss c x) s = .next { s with mem := m } ∧ m.misses = s.mem.misses.erase (c, x) ∧
      s.mem.sameBytes m s.mem.inFlight ∧
      (s.mem.roomFor x → m = { s.mem with l1 := m.l1, l2 := m.l2, slc := m.slc, misses := m.misses } ∧
        (∀ i, i < 32 → SMap.find m.l1 (l1Key c (32 * x + i)) =
          match SMap.find s.mem.l1 (l1Key c (32 * x + i)) with
          | some e => if e.owned = true then some e else some ⟨s.mem.sliceWord (32 * x + i), false⟩
          | none => some ⟨s.mem.sliceWord (32 * x + i), false⟩) ∧
        (∀ k, (∀ i, i < 32 → k ≠ l1Key c (32 * x + i)) → SMap.find m.l1 k = SMap.find s.mem.l1 k) ∧
        (SMap.find m.l2 x).isSome = true ∧ ∀ w, m.sliceWord w = s.mem.sliceWord w)) ∧
  (∀ (s : State) (c x : Nat), c < 48 → s.mem.quiet (32 * x) → s.mem.risen → SMap.rises s.mem.dirty → SMap.find s.mem.dirty (secKey c x) = some () →
    ∃ m : MemSys, exec (.sectorWriteBack c x) s = .next { s with mem := m } ∧
      SMap.find m.dirty (secKey c x) = none ∧ (x / 2) ∈ m.notify ∧ (s.mem.roomFor x → m.l1 = s.mem.l1 ∧
      (∀ w e o, w / 32 = x → SMap.find s.mem.l1 (l1Key c w) = some e → SMap.find s.mem.registry w = some o →
        e.owned = true → o.core = c → m.l2Word w = e.val ∧ SMap.find m.registry w = some ⟨c, true⟩) ∧
      (∀ w, (w / 32 = x → ∀ e o, SMap.find s.mem.l1 (l1Key c w) = some e → SMap.find s.mem.registry w = some o →
          ¬ (e.owned = true ∧ o.core = c)) →
        m.l2Word w = s.mem.l2Word w ∧ SMap.find m.registry w = SMap.find s.mem.registry w))) ∧
  (∀ (s : State) (c x : Nat) (e : L2Sector), 48 ≤ c → s.mem.risen → SMap.find s.mem.l2 x = some e →
    (e.dirty = false ∨ c ≠ 48 + (x / 2) % 24 → exec (.sectorWriteBack c x) s = .next s) ∧
    (e.dirty = true → c = 48 + (x / 2) % 24 →
      ∃ m : MemSys, exec (.sectorWriteBack c x) s = .next { s with mem := m } ∧ (x / 2) ∈ m.notify ∧
        s.mem.sameBytes m s.mem.inFlight ∧ (s.mem.slcRoom (x / 2) → m.l1 = s.mem.l1 ∧ m.registry = s.mem.registry ∧
        SMap.find m.l2 x = some { e with dirty := false } ∧ (∀ y, y ≠ x → SMap.find m.l2 y = SMap.find s.mem.l2 y) ∧
        ∀ w, m.slcWord w = if w / 32 = x then e.data.getD (w % 32) 0 else s.mem.slcWord w))) ∧
  (∀ (s : State) (c l : Nat), c < 48 → l < 2 ^ 40 → s.mem.risen → SMap.rises s.mem.dirty → s.mem.still (64 * l) 64 →
    (∀ e ∈ s.teams, e.2.core = c → e.2.life = .resident → ∀ v ∈ e.2.lines, v.2.present = true → v.2.pa / 256 ≠ l) →
    ∃ m : MemSys, exec (.l1Eviction c l) s = .next { s with mem := m } ∧ l ∈ m.notify ∧
      (∀ i, i < 64 → SMap.find m.l1 (l1Key c (64 * l + i)) = none) ∧
      SMap.find m.dirty (secKey c (2 * l)) = none ∧ SMap.find m.dirty (secKey c (2 * l + 1)) = none ∧
      (s.mem.roomFor (2 * l) → (s.mem.l2Fill (2 * l)).roomFor (2 * l + 1) →
        (∀ k, (∀ i, i < 64 → k ≠ l1Key c (64 * l + i)) → SMap.find m.l1 k = SMap.find s.mem.l1 k) ∧
        ∀ w, let own := w / 64 = l ∧ ∃ e o, SMap.find s.mem.l1 (l1Key c w) = some e ∧ SMap.find s.mem.registry w = some o ∧
            e.owned = true ∧ o.core = c
          (own → SMap.find m.registry w = none ∧ ∀ e, SMap.find s.mem.l1 (l1Key c w) = some e → m.l2Word w = e.val) ∧
          (¬ own → SMap.find m.registry w = SMap.find s.mem.registry w ∧ m.l2Word w = s.mem.l2Word w)))

/-- O44. Outside Retain, a HOST_READ of memory that meets no carve-out returns for each byte what the SLC holds, or what the device holds where the directory records device ownership, and the directory records its host core (such an access of at most 256 bytes); what its reading leaves in the caches changes no byte. A HOST_WRITE stores its bytes so that the host and every engine read them at once, and every other byte, outside words with a registration in flight, reads at the slices as before. Either one that meets a carve-out is refused and counted, a refused read returning zeros. An access that NOTIFY_EVALUATE finds with no store of its line in flight leaves the list: a sole device waiter whose condition holds goes on at the next packet with its acquire, one whose condition does not stays, and host waits of the line alone leave the table: a sole one whose word, read at the SLC, meets its condition, with its token written. A HOST_READ of a register (addresses of log 25) returns what the tables of BAR0, the notify pages and the service capability say: zero at a wrong size or alignment and at unlisted offsets, only PSTAT and BRUP before READY, only PWRCTL and PSTAT in Retain; a read of CMDST clears LOST; the configuration space holds the identifiers and the class (log 186). -/
def Obligations.HostAccesses : Prop :=
  (∀ (s : State) (a n : Nat), a < 2 ^ 48 → s.pwr.state ≠ .retain →
    ∃ u : State, exec (.hostRead a n) s = .next u ∧ u.groups = s.groups ∧ (s.mem.risen → s.mem.sameBytes u.mem s.mem.inFlight) ∧
      (s.svc.covers a n = true → u.mem = s.mem ∧ u.host.lastRead = List.replicate n 0 ∧ u.svc.viol = min (s.svc.viol + 1) (2 ^ 32 - 1)) ∧
      (s.svc.covers a n = false → u.svc = s.svc ∧ u.host.lastRead.length = n ∧ (n ≤ 256 → s.mem.risen → ∀ i, i < n →
        Config.hostCore s.tick ∈ (SMap.getD u.mem.slc ((a + i) / 256) {}).hosts ∧ u.host.lastRead[i]? =
        some (if (SMap.getD s.mem.slc ((a + i) / 256) {}).owned = true then s.mem.sliceByte (a + i) else Memory.get s.mem.cells (a + i))))) ∧
  (∀ (s : State) (a : Nat) (d : List Byte), a < 2 ^ 48 → s.pwr.state ≠ .retain →
    ∃ u : State, exec (.hostWrite a d) s = .next u ∧ u.groups = s.groups ∧ u.host = s.host ∧
      (s.svc.covers a d.length = true → u.mem = s.mem ∧ u.svc.viol = min (s.svc.viol + 1) (2 ^ 32 - 1)) ∧
      (s.svc.covers a d.length = false → u.svc = s.svc ∧ (s.mem.risen → a + d.length ≤ 2 ^ 48 → s.mem.still (a / 4) (d.length / 4 + 2) →
        (∀ i b, d[i]? = some b → u.mem.sliceByte (a + i) = b ∧ u.mem.hostByte (a + i) = b ∧ (a + i) / 256 ∈ u.mem.notify) ∧
        ∀ x, x < 2 ^ 48 → (x < a ∨ a + d.length ≤ x) → ¬ s.mem.inFlight x → u.mem.sliceByte x = s.mem.sliceByte x))) ∧
  (∀ (s : State) (l : Nat), s.mem.notify.contains l = true → (∀ e ∈ s.mem.regq, e.2 / 64 ≠ l) → s.pwr.target ≠ .listen →
    let m : MemSys := { s.mem with notify := s.mem.notify.erase l, adds := s.mem.adds.filter (fun a => a / 256 != l) }
    (∀ id g p, SMap.find s.groups id = some g → p ∈ g.parked → p.why.watches l = true →
      (s.waiters (fun _ w => w.watches l)).length = 1 → (∀ w ∈ s.host.waits, w.pa / 256 ≠ l) →
      (s.waitHolds g.core p.why = false → g.life = .resident → exec (.notifyEvaluate l) s = .next { s with mem := m }) ∧
      (s.waitHolds g.core p.why = true → g.life = .resident → becomes (.notifyEvaluate l) s id (fun u h =>
        u.mem = ((({ s with mem := m }).waitSees g.core p.why).mem).acquire g.core p.why.waitScope ∧ (∀ q ∈ h.parked, q.why.watches l = false) ∧
        ∀ t, p.map.getLsbD t = true → h.stands t (p.pc + 12) 0 .runnable))) ∧
    ((∀ e ∈ s.groups, ∀ p ∈ e.2.parked, p.why.watches l = false) →
      ∃ u : State, exec (.notifyEvaluate l) s = .next u ∧ u.groups = s.groups ∧
        (∀ w ∈ u.host.waits, w ∈ s.host.waits) ∧ (∀ w ∈ s.host.waits, w.pa / 256 ≠ l → w ∈ u.host.waits) ∧
        (s.host.waits.filter (fun w => w.pa / 256 == l) = [] → u.mem = m) ∧
        ∀ w, s.host.waits.filter (fun w => w.pa / 256 == l) = [w] →
          let holds := waitCond w.cond (natOf (({ s with mem := m }).hRead w.pa 4).2) w.value
          (holds = false → u.host.waits = s.host.waits ∧ (s.mem.risen → s.mem.sameBytes u.mem s.mem.inFlight)) ∧
          (holds = true → u.host.waits = s.host.waits.erase w ∧ (s.svc.covers w.wakea 8 = false → s.mem.risen →
            w.token < 2 ^ 64 → natOf (u.mem.hostRead w.wakea 8) = w.token)))) ∧
  (∀ (s : State) (o n : Nat),
    let reads := fun (v : Nat) => ∃ h : HostIf, exec (.hostRead (2 ^ 48 + o) n) s = .next { s with host := h } ∧
      h = { s.host with lastRead := bytesOf n v, cmdLost := h.cmdLost } ∧
      h.cmdLost = (if o = 0x10028 ∧ n = 8 ∧ s.barOpen = true then false else s.host.cmdLost)
    let pstat := (match s.pwr.state with | .listen => 1 | .retain => 2 | _ => 0) + (if s.pwr.busy then 4 else 0) +
      s.pwr.code % 2 ^ 8 * 2 ^ 8 + Config.temperature s.tick % 2 ^ 16 * 2 ^ 16
    let brup := s.pwr.brup % 2 ^ 8 + s.pwr.brupFail % 2 ^ 8 * 2 ^ 8
    (o < 2 ^ 21 →
      (o % n ≠ 0 ∨ (n ≠ 4 ∧ n ≠ 8) → reads 0) ∧
      (s.host.ready = false → reads (if n = 8 ∧ o = 0x050 then pstat else if n = 8 ∧ o = 0x060 then brup else 0)) ∧
      (s.host.ready = true → s.barOpen = false →
        reads (if n = 8 ∧ o = 0x040 then s.pwr.pwrctl else if n = 8 ∧ o = 0x050 then pstat else 0)) ∧
      (s.barOpen = true →
        (n = 4 → o < 2 ^ 20 → reads 0) ∧ (n = 8 → 2 ^ 20 ≤ o → reads 0) ∧
        (n = 4 → ∀ q, q < 64 →
          (∀ i, o = 0x100000 + 0x1000 * q → SMap.find s.host.ifaces q = some i → reads (i.head % 2 ^ 16 + i.tail % 2 ^ 16 * 2 ^ 16)) ∧
          (o = 0x100000 + 0x1000 * q → SMap.find s.host.ifaces q = none → reads 0) ∧
          (0x100000 + 0x1000 * q < o → o < 0x101000 + 0x1000 * q → reads 0)) ∧
        (n = 8 → ∀ e ∈ [(0x000, 1 + (if s.host.restart then 2 else 0)), (0x008, s.host.ctxtb), (0x010, s.host.qitb), (0x018, s.host.dres),
            (0x020, 0), (0x040, s.pwr.pwrctl), (0x048, s.pwr.pwake), (0x050, pstat), (0x060, brup),
            (0x058, (if s.snap.held then 1 else 0) + s.snap.tag % 2 ^ 8 * 2 ^ 8 + s.snap.src % 4 * 2 ^ 16 + s.snap.clk % 2 ^ 32 * 2 ^ 32),
            (0x10000, s.host.cmda), (0x10008, s.host.cmdb), (0x10010, s.host.cmdc), (0x10018, s.host.cmdd), (0x10020, 0),
            (0x10028, s.host.cmdState % 4 + s.host.cmdCode % 2 ^ 8 * 2 ^ 8 + (if s.host.cmdLost then 2 ^ 16 else 0)),
            (0x20000, 65536 - ((List.range 32).map s.wakeUsed).sum)], o = e.1 → reads e.2) ∧
        (n = 8 → ∀ b i, b < 64 → i < 64 → o = 0x8000 + 512 * b + 8 * i →
          (∀ l, s.snap.held = true → SMap.find s.snap.latched b = some l → reads (l.getD i 0)) ∧
          (SMap.find s.snap.latched b = none → 50 ≤ b → reads 0)) ∧
        (n = 8 → (0x060 < o ∧ o < 0x8000) ∨ (0x10028 < o ∧ o < 0x20000) ∨ (0x20000 < o ∧ o < 2 ^ 20) → reads 0))) ∧
    (2 ^ 21 ≤ o → o < 2 ^ 22 → (n ≠ 4 → reads 0) ∧
      (n = 4 → ∀ e ∈ [(0x04, 0x02810001), (0x08, s.svc.sreq % 2 ^ 32), (0x0C, s.svc.sreq / 2 ^ 32 % 2 ^ 16), (0x10, 0),
        (0x14, s.svc.sstat % 4 + s.svc.scode % 2 ^ 8 * 2 ^ 8), (0x18, s.svc.viol), (0x1C, s.svc.rstat % 4 + s.svc.recoveries * 2 ^ 16),
        (0x20, s.svc.cecnt), (0x24, s.svc.uecnt)], o = 2 ^ 21 + e.1 → reads e.2)) ∧
    (2 ^ 22 ≤ o → n = 4 → (o = 2 ^ 22 → reads 0x04801FE5) ∧ (o = 2 ^ 22 + 8 → ∃ r, r < 2 ^ 8 ∧ reads (0x12000000 + r))))

/-- O45. YIELD's holds whose time has come expire. A SLEEP whose time has come and a polling WAITCMP whose condition holds go on at the next packet, the latter with its acquire. RSV_GRANT gives a waiting request the records that the immediate grant gives, and its threads go on; SPAWN_GRANT takes an entry for each offering thread, copies its record, and lets the threads issue their word again, at the age of its first issue; a saved team is wanted. A window line whose page translates is held whole by the core's window and its touchers run again at their words. A remote stash store with no older store of its group to its bytes, at a present line outside barriers in use, writes its bytes. A pending user interrupt or copy error is taken with cause 0x10 or 0x13. Where every waiter of a queue has held something of its space for 4096 clocks with nothing freed, sealed or committed, the youngest waiter leaves it for cause 0x0A at its word, a saved one's team wanted. -/
def Obligations.WaitsThatEnd : Prop :=
  (∀ (s : State) (id : Nat) (g : Group), SMap.find s.groups id = some g →
    (let h : Group := { g with bbt := g.bbt.map (fun e => if e.held ≤ s.clock then { e with held := 0 } else e) }
     exec (.yieldHoldExpiry id) s = .next { s with groups := SMap.put s.groups id h }) ∧
    (∀ k p u, g.parked[k]? = some p → p.why = .sleep u → u ≠ 0 → u ≤ s.clock → g.life = .resident →
      ∃ h, exec (.sleepTimeout id k) s = .next { s with groups := SMap.put s.groups id h } ∧ h.regs = g.regs ∧
        h.parked = g.parked.erase p ∧ ∀ t, p.map.getLsbD t = true → h.stands t (p.pc + 12) 0 .runnable) ∧
    (∀ k p pa v c e, g.parked[k]? = some p → p.why = .waitcmp pa v c e true → g.life = .resident →
      waitCond c (s.mem.waitWord g.core (pa / 4)).toNat v.toNat = true →
      becomes (.waitcmpPoll id k) s id (fun u h => h.regs = g.regs ∧ u.mem = ((s.waitSees g.core p.why).mem).acquire g.core e ∧
        ∀ t, p.map.getLsbD t = true → h.stands t (p.pc + 12) 0 .runnable)) ∧
    (∀ ps hs, g.async = some 4 → g.life = .resident → g.live ≠ 0 → g.images ≠ [] → s.mayTrap g 0x10 ps hs →
      ∃ u : State, exec (.userInterruptDelivery id) s = .next u ∧
        s.trapped id g 0x10 g.live g.trap.uiload.toNat true ps u ∧ ∀ h, SMap.find u.groups id = some h → h.trap.uipend = false) ∧
    (∀ a rest ps hs, g.trap.pendCopy = a :: rest → g.async = some 3 → g.life = .resident → g.images ≠ [] → s.mayTrap g 0x13 ps hs →
      ∃ u : State, exec (.copyErrorDelivery id) s = .next u ∧
        s.trapped id g 0x13 g.live a true ps u ∧ ∀ h, SMap.find u.groups id = some h → h.trap.pendCopy = rest) ∧
    (∀ p x y node total r d a, g.wait (fun w => match w with
        | .rsv _ _ _ _ => true
        | _ => false) = some p → p.why = .rsv x y node total → x + 1 < 64 → g.width ≤ 64 →
      SMap.find s.grids g.grid = some r → r.nodes[node]? = some d → 16 ≤ d.recsz →
      let n := fun t => (g.regs.getV t y).toNat
      let in_ := fun t => decide (t < g.width) && p.map.getLsbD t
      let sum := fun k => ((List.range k).map (fun t => if in_ t then n t else 0)).sum
      let run := total * (d.recsz / 16)
      total = sum 64 → total ≠ 0 → s.mireMay g (some node) run p.born = true → s.mireFit g.grid (some node) run = some a →
      let addr := fun t => if n t = 0 then 0 else (s.ctx g.ctx).mcfg.base + 16 * a + sum t * d.recsz
      becomes (.rsvGrant id) s id (fun u h =>
        g.regs.onlyPair x in_ (fun t => BitVec.ofNat 64 (addr t)) h.regs ∧
        h.resvs = g.resvs ++ ((List.range g.width).filter (fun t => in_ t && n t != 0)).map (fun t => ⟨t, node, addr t, n t⟩) ∧
        u.mire = s.mire ++ [⟨g.ctx, g.grid, some node, d.mpart, a, run⟩] ∧
        (∀ t, p.map.getLsbD t = true → h.stands t (p.pc + 12) 0 .runnable) ∧
        (g.life = .saved → ∀ tm, SMap.find u.teams g.team = some tm → tm.wanted = true))) ∧
    (∀ p task y offer r e tm as, g.wait (fun w => match w with
        | .spawn _ _ _ => true
        | _ => false) = some p → p.why = .spawn task y offer → g.width ≤ 64 →
      SMap.find s.grids g.grid = some r → r.taskTable[task]? = some e → SMap.find s.teams g.team = some tm →
      let lanes := (List.range g.width).filter (fun t => offer.getLsbD t)
      s.mireMay g none (offer.count * taskGranules r) p.born = true →
      (s.taskRuns g (taskGranules r) lanes.length).2 = as → as.length = lanes.length →
      becomes (.spawnGrant id) s id (fun u h => h.regs = g.regs ∧ u.grids = s.grids ∧
        u.mire = s.mire ++ as.map (fun a => ⟨g.ctx, g.grid, none, r.lpb.tpart, a, taskGranules r⟩) ∧
        h.grants = g.grants ++ (lanes.zip as).map (fun q =>
          ⟨q.1, p.pc, p.slot, q.2, Memory.read tm.tls (g.regs.getV q.1 y).toNat e.arg⟩) ∧
        h.parked = g.parked.erase p ∧ h.firsts = g.firsts ++ [⟨p.map, p.pc, p.slot, p.born, .none⟩] ∧
        (∀ t, p.map.getLsbD t = true → h.stands t p.pc p.slot .runnable) ∧
        (g.life = .saved → ∀ tn, SMap.find u.teams g.team = some tn → tn.wanted = true)))) ∧
  (∀ (s : State) (t n l pa : Nat) (m : Team) (e : WinLine) (w : Window) (leaf : TlbEntry), SMap.find s.teams t = some m →
    m.life = .resident → SMap.find m.lines (n * 65536 + l) = some e → e.present = false → e.cause = 0 → SMap.find m.windows n = some w →
    s.translate ⟨if w.tensor then .ahead m.core else .core m.core, m.ctx, true, .read⟩ (w.lineAddr l) = .ok pa leaf → pa < 2 ^ 48 →
    ∃ u : State, exec (.stashLineFill t n l) s = .next u ∧
      (let line : WinLine := ⟨true, pa / 256 * 256, leaf.w, leaf.u, leaf.bits, 0⟩
       let m2 : Team := { m with lines := SMap.put m.lines (n * 65536 + l) line }
       u.teams = SMap.put s.teams t m2) ∧
      (s.mem.still (pa / 256 * 64) 64 → ∀ i, i < 64 → (SMap.find u.mem.l1 (l1Key m.core (pa / 256 * 64 + i))).isSome = true) ∧
      ∀ id g, SMap.find s.groups id = some g → ∃ h, SMap.find u.groups id = some h ∧ h.regs = g.regs ∧
        (∀ p ∈ h.parked, p.why ≠ .window t n l) ∧
        ∀ p k, p ∈ g.parked → p.why = .window t n l → p.map.getLsbD k = true → h.stands k p.pc p.slot .runnable) ∧
  (∀ (s : State) (k g t off : Nat) (d : List Byte) (m : Team), s.mesh[k]? = some (.stash g t off d) → SMap.find s.teams t = some m →
    (∀ j o e, j < k → s.mesh[j]? = some (.stash g t o e) → off + d.length ≤ o ∨ o + e.length ≤ off) → s.lineAbsent t off d.length = false →
    (∀ o ∈ s.barriers t, o + 16 ≤ off ∨ off + d.length ≤ o) →
    ∃ b : Memory, (let m2 : Team := { m with tls := b, poison := m.poison.filter (fun x => decide (x < off / 8 ∨ (off + d.length - 1) / 8 < x)) }
      exec (.remoteStashAccess k) s = .next { s with mesh := s.mesh.eraseIdx k, teams := SMap.put s.teams t m2 }) ∧
      (Memory.wf m.tls = true → ∀ a, Memory.get b a = if off ≤ a ∧ a < off + d.length then d.getD (a - off) 0 else Memory.get m.tls a)) ∧
  (∀ (s : State) (mire : Bool) (c p r : Nat) (grid : Grid), SMap.find s.grids r = some grid →
    let q : WaitQueue := if mire = false then .kennel (s.kQueue r grid.ctx c p)
      else if c = 0 then .own r (if p = 0 then none else some (p - 1)) else .mire grid.ctx p
    let key := s.detectorKey q
    let ws := s.waiters (s.inQueue q)
    ((∀ since n, SMap.find s.detectors key = some (since, n) → n ≠ s.stirOf q ∨ s.clock < since + 4096) →
      exec (.kennelDetectorFire mire c p r) s = .next s) ∧
    ((∃ v ∈ ws, s.waiterHolds q v = false) → exec (.kennelDetectorFire mire c p r) s = .next s) ∧
    (∀ w since, (∀ v ∈ ws, s.waiterHolds q v = true) → youngest ws = some w → SMap.find s.groups w.id = some w.g →
      SMap.find s.detectors key = some (since, s.stirOf q) → since + 4096 ≤ s.clock →
      becomes (.kennelDetectorFire mire c p r) s w.id (fun u h =>
        h = { w.g with parked := w.g.parked.map (fun x => if x = w.p then { x with why := .trap 0x0A w.p.map 0 } else x) } ∧
        u.detectors = SMap.erase s.detectors key ∧ u.kennel = s.kennel ∧ u.mire = s.mire ∧ u.mem = s.mem ∧
        (w.g.life = .saved → ∀ tm, SMap.find u.teams w.g.team = some tm → tm.wanted = true))))

/-- Fill k leaves the engine, in u, and its page's residency code becomes `code` where the map's word may be written (R396, R397). -/
def Sys2Proof.Machine.State.coded (v u : State) (k : Nat) (f : Fill) (code : Nat) : Prop :=
  SMap.find u.stream.fills k = none ∧ ∀ pa leaf,
    v.translate ⟨.streaming, f.ctx, false, .write⟩ f.mapWord = .ok pa leaf → pa < 2 ^ 48 → v.svc.covers pa 4 = false →
    v.mem.still (pa / 4) 1 →
    u.mem.sliceWord (pa / 4) = (v.mem.sliceWord (pa / 4) &&& ~~~((3 : Word) <<< f.bit)) ||| (BitVec.ofNat 32 code <<< f.bit)

/-- O46. When STATUS of a posted request is non-zero, the request leaves the list. With any value but 2, the words that await it run again at their words, and steps, copies, launches, retirements and fills go on; with 2, launches and retirements fail, fills end, the words and steps that await it are to take cause 0x06 in their failing threads, and a trap whose frame awaits it ends its group. A request that found the ring full is posted once a slot is free: its 32-byte record stands at TAIL and TAIL advances. The first queued fill starts where the queue is granted and fewer than 256 run, with its entry's blocks, length and form, once the root port has come up; a bad entry, or one that may not be read, ends it with code 11. A running fill whose bytes decode writes the page's 65,536 bytes and then code 01 in the residency map; one whose read fails writes code 11. -/
def Obligations.PagesAndFills : Prop :=
  (∀ (s : State) (k a : Nat) (q : PageReq), SMap.rises s.trans.reqs → SMap.find s.trans.reqs k = some q → q.record = some a → SMap.rises s.groups →
    let v := (s.hRead (a + 28) 4).1
    let status := natOf (s.hRead (a + 28) 4).2
    let goes := fun (failed : Bool) (u : State) =>
      u.host.launches = s.host.launches.map (fun i => if i.waits = some k then { i with waits := none, failed := failed } else i) ∧
      ∀ id r, SMap.find s.grids id = some r → r.doneWait = some k → ∃ r2, SMap.find u.grids id = some r2 ∧
        r2.doneWait = none ∧ r2.doneFailed = failed
    (status = 0 → exec (.pageRequestResolved k) s = .next s) ∧
    ((∀ w ∈ s.hwaits, w.req ≠ k) →
      (status ≠ 0 → status ≠ 2 → SMap.rises s.copies → SMap.rises s.stream.fills →
        ∃ u : State, exec (.pageRequestResolved k) s = .next u ∧ SMap.find u.trans.reqs k = none ∧ u.mem = v.mem ∧ goes false u ∧
          (∀ n f, SMap.find s.stream.fills n = some f → f.waits = some k → SMap.find u.stream.fills n = some { f with waits := none }) ∧
          (∀ n c, SMap.find s.copies n = some c → c.waits = some k → SMap.find u.copies n = some { c with waits := none }) ∧
          ∀ id g, SMap.find s.groups id = some g → ∃ h, SMap.find u.groups id = some h ∧ h.regs = g.regs ∧
            (∀ p m va t, p ∈ g.parked → p.why = .page k m va → p.map.getLsbD t = true → h.stands t p.pc p.slot .runnable) ∧
            (∀ p ∈ h.parked, ∀ m va, p.why ≠ .page k m va) ∧
            (∀ w, g.frameWait = some w → w.req = some k → h.frameWait = some { w with req := none }) ∧
            ∀ tl, h.tile = some tl → ∀ x ∈ tl.queue, ∀ va, x.waits ≠ some (k, va)) ∧
      (status = 2 → (∀ e ∈ s.copies, e.2.waits ≠ some k) → (∀ e ∈ s.groups, e.2.frameWait.bind (fun w => w.req) ≠ some k) → SMap.rises s.stream.fills →
        ∃ u : State, exec (.pageRequestResolved k) s = .next u ∧ goes true u ∧
          (∀ n f, SMap.find s.stream.fills n = some f → f.waits = some k → SMap.find u.stream.fills n = none) ∧
          ((∀ e ∈ s.stream.fills, e.2.waits ≠ some k) → SMap.find u.trans.reqs k = none ∧ u.mem = v.mem) ∧
          ∀ id g, SMap.find s.groups id = some g → ∃ h, SMap.find u.groups id = some h ∧
            h = { g with parked := h.parked, tile := h.tile } ∧
            h.parked = g.parked.map (fun p => match p.why with
              | .page j m va => if j = k then { p with why := .trap 0x06 m va } else p
              | _ => p) ∧
            ∀ tl, g.tile = some tl → ∃ t2, h.tile = some t2 ∧ t2.queue = tl.queue.map (fun x => match x.waits with
              | some (j, va) => if j = k then { x with waits := none, held := some (0x06, va) } else x
              | none => x)) ∧
      (status = 2 → ∃ u : State, exec (.pageRequestResolved k) s = .next u ∧ ∀ id g w, SMap.find s.groups id = some g →
        g.frameWait = some w → w.req = some k → match SMap.find u.groups id with
          | some h => h.live = 0
          | none => True))) ∧
  (∀ (s : State) (k : Nat) (q : PageReq), SMap.rises s.trans.reqs → SMap.find s.trans.reqs k = some q → q.record = none →
    (∀ e ∈ s.trans.reqs, e.1 ≠ k → ¬ (e.2.engine = q.engine ∧ e.2.ctx = q.ctx ∧ e.2.path = q.path ∧ e.2.stage2 = q.stage2 ∧ e.2.addr / 4096 = q.addr / 4096)) →
    let c := s.ctx q.ctx
    let d := (s.hRead (c.tdesc + 24) 8).2
    let tail := natOf (d.take 4)
    let head := natOf (d.drop 4)
    let ring := 2 ^ (c.prqsz + 4)
    let at_ := c.prqb + 32 * (tail % ring)
    let full := ring ≤ (tail + 2 ^ 32 - head) % 2 ^ 32
    ∃ u : State, exec (.prqHeadPoll k) s = .next u ∧ u.trans.nextReq = s.trans.nextReq ∧
      (full → u.mem = (s.hRead (c.tdesc + 24) 8).1.mem ∧ ∃ q2, SMap.find u.trans.reqs k = some q2 ∧ q2.record = none ∧ q2.addr = q.addr) ∧
      (¬ full → (∃ q2, SMap.find u.trans.reqs k = some q2 ∧ q2.record = some at_ ∧ q2.addr = q.addr) ∧
        (s.mem.risen → s.svc.covers at_ 32 = false → s.svc.covers (c.tdesc + 24) 8 = false → (c.tdesc + 28 ≤ at_ ∨ at_ + 32 ≤ c.tdesc + 24) → q.path < 8 → c.pasid < 2 ^ 20 → c.vmid < 2 ^ 16 → q.ctx < 2 ^ 16 →
          natOf (u.mem.hostRead (c.tdesc + 24) 4) = (tail + 1) % 2 ^ 32 ∧
          (let x := natOf (u.mem.hostRead at_ 32)
           bits x 255 224 = 0 ∧ bits x 191 176 = q.ctx ∧ bits x 175 160 = c.vmid ∧ bits x 159 140 = c.pasid ∧ bits x 139 137 = q.path ∧
           flagBit x 136 = q.stage2 ∧ flagBit x 135 = q.wr ∧ bits x 47 0 = q.addr % 2 ^ 48 ∧ bits x 134 48 = 0)))) ∧
  (∀ (s : State) (k : Nat) (f : Fill), s.stream.fills.find? (fun e => !e.2.running && e.2.waits.isNone) = some (k, f) →
    s.stream.granted = true → s.pwr.brupFail ≠ 6 → (s.stream.fills.filter (fun e => e.2.running)).length < 256 → SMap.rises s.stream.fills →
    s.mem.risen → f.bit ≤ 30 →
    let q : TransReq := ⟨.streaming, f.ctx, false, .read⟩
    (s.frontPage q f.index 16 = .error none → ∃ u : State, exec .peatFillStart s = .next u ∧ s.coded u k f 3) ∧
    (∀ st2 a, s.frontPage q f.index 16 = .error (some (st2, a)) → ∃ u r, exec .peatFillStart s = .next u ∧
      SMap.find u.stream.fills k = some { f with waits := some r }) ∧
    ∀ d, s.frontPage q f.index 16 = .ok d →
      let x := natOf d
      let bad := flagBit x 0 = false ∨ bits x 127 114 ≠ 0 ∨ bits x 95 64 ≠ 0 ∨ bits x 15 2 ≠ 0 ∨ bits x 113 96 = 0 ∨ 69632 < bits x 113 96
      ∃ u : State, exec .peatFillStart s = .next u ∧
        (bad → (s.touchPage q f.index 16).coded u k f 3) ∧
        (¬ bad → s.mem.sameBytes u.mem s.mem.inFlight ∧ u.stream.reads = s.stream.reads ++ [(bits x 63 16, (bits x 113 96 + 4095) / 4096)] ∧
          SMap.find u.stream.fills k = some { f with running := true, lba := bits x 63 16, clen := bits x 113 96, raw := flagBit x 1 })) ∧
  (∀ (s : State) (k : Nat) (f : Fill) (d : List Byte), SMap.find s.stream.fills k = some f → f.running = true → f.waits = none →
    SMap.rises s.stream.fills → s.mem.risen → f.bit ≤ 30 →
    (∃ u : State, exec (.peatFillComplete k false d) s = .next u ∧ s.coded u k f 3) ∧
    (f.decoded d = none → ∃ u : State, exec (.peatFillComplete k true d) s = .next u ∧ s.coded u k f 3) ∧
    ∀ o pages, f.decoded d = some o → s.frame16 ⟨.streaming, f.ctx, false, .write⟩ f.page 16 = .ok pages →
      (∀ pa ∈ pages, pa % 4096 = 0 ∧ pa + 4096 ≤ 2 ^ 48 ∧ s.svc.covers pa 4096 = false) → pages.Nodup →
      let v := s.writePages pages o
      ∃ u : State, exec (.peatFillComplete k true d) s = .next u ∧ v.coded u k f 1 ∧
        ∀ i b pa, i < 16 → b < 4096 → pages[i]? = some pa →
          v.mem.hostByte (pa + b) = o.getD (4096 * i + b) 0)

/-- O47. A doorbell write moves TAIL, or reports 0x06 where the ring would overflow. The first interface in turn with HEAD ≠ TAIL has one packet read, unless its control block cannot be written yet (R465): HEAD advances, and a packet with no fault of R434 arrives as a launch with its fields, one with a fault does not. CTXTB and QITB change while no interface is open; PWAKE, the operands and the two halves of the request block's address take their bits; DRES takes a value within its ranges and reserves its SLC ways. A read of CMDST returns it and clears LOST; a running command whose control block is written ends as done. A wait record at the wait port is answered with its token, refused with bit 63 flipped, or installed. A restart closes every interface and asks the resident teams of the grids it ends to stop, and ends, once their groups have stopped and with the tables in order (O56), with RESTART clear, host waits gone and contexts that do not persist unbound. -/
def Obligations.QueuesAndRegisters : Prop :=
  (∀ (s : State) (q v : Nat) (i : Iface), s.barOpen = true → q < 64 → v < 2 ^ 16 → SMap.find s.host.ifaces q = some i →
    let e := Instr.doorbellWrite (0x100000 + 0x1000 * q) 4 v
    let ahead := (v + 2 ^ 16 - i.head) % 2 ^ 16
    (ahead ≤ 2 ^ (i.rsz + 4) → (let i2 : Iface := { i with tail := v }
      exec e s = .next { s with host := { s.host with ifaces := SMap.put s.host.ifaces q i2 } })) ∧
    (2 ^ (i.rsz + 4) < ahead → s.svc.covers i.erra 16 = false → ∃ m : MemSys, exec e s = .next { s with mem := m } ∧
      (s.mem.risen → (s.ctx i.ctx).pasid < 2 ^ 20 →
        natOf (m.hostRead i.erra 16) = 0x206 + (s.ctx i.ctx).pasid * 2 ^ 32 + q * 2 ^ 58))) ∧
  (∀ (s t : State) (q : Nat) (i : Iface), s.nextIface = some (q, i) → s.ccbGate i.ctx = some t → exec .packetRead s = .next t ∧ t.host = s.host) ∧
  (∀ (s : State) (q : Nat) (i : Iface), s.nextIface = some (q, i) → s.ccbGate i.ctx = none → (∀ e ∈ s.svc.carves, e.2.en = false) →
    let x := natOf (s.hRead (i.ring + 64 * (i.head % 2 ^ (i.rsz + 4))) 64).2
    ∃ u : State, exec .packetRead s = .next u ∧ u.host.lastServed = q ∧ u.groups = s.groups ∧ u.grids = s.grids ∧
      (∃ i2, SMap.find u.host.ifaces q = some i2 ∧ i2 = { i with head := (i.head + 1) % 2 ^ 16 }) ∧
      (s.host.revoked.contains (bits x 51 32) = true ∨ bits x 7 0 ≠ 1 ∨ bits x 9 8 = 3 ∨ bits x 15 10 ≠ 0 ∨ bits x 127 112 ≠ 0 ∨
          bits x 511 176 ≠ 0 ∨ bits x 51 32 ≠ (s.ctx i.ctx).pasid ∨ bits x 111 64 % 128 ≠ 0 ∨ bits x 175 128 % 16 ≠ 0 →
        u.host.launches = s.host.launches) ∧
      (s.host.revoked.contains (bits x 51 32) = false → bits x 7 0 = 1 → bits x 9 8 ≠ 3 → bits x 15 10 = 0 →
        (bits x 9 8 ≠ 2 → bits x 63 52 = 0) → (bits x 9 8 = 2 → bits x 63 52 < i.rtn) →
        bits x 127 112 = 0 → bits x 511 176 = 0 → bits x 51 32 = (s.ctx i.ctx).pasid → bits x 111 64 % 128 = 0 →
        bits x 175 128 % 16 = 0 → (bits x 175 128 ≠ 0 ∨ bits x 9 8 = 0) →
        ∃ l p, u.host.launches = s.host.launches ++ [l] ∧ l.ctx = i.ctx ∧ l.lpb = bits x 111 64 ∧ l.super = i.priv ∧ l.packet = some p ∧
          p.q = q ∧ p.caddr = bits x 175 128 ∧ p.pasid = bits x 51 32 ∧ p.seq = bits x 31 16 ∧ p.cmode = bits x 9 8 ∧
          p.ire = bits x 63 52 ∧ p.erra = i.erra)) ∧
  (∀ (s : State) (v : Nat), s.barOpen = true → v < 2 ^ 64 →
    let reg := fun (o : Nat) (h : HostIf) => exec (.registerWrite o 8 v) s = .next { s with host := h }
    ((∀ e ∈ s.host.ifaces, e.2.opened = false) → reg 0x008 { s.host with ctxtb := v % 2 ^ 48 } ∧
      reg 0x010 { s.host with qitb := v % 2 ^ 48 / 2 ^ 12 * 2 ^ 12 }) ∧
    ((∃ e ∈ s.host.ifaces, e.2.opened = true) → reg 0x008 s.host ∧ reg 0x010 s.host) ∧
    reg 0x10000 { s.host with cmda := v } ∧ reg 0x10008 { s.host with cmdb := v } ∧
    reg 0x10010 { s.host with cmdc := v } ∧ reg 0x10018 { s.host with cmdd := v } ∧
    exec (.registerWrite 0x048 8 v) s = .next { s with pwr := { s.pwr with pwake := v % 2 ^ 48 / 4 * 4 } } ∧
    exec (.registerWrite (2 ^ 21 + 0x08) 4 v) s = .next { s with
      svc := { s.svc with sreq := s.svc.sreq / 2 ^ 32 * 2 ^ 32 + v % 2 ^ 32 / 2 ^ 8 * 2 ^ 8 } } ∧
    exec (.registerWrite (2 ^ 21 + 0x0C) 4 v) s = .next { s with svc := { s.svc with sreq := s.svc.sreq % 2 ^ 32 + v % 2 ^ 16 * 2 ^ 32 } } ∧
    (let ok := ((List.range 48).filter (fun c => flagBit v c)).length ≤ 12 ∧ bits v 50 48 ≤ 4 ∧ bits v 54 51 ≤ 8
     (ok → exec (.dresWrite v) s = .next { s with
       host := { s.host with dres := v }, mem := { s.mem with slcWays := if flagBit v 63 then bits v 50 48 else 0 } }) ∧ (¬ ok → exec (.dresWrite v) s = .next s)) ∧
    exec .cmdstRead s = .next { s with host := { s.host with cmdLost := false, lastRead := bytesOf 8 s.cmdst } } ∧
    s.cmdst = s.host.cmdState % 4 + s.host.cmdCode % 2 ^ 8 * 2 ^ 8 + (if s.host.cmdLost then 2 ^ 16 else 0)) ∧
  (∀ s : State, (s.host.cmdState = 1 → (s.host.cmdOp ≠ 5 ∨ ∀ e ∈ s.groups, e.2.trap.pendRevoke = false) →
      (∀ n, s.commandCtx = some n → s.ccbPending n = false) →
      exec .commandCompletion s = .next { s with host := { s.host with cmdState := 2 } }) ∧
    (s.host.cmdState ≠ 1 ∨ (∃ n, s.commandCtx = some n ∧ s.ccbPending n = true) → exec .commandCompletion s = .next s)) ∧
  (∀ (s : State) (v n : Nat), s.barOpen = true → v % 32 = 0 → v < 2 ^ 48 → (∀ e ∈ s.svc.carves, e.2.en = false) → s.mem.risen →
    let v1 := (s.hRead v 32).1
    let x := natOf (s.hRead v 32).2
    let wakea := bits x 175 128
    let token := bits x 255 192
    let bad := bits x 63 48 ≠ 0 ∨ bits x 95 86 ≠ 0 ∨ bits x 191 176 ≠ 0 ∨ flagBit token 63 = true ∨ bits x 47 0 % 4 ≠ 0 ∨ wakea % 8 ≠ 0
    let writes := fun (t : Nat) => ∃ u : State, exec (.hostWaitPost v) s = .next u ∧ u.host = s.host ∧ natOf (u.mem.hostRead wakea 8) = t
    (bad ∨ s.ctxOf (bits x 83 64) = none ∨ s.host.revoked.contains (bits x 83 64) = true → writes (token ^^^ 2 ^ 63)) ∧
    (¬ bad → s.ctxOf (bits x 83 64) = some n → s.host.revoked.contains (bits x 83 64) = false →
      match v1.translate ⟨.frontEnd, n, false, .read⟩ (bits x 47 0) with
      | .ok pa leaf =>
        let holds := waitCond (bits x 85 84) (natOf ((v1.cacheXlat ⟨.frontEnd, n, false, .read⟩ (bits x 47 0)).hRead pa 4).2) (bits x 127 96)
        (holds = true → writes token) ∧
        (holds = false → s.wakeUsed (slcSlice pa) < 2048 → ∃ u : State, exec (.hostWaitPost v) s = .next u ∧
          s.mem.sameBytes u.mem s.mem.inFlight ∧
          u.host.waits = s.host.waits ++ [⟨pa, bits x 47 0, leaf.bits, n, bits x 127 96, bits x 85 84, wakea, token⟩]) ∧
        (holds = false → 2048 ≤ s.wakeUsed (slcSlice pa) → writes (token ^^^ 2 ^ 63))
      | _ => writes (token ^^^ 2 ^ 63))) ∧
  (∀ s : State, s.host.ready = true →
    (s.pwr.state ≠ .off → exec .warmRestart s = .next s.beginRestart) ∧ exec .hotReset s = .next s.beginRestart ∧
    s.beginRestart.host.restart = true ∧ (∀ e ∈ s.beginRestart.host.ifaces, e.2.opened = false) ∧ 
    (SMap.rises s.groups → SMap.rises s.teams → SMap.rises s.grids → ∀ id g, SMap.find s.groups id = some g → ∃ h,
      SMap.find s.beginRestart.groups id = some h ∧ h = { g with trap := { g.trap with preempt := h.trap.preempt, asked := h.trap.asked } } ∧
      (g.trap.preempt = true → h = g) ∧
      ∀ tm r, SMap.find s.teams g.team = some tm → SMap.find s.grids tm.grid = some r → tm.life = .resident → g.live ≠ 0 →
        s.survives r = false → r.retired = false → h.trap.preempt = true) ∧
    (∀ id r, SMap.find s.grids id = some r → s.survives r = false → r.retired = false → ∃ r2, SMap.find s.beginRestart.grids id = some r2 ∧ r2.discarded = true) ∧
    (SMap.rises s.grids → ∀ id r, SMap.find s.grids id = some r → s.survives r = true ∨ r.retired = true → SMap.find s.beginRestart.grids id = some r)) ∧
  (∀ s : State, s.host.restart = true →
    (∀ e ∈ s.groups, (∃ r, SMap.find s.grids e.2.grid = some r ∧ r.discarded = false) ∨
      e.2.life ≠ .resident ∨ e.2.live = 0 ∨ e.2.trap.stopped = true) → SMap.rises s.ctxs → SMap.rises s.groups →
    (∀ e ∈ s.groups, ∀ r ∈ s.grids, r.1 = e.2.grid → r.2.ctx = e.2.ctx) →
    ∃ u : State, exec .warmRestartEnd s = .next u ∧ u.host.restart = false ∧ u.host.waits = [] ∧
      (∀ e ∈ u.grids, e.2.discarded = true → ∃ r, (e.1, r) ∈ s.grids ∧ r.discarded = true ∧ s.wasRevoked r = true) ∧ ∀ n c, SMap.find s.ctxs n = some c → c.pctx = false → SMap.find u.ctxs n = none ∧
        (c.pasid ≠ 0 → c.pasid ∈ u.host.revoked))

/-- O48. A command is discarded with LOST while one is busy and refused with 0x04 while RESTART is set. KCFG and MCFG set a context's configuration from the image, or refuse a bad one with 0x02 and one that clashes with standing state with 0x03. QOPEN opens an interface with HEAD and TAIL 0 and binds its context, QCLOSE closes it, and either refuses with 0x02. REVOKE marks the PASID, discards its launches, ends its grids' work, leaves cause 0x14 pending in its groups and removes its translations. INVAL removes translations by kind. UIPOST posts to the groups it names of a grid that has been placed and has not retired. PREEMPT requests the context's teams of class I and B. TEARDOWN leaves none of the context's grids, tiles, shares, records, launches or translations. IOGRANT gives the queue pair; any other opcode is refused with 0x01. -/
def Obligations.HostCommands : Prop :=
  ∀ (s : State), s.barOpen = true → (∀ e ∈ s.svc.carves, e.2.en = false) →
    let all := [Instr.kcfg, .mcfg, .qopen, .qclose, .revoke, .inval, .uipost, .preempt, .teardown, .iogrant]
    let a := s.host.cmda
    let refuses := fun (i : Instr) (code : Nat) => exec i s = .next { s with host := { s.host with cmdState := 3, cmdCode := code } }
    let declines := fun (i : Instr) (code : Nat) => ∃ m : MemSys, (s.mem.risen → s.mem.sameBytes m s.mem.inFlight) ∧
      exec i s = .next { s with mem := m, host := { s.host with cmdState := 3, cmdCode := code } }
    let runs := fun (i : Instr) (op : Nat) (p : State → Prop) => ∃ t : State, p t ∧
      exec i s = .next { t with host := { t.host with cmdState := 1, cmdCode := 0, cmdOp := op, cmdArg := a } }
    let free := s.host.cmdState ≠ 1 ∧ s.host.restart = false
    (∀ i, i ∈ all ∨ (∃ o, i = .unknownCommand o ∧ (o % 256 = 0 ∨ 10 < o % 256)) →
      (s.host.cmdState = 1 → exec i s = .next { s with host := { s.host with cmdLost := true } }) ∧
      (s.host.cmdState ≠ 1 → s.host.restart = true → refuses i 0x04)) ∧
    (free →
      (let c := s.ctx a
       let img := numbers8 (s.hRead (s.host.cmdb % 2 ^ 48) 136).2 17
       let held := fun q => (∃ t ∈ s.kennel.tiles, t.ctx = a ∧ t.part = q) ∨ ∃ h ∈ s.kennel.shares, h.ctx = a ∧ h.part = q
       (∀ p, kimageOf img = some p → p.size = img.getD 0 0 ∧ p.size ≤ 24576 ∧ ∀ q, q < 16 →
         let x := img.getD (q + 1) 0
         p.part q = ⟨flagBit x 63, flagBit x 62, bits x 31 16, bits x 15 0⟩ ∧ bits x 61 32 = 0 ∧
         (flagBit x 63 = true → 1 ≤ bits x 31 16 ∧ bits x 31 16 ≤ p.size ∧ bits x 15 0 ≤ bits x 31 16)) ∧
       (s.ctxCount ≤ a ∨ kimageOf img = none → declines .kcfg 0x02) ∧
       (∀ p, a < s.ctxCount → kimageOf img = some p →
         let clash := s.sliceFits c.kcfg.size p.size = false ∨ (p.size ≠ c.kcfg.size ∧ ∃ t ∈ s.kennel.tiles, t.ctx = a) ∨
           ∃ q, q < 16 ∧ (c.kcfg.part q).en = true ∧ (p.part q).en = false ∧ held q
         (clash → declines .kcfg 0x03) ∧
         (¬ clash → runs .kcfg 1 (fun t => (∃ k, SMap.find t.ctxs a = some k ∧ k = { c with kcfg := p, ccbGen := k.ccbGen }) ∧
           t.kennel = s.kennel ∧ t.groups = s.groups)))) ∧
      (let c := s.ctx a
       let img := numbers8 (s.hRead (s.host.cmdb % 2 ^ 48) 144).2 18
       let held := fun q => (∃ b ∈ s.mire, b.ctx = a ∧ b.part = q) ∨ s.mireTaken a q ≠ 0
       (s.ctxCount ≤ a ∨ mimageOf img = none → declines .mcfg 0x02) ∧
       (∀ p, a < s.ctxCount → mimageOf img = some p →
         let clash := ((p.base ≠ c.mcfg.base ∨ p.size ≠ c.mcfg.size) ∧ ∃ q, q < 16 ∧ held q) ∨
           ∃ q, q < 16 ∧ (c.mcfg.part q).en = true ∧ (p.part q).en = false ∧ held q
         p.base = img.getD 0 0 ∧ p.size = img.getD 1 0 ∧
         (clash → declines .mcfg 0x03) ∧
         (¬ clash → runs .mcfg 2 (fun t => (∃ k, SMap.find t.ctxs a = some k ∧ k = { c with mcfg := p, ccbGen := k.ccbGen }) ∧
           t.mire = s.mire ∧ t.groups = s.groups)))) ∧
      (let v := (s.hRead (s.host.qitb + 64 * a) 64).1
       let x := natOf (s.hRead (s.host.qitb + 64 * a) 64).2
       let n := bits x 79 64
       let isOpen := ∃ i, SMap.find s.host.ifaces a = some i ∧ i.opened = true
       (64 ≤ a ∨ isOpen ∨ ifaceOk x = false ∨ (v.toBind n).2 = none → declines .qopen 0x02) ∧
       (∀ c, a < 64 → ¬ isOpen → ifaceOk x = true → (v.toBind n).2 = some c → runs .qopen 3 (fun t =>
         (∃ i, SMap.find t.host.ifaces a = some i ∧ i.opened = true ∧ i.ctx = n ∧ i.head = 0 ∧ i.tail = 0 ∧
           i.ring = bits x 47 0 ∧ i.rsz = bits x 51 48 ∧ i.priv = flagBit x 80 ∧ i.erra = bits x 239 192 ∧ i.rtn = bits x 187 176) ∧
         (∃ k, SMap.find t.ctxs n = some k ∧ k = { c with ccbGen := k.ccbGen }))) ∧
       ((s.ctx n).bound = true → n < s.ctxCount → (v.toBind n).2 = some (s.ctx n)) ∧
       (∀ c, (s.ctx n).bound = false → (v.toBind n).2 = some c →
         let e := natOf (v.hRead (s.ctxEntry n) 64).2
         let y := natOf ((v.hRead (s.ctxEntry n) 64).1.hRead (bits e 47 0) 32).2
         n < s.ctxCount ∧ flagBit e 64 = true ∧ flagBit y 0 = true ∧ bits y 63 48 = n ∧ c.bound = true ∧ c.pasid = bits e 99 80 ∧
         c.save = bits e 159 112 ∧ c.elog = bits e 255 208 ∧ c.s1root = bits y 47 12 * 4096 ∧ c.s2root = bits y 111 76 * 4096 ∧
         c.s2en = flagBit y 1 ∧ c.vmid = bits y 127 112)) ∧
      (((∀ i, SMap.find s.host.ifaces a = some i → i.opened = false) → refuses .qclose 0x02) ∧
       ∀ i, SMap.find s.host.ifaces a = some i → i.opened = true → runs .qclose 4 (fun t =>
         (∃ j, SMap.find t.host.ifaces a = some j ∧ j = { i with opened := false }) ∧ t.grids = s.grids ∧ t.groups = s.groups)) ∧
      (let p := a % 2 ^ 20
       (p = 0 → refuses .revoke 0x02) ∧
       (p ≠ 0 → runs .revoke 5 (fun t => p ∈ t.host.revoked ∧ (∀ e ∈ t.trans.tlb, e.pasid ≠ p) ∧ ∀ n, s.ctxOf p = some n →
         (∀ i ∈ t.host.launches, i.ctx ≠ n) ∧
         ((∀ e ∈ s.trans.reqs, e.2.ctx ≠ n) → ∀ id g, SMap.find s.groups id = some g → g.ctx = n → g.live ≠ 0 →
           ∃ h, SMap.find t.groups id = some h ∧ h.trap.pendRevoke = true ∧ h.regs = g.regs)))) ∧
      (let kind := a
       let id := s.host.cmdc
       (4 < kind → refuses .inval 0x02) ∧
       (kind ≤ 4 → runs .inval 6 (fun t => (∀ k g, SMap.find s.groups k = some g → ∃ h, SMap.find t.groups k = some h ∧
         h.regs = g.regs ∧ h.live = g.live) ∧ ∀ e ∈ t.trans.tlb, e ∈ s.trans.tlb ∧ kind ≠ 0 ∧
         (kind = 1 → e.ctxid ≠ id % 2 ^ 16) ∧ (kind = 3 → e.pasid ≠ id % 2 ^ 20) ∧ (kind = 4 → ¬ (e.s2 = true ∧ e.vmid = id % 2 ^ 16)) ∧
         (kind = 2 → ¬ (e.ctxid = id % 2 ^ 16 ∧ e.va = s.host.cmdb % 2 ^ 48 / 2 ^ e.bits * 2 ^ e.bits))))) ∧
      (let spec := s.host.cmdc
       let kind := bits spec 37 36
       let found := s.grids.find? (fun e => gridNumber e.1 == s.host.cmdb && e.2.ctx == a)
       (found = none ∨ kind = 3 ∨ (∃ id r, found = some (id, r) ∧ s.gridRuns id r = false) → refuses .uipost 0x02) ∧
       (∀ id r, found = some (id, r) → kind ≠ 3 → s.gridRuns id r = true →
         runs .uipost 7 (fun t => ∀ k g, SMap.find s.groups k = some g → ∃ h, SMap.find t.groups k = some h ∧ h.regs = g.regs ∧
           (let hit := g.grid = id ∧ g.live ≠ 0 ∧ (kind = 2 ∨ (∃ tm, SMap.find s.teams g.team = some tm ∧ tm.index = bits spec 31 0 ∧
              (kind = 1 ∨ g.grp = bits spec 35 32)))
            (hit → h.trap.uipend = true ∧ h.trap.uiload = BitVec.ofNat 32 s.host.cmdd) ∧ (¬ hit → h = g))))) ∧
      (((s.ctx a).bound = false → refuses .preempt 0x02) ∧
       ((s.ctx a).bound = true → runs .preempt 8 (fun t => ∀ id g tm, SMap.find s.groups id = some g → g.live ≠ 0 →
         SMap.find s.teams g.team = some tm → tm.ctx = a → tm.life = .resident → s.teamClass tm ≠ 0 →
         ∃ h, SMap.find t.groups id = some h ∧ h.trap.preempt = true ∧ h.regs = g.regs))) ∧
      ((SMap.find s.ctxs a = none → refuses .teardown 0x02) ∧
       (∀ c, SMap.find s.ctxs a = some c → SMap.rises s.ctxs → runs .teardown 9 (fun t => SMap.find t.ctxs a = none ∧
         (∀ e ∈ t.grids, e.2.ctx ≠ a) ∧ (∀ u ∈ t.kennel.tiles, u.ctx ≠ a) ∧ (∀ h ∈ t.kennel.shares, h.ctx ≠ a) ∧ (∀ b ∈ t.mire, b.ctx ≠ a) ∧
         (∀ i ∈ t.host.launches, i.ctx ≠ a) ∧ (∀ e ∈ t.host.ifaces, e.2.ctx = a → e.2.opened = false) ∧
         (a < 2 ^ 16 → ∀ e ∈ t.trans.tlb, e.ctxid ≠ a)))) ∧
      (let st : Stream := { s.stream with
        sq := a, cq := s.host.cmdb, qinfo := s.host.cmdc % 2 ^ 32, qdoor := s.host.cmdd, granted := true }
       runs .iogrant 10 (fun t => t = { s with stream := st })) ∧
      ∀ o, o % 256 = 0 ∨ 10 < o % 256 → refuses (.unknownCommand o) 0x01)

/-- O49. A write of SDOOR is discarded while a request runs and waits for a recovery. CARVE and UNCARVE enable a carve-out whose copies are gone from every cache, or zero and disable one; CONFKEY gives a context its key; COPYIN decrypts into its destination and COPYOUT reads its source as they start, and at their completion COPYIN leaves zeros for a bad tag, COPYOUT writes what it encrypts, each word as it stood at the start or stands then (log 126), and a good one adds to the counter; ATTEST writes the quote of R462, whose fields it gives, and a signature by the device identity key (log 11). Bad requests are refused with their codes. A completion turns busy to done or refused with the code, but during a recovery. A fatal fault and a lockstep mismatch count and set RSTAT, and the fault asks every team to stop; a recovery, once they have stopped, ends with nothing in flight, every host wait refused, RSTAT 0 and one more recovery, keeping carve-outs and DRES. -/
def Obligations.ServiceRequests : Prop :=
  (∀ s : State,
    let d := (s.hRead s.svc.sreq 256).2
    let v := (s.hRead s.svc.sreq 256).1
    let named := fun (i : Instr) => (i = .carve ∧ field d 0 1 = 1) ∨ (i = .uncarve ∧ field d 0 1 = 2) ∨ (i = .confkey ∧ field d 0 1 = 3) ∨
      (i = .copyin ∧ field d 0 1 = 4) ∨ (i = .copyout ∧ field d 0 1 = 5) ∨ (i = .attest ∧ field d 0 1 = 6) ∨
      (i = .unknownServiceRequest ∧ (field d 0 1 = 0 ∨ 6 < field d 0 1))
    let refused := fun (i : Instr) (t : State) (code : Nat) =>
      exec i s = .next { t with svc := { t.svc with sstat := 1, result := code, pend := false } }
    let done := fun (i : Instr) (p : State → Prop) => ∃ t : State, p t ∧ refused i t 0
    let free := s.svc.sstat ≠ 1 ∧ s.svc.rstat ≠ 1
    (∀ i, named i → (s.svc.sstat = 1 → exec i s = .next s) ∧
      (s.svc.sstat ≠ 1 → s.svc.rstat = 1 → exec i s = .next { v with svc := { v.svc with sstat := 1, pend := true } })) ∧
    exec .sdoorWriteDiscard s = .next s ∧
    (s.svc.covers s.svc.sreq 256 = false → v = { s with mem := v.mem } ∧ (s.mem.risen → s.mem.sameBytes v.mem s.mem.inFlight)) ∧
    (s.svc.covers s.svc.sreq 256 = true → v = { s with svc := { s.svc with viol := min (s.svc.viol + 1) (2 ^ 32 - 1) } } ∧
      d = List.replicate 256 0) ∧
    (free → field d 0 1 = 0 ∨ 6 < field d 0 1 → refused .unknownServiceRequest v 0x01) ∧
    (free → field d 0 1 = 1 →
      let k := field d 8 1
      let base := field d 16 8
      let size := field d 24 8
      let own := field d 32 2
      let bad1 := reservedSet d [(0, 1), (8, 1), (16, 8), (24, 8), (32, 2)] = true
      let bad2 := 7 < k ∨ base % 65536 ≠ 0 ∨ size % 65536 ≠ 0 ∨ size = 0 ∨ (SMap.find s.svc.carves k).isSome = true ∨
        Config.memFitted * 2 ^ 20 < base + size ∨ v.ctxEnabled own = false
      let bad3 := ∃ e ∈ s.svc.carves, e.2.en = true ∧ base < e.2.base + e.2.size ∧ e.2.base < base + size
      (bad1 → refused .carve v 0x01) ∧ (¬ bad1 → bad2 → refused .carve v 0x02) ∧ (¬ bad1 → ¬ bad2 → bad3 → refused .carve v 0x03) ∧
      (¬ bad1 → ¬ bad2 → ¬ bad3 → done .carve (fun t =>
        t.svc = { v.svc with carves := SMap.put s.svc.carves k ⟨true, base, size, own⟩ } ∧
        (∀ e ∈ t.teams, ∀ l ∈ e.2.lines, l.2.present = true → l.2.pa + 256 ≤ base ∨ base + size ≤ l.2.pa) ∧
        (s.mem.risen → ∀ w, w < 2 ^ 46 → base ≤ 4 * w → 4 * w < base + size →
          (∀ c, SMap.find t.mem.l1 (l1Key c w) = none) ∧ SMap.find t.mem.l2 (w / 32) = none ∧ SMap.find t.mem.registry w = none ∧
          ((∀ e ∈ s.mem.regq, e.2 ≠ w) → SMap.find s.mem.registry w = none → t.mem.sliceWord w = s.mem.sliceWord w))))) ∧
    (free → field d 0 1 = 2 → reservedSet d [(0, 1), (8, 1)] = false →
      (SMap.find s.svc.carves (field d 8 1) = none → refused .uncarve v 0x02) ∧
      ∀ x, SMap.find s.svc.carves (field d 8 1) = some x →
        let inUse := (∃ e ∈ s.grids, e.2.ctx = x.owner ∧ s.gridRuns e.1 e.2 = true) ∨ ∃ j, s.svc.job = some j ∧ j.ctx = x.owner
        (inUse → refused .uncarve v 0x03) ∧
        (¬ inUse → done .uncarve (fun t =>
          t.svc = { v.svc with carves := SMap.erase s.svc.carves (field d 8 1) } ∧
          (s.mem.risen → ∀ a, a < 2 ^ 48 → x.base % 4 = 0 → x.size % 4 = 0 → x.base ≤ a → a < x.base + x.size →
            t.mem.sliceByte a = 0 ∧ Memory.get t.mem.cells a = 0)))) ∧
    (free → field d 0 1 = 3 → reservedSet d [(0, 1), (16, 2), (18, 1), (24, 8), (32, 2)] = false →
      let n := field d 16 2
      let alg := field d 18 1
      let a := field d 24 8
      let bad := 1 < alg ∨ (s.ctx n).bound = false ∨ 2 ^ 48 ≤ a
      let w := (v.hRead a (field d 32 2)).1
      let key := sm2Open identityKey (v.hRead a (field d 32 2)).2
      let fits := field d 32 2 = (if alg = 0 then 113 else 129)
      (bad → refused .confkey v 0x02) ∧
      (¬ bad → (∀ k, key = some k → fits → done .confkey (fun t =>
          (∃ c, SMap.find t.ctxs n = some c ∧ c = { s.ctx n with conf := some ⟨alg, k, none, 0⟩ }) ∧ t.mem = w.mem)) ∧
        (key = none ∨ ¬ fits → refused .confkey w 0x04))) ∧
    (free → field d 0 1 = 4 → reservedSet d [(0, 1), (16, 2), (24, 56)] = false →
      let n := field d 16 2
      let src := field d 24 8
      let va := field d 32 8
      let len := field d 40 4
      let iv := (d.drop 44).take 12
      let bad := len % 16 ≠ 0 ∨ len = 0 ∨ 2 ^ 24 < len ∨ 2 ^ 48 ≤ src
      ((s.ctx n).conf = none ∨ v.ownRuns n .write 4097 va len = none ∨ v.counterPa n (field d 72 8) = none ∨ bad → refused .copyin v 0x02) ∧
      ∀ key runs ctr, (s.ctx n).conf = some key → v.ownRuns n .write 4097 va len = some runs → v.counterPa n (field d 72 8) = some ctr → ¬ bad →
        let reused := 2 ^ 95 ≤ ivNat iv ∨ ∃ x, key.lastIv = some x ∧ ivNat iv ≤ x
        let x := gcmOpen key.alg key.key iv (aadOf n 0 len va) (v.hRead src len).2 ((d.drop 56).take 16)
        (reused → refused .copyin v 0x05) ∧
        (¬ reused → done .copyin (fun t => t.mem = (v.hRead src len).1.mem.writeRuns runs x.1 ∧ t.ctxs = s.ctxs ∧
          t.svc.job = some ⟨n, false, runs, ctr, key.alg, key.key, iv, len, va, src, x.1, x.2⟩))) ∧
    (free → field d 0 1 = 5 → reservedSet d [(0, 1), (16, 2), (24, 20), (72, 8)] = false →
      let n := field d 16 2
      let va := field d 24 8
      let dst := field d 32 8
      let len := field d 40 4
      let bad := len % 16 ≠ 0 ∨ len = 0 ∨ 2 ^ 24 < len ∨ 2 ^ 48 ≤ dst
      ((s.ctx n).conf = none ∨ v.ownRuns n .read 4097 va len = none ∨ v.counterPa n (field d 72 8) = none ∨ bad → refused .copyout v 0x02) ∧
      ∀ key runs ctr, (s.ctx n).conf = some key → v.ownRuns n .read 4097 va len = some runs → v.counterPa n (field d 72 8) = some ctr → ¬ bad →
        let iv := (bytesOf 12 (2 ^ 95 + key.outs)).reverse
        done .copyout (fun t => t.mem = (v.mem.readRuns runs).1 ∧ t.ctxs = s.ctxs ∧
          t.svc.job = some ⟨n, true, runs, ctr, key.alg, key.key, iv, len, va, dst, (v.mem.readRuns runs).2, true⟩)) ∧
    (free → field d 0 1 = 6 → reservedSet d [(0, 1), (16, 32), (48, 8)] = false →
      let a := field d 48 8
      let q := v.quote ((d.drop 16).take 32)
      let part := fun (o n : Nat) => natOf ((q.drop o).take n)
      (a % 4096 ≠ 0 ∨ 2 ^ 48 ≤ a → refused .attest v 0x02) ∧
      (a % 4096 = 0 → a < 2 ^ 48 → s.svc.covers a 4096 = false → done .attest (fun t =>
        ∃ sig : List Byte, sig.length = 64 ∧
          (sig = List.replicate 64 0 ∨ ∃ k, 0 < k ∧ k < sm2N ∧ sm2SignWith identityKey q k = some sig) ∧
          t.mem = (v.mem.hostWrite a (q ++ sig ++ List.replicate 128 0)).hostWrite (a + 0x200) (Config.certificate.take 1536))) ∧
      q.drop 0x120 = sm3 ((s.ctxs.filter (fun e => e.2.conf.isSome)).flatMap (fun e =>
        bytesOf 2 e.1 ++ bytesOf 1 ((e.2.conf.map (fun k => k.alg)).getD 0))) ∧
      q.length = 0x140 ∧ part 0 4 = 1 ∧ part 4 4 = 0x480 ∧ (q.drop 0x10).take 32 = (d.drop 16).take 32 ∧
      part 0x90 8 = s.host.dres % 2 ^ 64 ∧ part 0x98 8 = 0 ∧
      ∀ k, k < 8 → let x := part (0xA0 + 16 * k) 16
        match SMap.find s.svc.carves k with
        | some e => flagBit x 96 = e.en ∧ bits x 95 80 = e.owner % 2 ^ 16 ∧ bits x 79 48 = e.size / 2 ^ 16 % 2 ^ 32 ∧
            bits x 47 16 = e.base / 2 ^ 16 % 2 ^ 32 ∧ bits x 15 0 = 0 ∧ bits x 127 97 = 0
        | none => x = 0)) ∧
  (∀ s : State,
    (s.svc.sstat ≠ 1 → exec .serviceRequestCompletion s = .next s) ∧
    (s.svc.sstat = 1 → s.svc.rstat = 1 → exec .serviceRequestCompletion s = .next s) ∧
    (s.svc.sstat = 1 → s.svc.rstat ≠ 1 → s.svc.pend = true → ∃ u : State, exec .serviceRequestCompletion s = .next u ∧
      u.svc.sstat = 1 ∧ u.svc.pend = false) ∧
    (s.svc.sstat = 1 → s.svc.rstat ≠ 1 → s.svc.pend = false →
      (s.svc.job = none → exec .serviceRequestCompletion s = .next { s with
        svc := { s.svc with sstat := if s.svc.result = 0 then 2 else 3, scode := s.svc.result, pend := false } }) ∧
      ∀ j, s.svc.job = some j →
        let ends := fun (code : Nat) (p : State → Prop) => ∃ u : State, exec .serviceRequestCompletion s = .next u ∧
          u.svc.sstat = (if code = 0 then 2 else 3) ∧ u.svc.scode = code ∧ u.svc.job = none ∧ p u
        (j.out = false → j.good = false → ends 0x04 (fun u => u.mem = s.mem.writeRuns j.runs (List.replicate j.len 0) ∧ u.ctxs = s.ctxs)) ∧
        (j.out = false → j.good = true → ends 0 (fun u => u.mem = s.mem.addSys j.counter j.len ∧
          ∀ c key, SMap.find s.ctxs j.ctx = some c → c.conf = some key → ∃ k, SMap.find u.ctxs j.ctx = some k ∧
            k = { c with conf := some { key with lastIv := some (ivNat j.iv) } })) ∧
        (j.out = true → let m := (s.mem.readRuns j.runs).1
          let now := (s.mem.readRuns j.runs).2
          j.data.length = now.length → s.svc.covers j.host now.length = false → ends 0 (fun u =>
            ∃ text : List Byte, text.length = now.length ∧
              (∀ w, (∀ i, (j.va + i) / 4 = w → text[i]? = j.data[i]?) ∨ ∀ i, (j.va + i) / 4 = w → text[i]? = now[i]?) ∧
              let x := gcmSeal j.alg j.key j.iv (aadOf j.ctx 1 j.len j.va) text
              (s.svc.covers (s.svc.sreq + 128) (j.iv ++ x.2).length = false →
                u.mem = ((m.hostWrite j.host x.1).addSys j.counter j.len).hostWrite (s.svc.sreq + 128) (j.iv ++ x.2)) ∧
              ∀ c key, SMap.find s.ctxs j.ctx = some c → c.conf = some key → ∃ k, SMap.find u.ctxs j.ctx = some k ∧
                k = { c with conf := some { key with outs := key.outs + 1 } }))) ∧
    (∃ u : State, exec .fatalFault s = .next u ∧ u.svc = { s.svc with uecnt := min (s.svc.uecnt + 1) (2 ^ 32 - 1), rstat := 1 } ∧
      u.mem = s.mem ∧ u.grids = s.grids ∧ (SMap.rises s.groups → SMap.rises s.teams → ∀ id g tm, SMap.find s.groups id = some g →
        g.live ≠ 0 → SMap.find s.teams g.team = some tm → tm.life = .resident → (SMap.find s.grids tm.grid).isSome = true →
        ∃ h, SMap.find u.groups id = some h ∧ h.trap.preempt = true ∧ h.regs = g.regs)) ∧
    exec .lockstepMismatch s = .next { s with
      svc := { s.svc with uecnt := min (s.svc.uecnt + 1) (2 ^ 32 - 1), rstat := 2, stopped := true } } ∧
    (s.svc.rstat = 1 → (∀ e ∈ s.groups, e.2.life ≠ .resident ∨ e.2.live = 0 ∨ e.2.trap.stopped = true) → ∃ u : State, exec .recoveryEnd s = .next u ∧ u.svc.rstat = 0 ∧
      u.svc.recoveries = min (s.svc.recoveries + 1) (2 ^ 16 - 1) ∧ u.svc.carves = s.svc.carves ∧ u.host.dres = s.host.dres ∧
      u.copies = [] ∧ u.mesh = [] ∧ u.host.waits = [] ∧ u.stream.fills = []) ∧
    (s.svc.rstat = 1 → (∃ e ∈ s.groups, e.2.life = .resident ∧ e.2.live ≠ 0 ∧ e.2.trap.stopped = false) → exec .recoveryEnd s = .next s))

/-- O50. A PWRCTL write while BUSY or straight between Listen and Retain is discarded, and a bad one leaves its code and nothing else; else PWRCTL takes the value, and a new target sets BUSY, Listen requesting every resident team. The transition to Run queues saved teams, that to Listen waits for every team but those of LCTX on LCORE, suspends the other copies, drops every cache and ends every SLEEP, that to Retain ends everything but memory, carve-outs and keys. The PWAKE word written non-zero in Listen starts the way to Run. Clock stops, throttling, self-refresh and shutdown change their own state. A cold reset leaves the reset state at step 1 of bring-up, whose steps follow one to a clock (log 189): a failure holds it there with its code, and the last sets READY. SNAPTRIG and the enabled pin latch every powered block unless records are held; a SNAPST write while BAR0 answers releases them. -/
def Obligations.PowerAndSnapshots : Prop :=
  (∀ (s : State) (v : Nat), v < 2 ^ 64 → s.host.ready = true →
    let k := bits v 49 48
    let to_ := powerOf k
    let i := if k = 3 ∨ to_ = s.pwr.state then Instr.pwrEnvelope v
      else if k = 0 then .pwrTargetRun v else if k = 1 then .pwrTargetListen v else .pwrTargetRetain v
    let bad2 := k = 3 ∨ bits v 7 0 < 45 ∨ 220 < bits v 7 0 ∨ bits v 63 50 ≠ 0 ∨ bits v 19 8 ≠ 0 ∨
      (if s.pwr.state = .retain then s.pwr.enabled.contains (bits v 35 20) else s.ctxEnabled (bits v 35 20)) = false
    let bad3 := k = 2 ∧ (s.host.launches ≠ [] ∨ s.kennel.tiles ≠ [] ∨
      ∃ e ∈ s.grids, e.2.retired = false ∧ ¬ (e.2.discarded = true ∧ s.gridDone e.1 e.2 = true))
    let bad4 := s.host.restart = true ∨ s.svc.rstat = 1
    let straight := (s.pwr.state = .listen ∧ k = 2) ∨ (s.pwr.state = .retain ∧ k = 1)
    let refuses := fun (code : Nat) => exec i s = .next { s with pwr := { s.pwr with code := code } }
    (s.pwr.busy = true → exec i s = .next s) ∧
    (s.pwr.busy = false → bad2 → refuses 0x02) ∧ (s.pwr.busy = false → ¬ bad2 → bad3 → refuses 0x03) ∧
    (s.pwr.busy = false → ¬ bad2 → ¬ bad3 → bad4 → refuses 0x04) ∧
    (s.pwr.busy = false → ¬ bad2 → ¬ bad3 → ¬ bad4 →
      (straight → exec i s = .next s) ∧
      (to_ = s.pwr.state → exec i s = .next { s with pwr := { s.pwr with pwrctl := v, code := 0 } }) ∧
      (let p : Power := { s.pwr with pwrctl := v, code := 0, busy := true, target := to_, wakeDue := false }
       (¬ straight → to_ ≠ s.pwr.state → k ≠ 1 → exec i s = .next { s with pwr := p }) ∧
       (¬ straight → to_ ≠ s.pwr.state → k = 1 → ∃ u : State, exec i s = .next u ∧ u.pwr = p ∧
         ∀ id g tm, SMap.find s.groups id = some g → g.live ≠ 0 → SMap.find s.teams g.team = some tm → tm.life = .resident →
           ∃ h, SMap.find u.groups id = some h ∧ h.trap.preempt = true ∧ h.regs = g.regs)))) ∧
  (∀ s : State,
    (s.pwr.busy = false → exec .powerTransitionDone s = .next s) ∧
    (s.pwr.busy = true → s.pwr.target = .listen → (∀ e ∈ s.teams, e.2.life ≠ .resident) → s.mesh = [] → (∀ e ∈ s.copies, s.copyRests e.2 = true) →
      ∃ u : State, exec .powerTransitionDone s = .next u ∧ u.pwr.state = .listen ∧ u.pwr.busy = false ∧ u.trans.tlb = [] ∧
        u.mem.l1 = [] ∧ u.decodes = [] ∧ u.texels = [] ∧ u.mem.slc = [] ∧ u.host = s.host ∧
        (∀ id t, SMap.find s.teams id = some t → ∃ w, SMap.find u.teams id = some w ∧ w = { t with lines := w.lines }) ∧
        (∀ e ∈ u.groups, e.2.life ≠ .ended → ∀ p ∈ e.2.parked, ∀ k, p.why ≠ .sleep k) ∧ (∀ e ∈ u.copies, e.2.paused = true ∨ (e.2.ctx = bits s.pwr.pwrctl 35 20 ∧ e.2.core = bits s.pwr.pwrctl 47 42)) ∧
        ∀ t ∈ u.kennel.tiles, t.core = bits s.pwr.pwrctl 47 42) ∧
    (s.pwr.busy = true → s.pwr.target = .listen → (∃ e ∈ s.teams, e.2.life = .resident ∧ (e.2.ctx ≠ bits s.pwr.pwrctl 35 20 ∨ e.2.core ≠ bits s.pwr.pwrctl 47 42)) →
      exec .powerTransitionDone s = .next s) ∧
    (s.pwr.busy = true → s.pwr.target = .retain →
      ∃ u : State, exec .powerTransitionDone s = .next u ∧ u.pwr.state = .retain ∧ u.pwr.busy = false ∧ u.groups = [] ∧ u.teams = [] ∧
        u.grids = [] ∧ u.kennel.tiles = [] ∧ u.host.waits = [] ∧ u.host.ifaces = [] ∧ u.svc.carves = s.svc.carves ∧ u.mem.l1 = [] ∧
        u.mem.l2 = [] ∧ u.mem.registry = []) ∧
    (s.pwr.busy = true → s.pwr.target = .run →
      ∃ u : State, exec .powerTransitionDone s = .next u ∧ u.pwr.state = .run ∧ u.pwr.busy = false ∧ u.mem = s.mem ∧
        (∀ id t, SMap.find s.teams id = some t → SMap.find u.teams id = some (if t.life = .saved then { t with wanted := true } else t)) ∧
        (s.pwr.state ≠ .retain ∨ failingStep s.tick = none → u.host = s.host) ∧
        ∀ k, s.pwr.state = .retain → failingStep s.tick = some k → u.host = { s.host with ready := false } ∧ u.pwr.brupFail = k - 1) ∧
    (s.pwr.state = .listen → s.pwr.busy = false → s.pwr.wakeDue = true →
      exec .listenWake s = .next { s with pwr := { s.pwr with busy := true, target := .run, wakeDue := false } }) ∧
    (s.pwr.state ≠ .listen ∨ s.pwr.busy = true ∨ s.pwr.wakeDue = false → exec .listenWake s = .next s) ∧
    (s.pwr.target = .listen → s.mem.notify.contains (s.pwr.pwake / 256) = true → (∀ e ∈ s.mem.regq, e.2 / 64 ≠ s.pwr.pwake / 256) →
      (∀ e ∈ s.groups, ∀ p ∈ e.2.parked, p.why.watches (s.pwr.pwake / 256) = false) → s.host.waits = [] →
      (let m : MemSys := { s.mem with notify := s.mem.notify.erase (s.pwr.pwake / 256), adds := s.mem.adds.filter (fun a => a / 256 != s.pwr.pwake / 256) }
       natOf (({ s with mem := m }).hRead s.pwr.pwake 4).2 ≠ 0) →
      ∃ u : State, exec (.notifyEvaluate (s.pwr.pwake / 256)) s = .next u ∧ u.pwr.wakeDue = true ∧ u.groups = s.groups) ∧
    (∀ c, s.pwr.state = .listen →
      exec (.channelSelfRefresh c) s = .next { s with pwr := { s.pwr with activeChannels := s.pwr.activeChannels.erase c } }) ∧
    exec .thermalThrottle s = .next { s with pwr := { s.pwr with throttled := true } } ∧
    exec .thermalShutdown s = .next { s with pwr := { s.pwr with state := .off, busy := false } } ∧
    (∀ c, c < 48 → s.coreIdle c = true → s.pwr.stoppedCores.contains c = false →
      exec (.coreClockStop c) s = .next { s with pwr := { s.pwr with stoppedCores := s.pwr.stoppedCores ++ [c] } }) ∧
    (∀ c, s.coreIdle c = false → exec (.coreClockStop c) s = .next s) ∧
    (∀ c g id, SMap.find s.groups id = some g → g.core = c → g.life = .resident → (∃ e ∈ g.bbt, e.wait = .runnable) → s.coreIdle c = false) ∧
    (∀ c, exec (.coreClockRestart c) s = .next { s with pwr := { s.pwr with stoppedCores := s.pwr.stoppedCores.erase c } }) ∧
    exec .coldReset s = .next { State.reset with
      agenda := s.agenda, tick := s.tick, host := { State.reset.host with messages := s.host.messages, lastRead := s.host.lastRead }
      stream := { State.reset.stream with reads := s.stream.reads }, pwr := { State.reset.pwr with brup := 1, rising := true } } ∧
    (let k := s.pwr.brup + 1
     let fails := Config.bringUpFails s.tick k = true
     (s.pwr.rising = false → s.tock.pwr = s.pwr ∧ s.tock.host = s.host) ∧
     (s.pwr.rising = true →
       (k ≤ 6 → fails → s.tock.pwr = { s.pwr with brupFail := k - 1, rising := false } ∧ s.tock.svc.stopped = decide (k < 4)) ∧
       (k ≤ 6 → ¬ fails → s.tock.pwr = { s.pwr with brup := k }) ∧
       (k = 7 → s.tock.pwr = { s.pwr with brup := 7, brupFail := if Config.bringUpFails s.tick 7 then 6 else 0 }) ∧
       (k = 8 → s.tock.pwr = { s.pwr with brup := 8, rising := false } ∧ s.tock.host = { s.host with ready := true }) ∧
       (k < 8 → s.tock.host = s.host)))) ∧
  (∀ (s : State) (v : Nat),
    let fires := fun (i : Instr) (src tag : Nat) => ∃ l : SMap (List Nat), exec i s = .next { s with
        snap := { s.snap with held := true, tag := tag, src := src, clk := s.clock % 2 ^ 32, latched := l } } ∧
      ∀ b, b < 48 → s.pwr.powered b = true → ∃ r, SMap.find l b = some r ∧ r.length = 64 ∧ r.getD 0 0 = b + 256 ∧ r.getD 1 0 = s.clock
    (s.snap.held = false → fires (.snaptrigWrite v) 1 (v % 2 ^ 8) ∧ (flagBit s.snap.snapctl 1 = true → fires .snapinPin 2 0)) ∧
    (flagBit s.snap.snapctl 1 = false → exec .snapinPin s = .next s) ∧
    (s.snap.held = true → exec (.snaptrigWrite v) s = .next s ∧ exec .snapinPin s = .next s) ∧
    (s.barOpen = true → v % 2 = 1 → exec (.snapstWrite v) s = .next { s with snap := { s.snap with held := false } }) ∧
    (s.barOpen = false ∨ v % 2 = 0 → exec (.snapstWrite v) s = .next s))

/-- O51. The oldest launch whose checks pass joins its queue with the next identifier, one that R252 refuses is reported with its code, one that misses a page waits. A grid whose triggers hold counts one at each dependant: at the launch of the oldest packet that waits there, or toward the scheduler's own, which is dropped below DEPWAIT and else launched with the counts consumed. A finished grid retires: its writes are made visible and its shares return; then, its control block written, it adds 1 at DONE, reports by CMODE and leaves its queue; one whose DONE page is absent waits, one whose page request failed or whose DONE is denied ends without the add, a discarded one stays for the restart or the teardown. The LPB is read once. The records of a node behind its full batches that stood for TIMEOUT are ready, an aborted task whose page is there is queued again, a class D grid that has used its BUDGET of core time is marked, and an ended team whose copies are done is freed. -/
def Obligations.LaunchesAndRetirement : Prop :=
  (∀ (s : State) (k : Nat) (i : Launch) (slot : Nat), s.nextLaunch (fun i => i.packet.isSome || i.again) = some (k, i) → s.svc.rstat ≠ 1 →
    s.freeRecord i.ctx = some slot →
    match s.check i i.super with
    | .grid r => ∃ u : State, exec .launch s = .next u ∧ u.host.launches = s.host.launches.eraseIdx k ∧
        (let r2 : Grid := { r with slot := slot }
         u.grids = SMap.put s.grids s.nextId r2) ∧ u.nextId = s.nextId + 1 ∧ u.groups = s.groups
    | .refused kind code => ∃ u : State, exec .launch s = .next u ∧ u.host.launches = s.host.launches.eraseIdx k ∧ u.grids = s.grids ∧
        ∀ p pa leaf, i.packet = some p → p.caddr ≠ 0 → p.caddr % 16 = 0 → s.host.revoked.contains p.pasid = false →
          (s.launchReads i).translate ⟨.frontEnd, i.ctx, false, .write⟩ p.caddr = .ok pa leaf → s.svc.covers pa 16 = false → s.mem.risen →
          code < 2 ^ 8 → kind < 4 → p.seq < 2 ^ 16 → p.pasid < 2 ^ 20 → p.q < 64 →
          natOf (u.mem.hostRead pa 16) = code + kind * 2 ^ 8 + p.seq * 2 ^ 16 + p.pasid * 2 ^ 32 + p.q * 2 ^ 58
    | .page _ _ _ image => ∃ u : State, exec .launch s = .next u ∧ u.grids = s.grids ∧ ∃ w,
        u.host.launches = s.host.launches.set k { i with waits := some w, image := image }) ∧
  (∀ (s : State) (i : Launch) (super : Bool),
    let q : TransReq := ⟨.frontEnd, i.ctx, false, .read⟩
    (∀ x, s.lpbImage i = .ok x ↔ i.image = some x ∨ (i.image = none ∧ ∃ d, s.frontRead q i.lpb 128 = .ok d ∧ x = natOf d)) ∧
    (∀ r, s.check i super = .grid r → ∃ x, s.lpbImage i = .ok x ∧ r.lpb = lpbOf x ∧
      s.lpbCode i.ctx i.lpb x = 0 ∧ r.ctx = i.ctx ∧ r.lpbAddr = i.lpb ∧ r.mode = super ∧ r.placed = 0 ∧ r.packet = i.packet ∧
      r.arrived = i.arrived ∧ r.waiting = (i.packet.isSome && decide (i.got < r.lpb.depwait))) ∧
    (i.failed = true → s.check i super = if i.image.isSome = true ∨ i.packet = none then .refused 1 0x07 else .refused 2 0x05) ∧
    (∀ x, i.failed = false → i.image.isSome = true ∨ s.caddrFails i.ctx ((i.packet.map (fun p => p.caddr)).getD 0) = none →
      s.lpbImage i = .ok x →
      let l := lpbOf x
      let bad := i.lpb % 128 ≠ 0 ∨ l.code % 256 ≠ 0 ∨ l.cbt % 128 ≠ 0 ∨ l.tasks % 8 ≠ 0 ∨ l.deps % 8 ≠ 0 ∨ l.graph % 16 ≠ 0 ∨
        l.done % 8 ≠ 0 ∨ l.entry % 12 ≠ 0
      (bad → s.check i super = .refused 1 0x01) ∧ (¬ bad → lpbZeros x = true → s.check i super = .refused 1 0x02))) ∧
  (∀ (s : State) (id a : Nat) (r : Grid) (e : Nat × Grid), s.grids.find? (fun e => s.triggerHolds e.1 e.2) = some (id, r) →
    SMap.find s.grids id = some r → r.deps = [a] → a < 2 ^ 48 →
    let r2 : Grid := { r with triggered := true }
    let v : State := { s with grids := SMap.put s.grids id r2 }
    let waits := fun (e : Nat × Grid) => e ∈ v.grids ∧ e.2.ctx = r.ctx ∧ e.2.lpbAddr = a ∧ e.2.waiting = true ∧ e.2.discarded = false
    (waits e → (∀ f, waits f → e.2.arrived < f.2.arrived ∨ (e.2.arrived = f.2.arrived ∧ e.1 ≤ f.1)) → SMap.rises s.grids →
      ∃ w : Grid, w = { e.2 with got := e.2.got + 1, waiting := decide (e.2.got + 1 < e.2.lpb.depwait) } ∧
        exec .dependantLaunch s = .next { s with grids := SMap.put v.grids e.1 w }) ∧
    ((∀ f, ¬ waits f) → ∃ u : State, exec .dependantLaunch s = .next u ∧ u.grids = v.grids ∧
      SMap.getD (u.ctx r.ctx).triggers a [] = SMap.getD (s.ctx r.ctx).triggers a [] ++ [⟨s.clock, r.mode, r.root, r.kin || s.persists r⟩] ∧
      ∃ i ∈ u.host.launches, i.packet = none ∧ i.again = false ∧ i.ctx = r.ctx ∧ i.lpb = a)) ∧
  (∀ (s : State) (k slot x : Nat) (i : Launch), s.grids.find? (fun e => s.triggerHolds e.1 e.2) = none → s.svc.rstat ≠ 1 →
    s.nextLaunch (fun i => i.packet.isNone && !i.again) = some (k, i) → s.freeRecord i.ctx = some slot →
    s.lpbImage i = .ok x →
    let l := SMap.getD (s.ctx i.ctx).triggers i.lpb []
    let n := (lpbOf x).depwait
    (l.length < n ∨ l = [] → exec .dependantLaunch s = .next { s with host := { s.host with launches := s.host.launches.eraseIdx k } }) ∧
    (n ≤ l.length → l ≠ [] → ∀ r e, (l.take (max 1 n)).getLast? = some e →
        s.check { i with root := e.root, arrived := e.time, kin := (l.take (max 1 n)).any (fun e => e.kin) }
          ((l.take (max 1 n)).all (fun e => e.super)) = .grid r → SMap.rises (s.ctx i.ctx).triggers →
      ∃ u : State, exec .dependantLaunch s = .next u ∧
        (let r2 : Grid := { r with slot := slot }
         u.grids = SMap.put s.grids s.nextId r2) ∧
        SMap.getD (u.ctx i.ctx).triggers i.lpb [] = l.drop (max 1 n))) ∧
  (∀ (s : State) (id : Nat) (r : Grid), SMap.find s.grids id = some r →
    (r.discarded = true ∨ s.gridDone id r = false ∨ r.doneWait.isSome = true → exec (.gridRetire id) s = .next s) ∧
    (r.discarded = false → s.gridDone id r = true → r.doneWait = none → SMap.rises s.grids →
      (r.retired = false → r.triggered = true → ∃ v : State, exec (.gridRetire id) s = exec (.gridRetire id) v ∧
        (let r2 : Grid := { r with retired := true, started := false }
         v.grids = SMap.put s.grids id r2) ∧ (∀ t ∈ v.kennel.tiles, t.share ≠ some id) ∧ (∀ h ∈ v.kennel.shares, h.grid ≠ id) ∧
        (∀ b ∈ v.mire, b.grid ≠ id) ∧ v.groups = s.writeAll.groups ∧
        ((s.ctx r.ctx).bound = false → r.lpb.cls ≠ 0 → v.mem = s.writeAll.mem)) ∧
      (r.retired = true → s.ccbPending r.ctx = true → exec (.gridRetire id) s = .next s) ∧
      (r.retired = true → s.ccbPending r.ctx = false → r.added = true → exec (.gridRetire id) s = .next (s.finishGrid id r)) ∧
      (r.retired = true → s.ccbPending r.ctx = false → r.added = false →
        let a := r.lpb.done
        let x := s.translate ⟨.frontEnd, r.ctx, false, .write⟩ a
        let r2 : Grid := { r with added := true, doneFailed := false }
        let ends := fun (y : State) => ∃ w : State, exec (.gridRetire id) s = .next (w.finishGrid id r2) ∧ w.groups = s.groups ∧
          w.grids = SMap.put s.grids id r2 ∧ ((s.ctx r.ctx).bound = false → w.mem = y.mem)
        (a = 0 ∨ r.doneFailed = true ∨ x = .denied → ends s) ∧
        (∀ pa leaf, a ≠ 0 → r.doneFailed = false → x = .ok pa leaf → s.svc.covers pa 8 = false →
          ends (State.cacheXlat { s with mem := s.mem.addSys pa 1 } ⟨.frontEnd, r.ctx, false, .write⟩ a)) ∧
        (a ≠ 0 → r.doneFailed = false → x = .absent →
          ∃ u : State, exec (.gridRetire id) s = .next u ∧ ∃ k, SMap.find u.grids id = some { r with doneWait := some k })))) ∧
  (∀ (w : State) (id : Nat) (r : Grid),
    let close := fun (y : State) => State.syncCcb { y with grids := SMap.erase y.grids id } r.ctx
    (∀ y : State, (close y).grids = SMap.erase y.grids id ∧ (close y).groups = y.groups) ∧
    (r.packet = none → w.finishGrid id r = close w) ∧
    ∀ p pa leaf, r.packet = some p → w.translate ⟨.frontEnd, r.ctx, false, .write⟩ p.caddr = .ok pa leaf → p.caddr ≠ 0 →
      w.host.revoked.contains p.pasid = false → r.doneFailed = false → w.svc.covers pa 16 = false →
      let m := w.mem.hostWrite pa (bytesOf 16 (p.seq * 2 ^ 16 + p.pasid * 2 ^ 32 + p.q * 2 ^ 58))
      let y : State := { w with mem := m }
      let z := (y.hRead (p.rtab + 16 * p.ire) 16).1
      let e := natOf (y.hRead (p.rtab + 16 * p.ire) 16).2
      (p.cmode = 0 → w.finishGrid id r = close w) ∧ (p.cmode = 1 → w.finishGrid id r = close { w with mem := m }) ∧
      (p.cmode = 2 → flagBit e 127 = true → flagBit e 126 = false → bits e 124 96 = 0 →
        bits e 1 0 = 0 → w.finishGrid id r =
          close { z with host := { z.host with messages := z.host.messages ++ [(bits e 63 2 * 4, bits e 95 64)] } })) ∧
  (∀ (s : State) (id n : Nat) (r : Grid) (d : Node), SMap.find s.grids id = some r → r.nodes[n]? = some d →
    let l := SMap.getD r.committed n []
    let full := l.length / d.batch * d.batch
    (l.drop full = [] → exec (.batchTimeout id n) s = .next s) ∧
    ∀ c rest, l.drop full = c :: rest →
      (s.clock < c.time + 700 * d.timeout → exec (.batchTimeout id n) s = .next s) ∧
      (c.time + 700 * d.timeout ≤ s.clock →
        let b : Batch := ⟨n, c.time, (c :: rest).map (fun c => c.addr)⟩
        let r2 : Grid := { r with
          ready := r.ready ++ [b]
          committed := if full = 0 then SMap.erase r.committed n else SMap.put r.committed n (l.take full) }
        exec (.batchTimeout id n) s = .next { s with grids := SMap.put s.grids id r2 })) ∧
  (∀ (s : State) (id : Nat) (r : Grid) (t : QTask) (va : Nat) (m : Bool) (l : List (QTask × Nat × Bool)), SMap.find s.grids id = some r →
    r.aborted = (t, va, m) :: l →
    (s.translate ⟨.frontEnd, r.ctx, m, .read⟩ va = .absent → l = [] → exec (.taskRequeue id) s = .next s) ∧
    (s.translate ⟨.frontEnd, r.ctx, m, .read⟩ va ≠ .absent →
      let r2 : Grid := { r with aborted := l, tasks := r.tasks ++ [t] }
      exec (.taskRequeue id) s = .next { s with grids := SMap.put s.grids id r2 })) ∧
  (∀ (s : State) (id : Nat) (r : Grid), SMap.find s.grids id = some r →
    (let r2 : Grid := { r with overBudget := true }
     r.lpb.cls = 0 → 1400 * r.lpb.budget ≤ r.used →
       exec (.classDBudgetExhausted id) s = .next { s with grids := SMap.put s.grids id r2 }) ∧
    (r.lpb.cls ≠ 0 ∨ r.used < 1400 * r.lpb.budget → exec (.classDBudgetExhausted id) s = .next s)) ∧
  (∀ (s : State) (id : Nat) (t : Team), SMap.find s.teams id = some t → SMap.rises s.teams →
    (t.life ≠ .ended ∨ (∃ e ∈ s.copies, e.2.team = id) → exec (.teamEndRelease id) s = .next s) ∧
    (t.life = .ended → (∀ e ∈ s.copies, e.2.team ≠ id) → ∃ u : State, exec (.teamEndRelease id) s = .next u ∧
      u.teams = SMap.erase s.teams id ∧ (∀ e ∈ u.groups, e.2.team ≠ id) ∧ u.mem = s.mem))

/-- O52. The head grid of a class is the first in queue order with work to place, of LCTX alone in Listen (R471). With no saved team of the class ahead, none of the grid's own tasks or batches waiting and its Mire shares set aside, TEAM_PLACEMENT places each team of the next cluster on its core by rank, with its index in traversal order, its storage and NGRP resident groups; each group has every lane live at CODE plus ENTRY, the LPB address in s0:s1, no other register set, and the grid's mode and budget; one more cluster is placed. The head grid's TASK_GROUP_FORM takes up to 64 tasks of one entry into one team of one group wide enough, whose records lie behind the team's storage, and they leave the queue. BATCH_LAUNCH starts a group over the first ready batch, which leaves the queue. Where no core admits the team, nothing is placed. -/
def Obligations.Placement : Prop :=
  (∀ (s : State) (cls id : Nat) (r : Grid), s.headGrid cls = some (id, r) → (id, r) ∈ s.grids ∧ r.hasWork = true ∧ r.lpb.cls = cls ∧
    s.serves r.ctx = true ∧ ∀ e ∈ s.grids, e.2.lpb.cls = cls → e.2.hasWork = true → s.serves e.2.ctx = true → lexLt (e.2.rank e.1) (r.rank id) = false) ∧
  (∀ (s : State) (cls : Nat), s.teamWaits cls = true ∨ s.svc.rstat = 1 ∨ s.headGrid cls = none → exec (.teamPlacement cls) s = .next s) ∧
  (∀ (s : State) (cls id : Nat) (r : Grid), s.headGrid cls = some (id, r) → SMap.find s.grids id = some r → s.teamWaits cls = false →
    s.svc.rstat ≠ 1 →
    let r1 : Grid := { r with started := true }
    let v : State := if r.started then s else { s with grids := SMap.put s.grids id r1 }
    (r.waiting = true ∨ r.tasks ≠ [] ∨ r.readyBatches ≠ [] ∨ (r.started = false ∧ s.mireStart r = false) → exec (.teamPlacement cls) s = .next s) ∧
    (r.waiting = false → r.tasks = [] → r.readyBatches = [] → r.started = true ∨ s.mireStart r = true →
      (v.pickCores id r1 = none → exec (.teamPlacement cls) s = .next v) ∧
      ∀ cores, v.pickCores id r1 = some cores → ∃ u : State, exec (.teamPlacement cls) s = .next u ∧
        (∃ r2, SMap.find u.grids id = some r2 ∧ r2 = { r1 with placed := r.placed + 1 }) ∧
        u.nextId = s.nextId + r.lpb.cluster * (r.lpb.ngrp + 1) ∧
        ∀ k, k < r.lpb.cluster →
          let n := s.nextId + k * (r.lpb.ngrp + 1)
          (∃ t, SMap.find u.teams n = some t ∧ t.core = cores.getD k 0 ∧ t.rank = k ∧ t.kset = cores ∧ t.life = .resident ∧ t.grid = id ∧
            t.index = (if r.lpb.cluster = 1 then r.lpb.nthTeam r.placed else r.placed * r.lpb.cluster + k) ∧
            t.tlsSize = 256 * r.lpb.tls ∧ t.tls = [] ∧ t.windows = []) ∧
          ∀ j, j < r.lpb.ngrp → ∃ g, SMap.find u.groups (n + 1 + j) = some g ∧ g.grp = j ∧ g.team = n ∧ g.grid = id ∧ g.core = cores.getD k 0 ∧
            g.width = r.lpb.width ∧ g.live = Lanes.below r.lpb.width ∧ g.life = .resident ∧ g.vdecl = r.lpb.vregs ∧
            g.bbt = [⟨Lanes.below r.lpb.width, r.lpb.code + r.lpb.entry, 0, .runnable, 0, 0⟩] ∧ g.parked = [] ∧
            g.trap.mode = r.mode ∧ g.trap.safecnt = r.lpb.safept ∧ g.trap.level = .none ∧
            (∀ x, g.regs.getS x = if x = 0 then BitVec.ofNat 32 r.lpbAddr else if x = 1 then BitVec.ofNat 32 (r.lpbAddr / 2 ^ 32) else 0) ∧
            (∀ t x, g.regs.getV t x = 0) ∧ ∀ x, x < 16 → g.regs.getH x = 0)) ∧
  (∀ (s : State) (id core : Nat) (r : Grid) (t0 : QTask) (e : TaskEntry), SMap.find s.grids id = some r → s.headGrid r.lpb.cls = some (id, r) →
    r.discarded = false → s.svc.rstat ≠ 1 → s.teamWaits r.lpb.cls = false → (gather r.tasks).head? = some t0 → r.taskTable[t0.index]? = some e →
    let ts := gather r.tasks
    let n := ts.length
    let extra := (n * t0.record.length + 255) / 256 * 256
    let pick := s.pickCore id r (r.lpb.needOne (widthFor n) extra)
    (n ≤ 64 ∧ ∀ q ∈ ts, q.index = t0.index ∧ q ∈ r.tasks) ∧
    (pick = none → exec (.taskGroupForm id) s = .next s) ∧
    (pick = some core → ∃ u : State, exec (.taskGroupForm id) s = .next u ∧
      (∃ r2, SMap.find u.grids id = some r2 ∧ r2 = { r with tasks := ts.foldl (fun l q => l.erase q) r.tasks }) ∧
      (∃ t, SMap.find u.teams s.nextId = some t ∧ t.core = core ∧ t.grid = id ∧ t.tlsSize = 256 * r.lpb.tls + extra ∧
        ∀ i, i < (ts.flatMap (fun q => q.record)).length →
          Memory.get t.tls (256 * r.lpb.tls + i) = (ts.flatMap (fun q => q.record)).getD i 0) ∧
      ∃ g, SMap.find u.groups (s.nextId + 1) = some g ∧ g.team = s.nextId ∧ g.core = core ∧ g.width = widthFor n ∧ g.live = Lanes.below n ∧
        g.isTask = true ∧ g.bbt = [⟨Lanes.below n, r.lpb.code + e.entry, 0, .runnable, 0, 0⟩] ∧
        ∀ i q, ts[i]? = some q → SMap.find g.tasks i = some ⟨q.index, q.record, true, q.entry, []⟩)) ∧
  (∀ (s : State) (id n core t : Nat) (r : Grid) (d : Node) (addrs : List Nat) (timed : Bool), SMap.find s.grids id = some r →
    r.firstBatch = some (t, n, addrs, timed) → r.nodes[n]? = some d → s.headGrid r.lpb.cls = some (id, r) → r.discarded = false → s.svc.rstat ≠ 1 → s.teamWaits r.lpb.cls = false →
    let pick := s.pickCore id r (r.lpb.needOne (widthFor d.batch) 0)
    (pick = none → exec (.batchLaunch id n) s = .next s) ∧
    (pick = some core → ∃ u : State, exec (.batchLaunch id n) s = .next u ∧
      (∃ r2, SMap.find u.grids id = some r2 ∧ r2 = if timed then { r with ready := r.ready.erase ⟨n, t, addrs⟩ }
        else { r with committed := SMap.put r.committed n ((SMap.getD r.committed n []).drop d.batch) }) ∧
      ∃ g, SMap.find u.groups (s.nextId + 1) = some g ∧ g.team = s.nextId ∧ g.core = core ∧ g.width = widthFor d.batch ∧
        g.live = Lanes.below addrs.length ∧ g.batch = some (n, addrs) ∧
        g.bbt = [⟨Lanes.below addrs.length, r.lpb.code + d.entry, 0, .runnable, 0, 0⟩]))

/-- O53. A team all of whose live threads have been parked in evictable waits for the threshold is evicted: its context block and frame R are written and released, its group saved with its registers and waits; one that is not stays. A saved team whose barrier or cause lets a wait end is wanted. Class D work that no core admits has requested the victims whose departure makes room on the one core that can; a requested group stops at a word boundary once its budget is spent or 10 µs have passed, its step undone; 20 µs later its copies are suspended; a team whose groups have stopped, their tasks aborted, is saved and wanted, its copies suspended. A wanted saved team is restored where a core admits it: its group stands there with its registers and its header as the block gives it, its sleeps go on or are over, it keeps its place in a leash's queue, and every other wait is to issue again. A context block with LEVEL 11 or a zero field set ends its group (R7, log 91). -/
def Obligations.SavingAndRestoring : Prop :=
  (∀ (s : State) (id : Nat), s.companions id = [id] →
    let saves := fun (e : Instr) (v0 : State) (wanted : Bool) => ∀ t k g g0 hs ps, SMap.find v0.teams id = some t → t.life = .resident →
      v0.liveGroups id = [(k, g0)] →
      let v := ((v0.settleTargets (fun w => w.group == k)).closeWindows id t).saveFence id
      v.liveGroups id = [(k, g)] → SMap.find v.groups k = some g → g.tile = none →
      v.pagesOf g .write g.trap.gcb 1 = .ok hs → v.pagesOf g .write g.frameR 2 = .ok ps →
      let f : Header := ⟨0, 0, g.standing.lowest, 0, g.standing.images.length, 0, 0, true, g.trap.mode, 0⟩
      let w : State := { v with mem := v.mem.storeRun g.core (hs.headD 0 / 4) g.standing.gcbWords }
      ∃ u : State, exec e s = .next u ∧ (∃ tm, SMap.find u.teams id = some tm ∧ tm.life = .saved ∧ tm.wanted = wanted) ∧
        u.mem = (w.storePages g.core ps (frameWords g.standing f g.standing.images [])).mem.release t.core 3 ∧
        (wanted = true → ∀ c ∈ u.copies, c.2.team = id → c.2.paused = true) ∧
        ∃ h, SMap.find u.groups k = some h ∧ h.life = .saved ∧ h.regs = g.regs ∧ h.live = g.live ∧ h.parked = g.parked ∧
          h.trap.preempt = false ∧ h.trap.stopped = false
    (s.idleTeam id = true → saves (.eviction id) s false) ∧
    (s.idleTeam id = false → exec (.eviction id) s = .next s) ∧
    (∀ t k g, SMap.find s.teams id = some t → (k, g) ∈ s.liveGroups id →
      (g.blk ≠ none ∨ g.bbt ≠ [] ∨ (∃ p ∈ g.parked, s.clock < p.at_ + 1400 * (if (s.ctx t.ctx).evt = 0 then 20 else (s.ctx t.ctx).evt)) ∨
        ∃ p ∈ g.parked, ∃ x, p.why = .sleep x) → s.idleTeam id = false) ∧
    (s.liveGroups id ≠ [] → s.drains id = false → s.svc.rstat ≠ 1 → s.host.restart = false → (∀ e ∈ s.liveGroups id, e.2.life = .resident ∧ e.2.trap.stopped = true ∧
        s.stashStuck e.1 = false ∧ ((e.2.trap.safept = false ∧ e.2.trap.forced = false) ∨ ∀ c ∈ s.copies, c.2.group = e.1 → c.2.paused = true)) →
      (s.pwr.busy = false ∨ s.pwr.target ≠ .listen) →
      saves (.teamSave id) ((s.liveGroups id).foldl (fun (s : State) e => s.abortSaved e.1) s) true) ∧
    ((∃ e ∈ s.liveGroups id, e.2.trap.stopped = false) → exec (.teamSave id) s = .next s) ∧
    (∀ t k g, SMap.find s.teams id = some t → t.life = .saved → (k, g) ∈ s.liveGroups id →
      (g.bbt ≠ [] ∨ ∃ p ∈ g.parked, (∃ c m a, p.why = .trap c m a) ∨ ∃ tm o n f q, p.why = .pbWait tm o n f ∧
        SMap.find s.teams tm = some q ∧ (q.pb o 2 = 0 ∨ q.pb o 0 ≠ n)) →
      ∃ u : State, exec (.relaunch id) s = .next u ∧ u.groups = s.groups ∧ u.mem = s.mem ∧
        ∃ tm, SMap.find u.teams id = some tm ∧ tm = { t with wanted := true }) ∧
    (∀ t, SMap.find s.teams id = some t → t.life ≠ .saved → exec (.relaunch id) s = .next s)) ∧
  (∀ s : State, (s.demand = none → exec .preemptRequest s = .next s) ∧
    (∀ gid r, s.wantSaved = none → s.headGrid 0 = some (gid, r) → s.teamWaits 0 = false → r.tasks = [] → r.readyBatches = [] →
      s.demand = if r.waiting = true ∨ (r.started = false ∧ s.mireStart r = false) then none
        else some ⟨gid, r, r.lpb.need, r.lpb.ccols + 1, r.lpb.crows + 1, (s.pickCores gid r).isSome⟩) ∧
    (∀ w, s.demand = some w →
      (w.fits = true → exec .preemptRequest s = .next s) ∧
      (∀ c l, w.fits = false → w.cols = 1 → w.rows = 1 → (∀ e ∈ s.groups, e.2.trap.preempt = false) →
        c < 48 → s.reserved c = false → (∀ x, x < 48 → s.reserved x = false → s.room w [] x = false) →
        s.makeRoom w c = some l → (∀ x, x < 48 → x ≠ c → s.reserved x = false → s.makeRoom w x = none) →
        ∃ u : State, exec .preemptRequest s = .next u ∧ u.teams = s.teams ∧ u.mem = s.mem ∧
          ∀ e ∈ l, ∀ id g tm, SMap.find s.groups id = some g → g.team = e.1 → g.live ≠ 0 → SMap.find s.teams e.1 = some tm →
            tm.life = .resident → ∃ h, SMap.find u.groups id = some h ∧ h.trap.preempt = true ∧ h.regs = g.regs))) ∧
  (∀ (s : State) (id : Nat) (g : Group), SMap.find s.groups id = some g →
    let due := g.async = some 5 ∨ (g.async = none ∧ g.trap.asked + 14000 ≤ s.clock)
    (g.life = .resident → g.live ≠ 0 → g.trap.preempt = true → g.trap.stopped = false → g.atBoundary = true → s.runsOut g = false → due →
      (g.tile = none → (let h : Group := { g with trap := { g.trap with stopped := true, forced := !g.allParked, asked := s.clock } }
        exec (.forcedSafePoint id) s = .next { s with groups := SMap.put s.groups id h })) ∧
      (∀ t, g.tile = some t → t.paired = false → becomes (.forcedSafePoint id) s id (fun u h =>
        (∃ t2, h.tile = some t2 ∧ t2 = { t with queue := t.queue.map (fun q => { q with started := false, work := [] }) }) ∧
        h.regs = g.regs ∧ h.trap.stopped = true ∧ ∀ e ∈ u.pairs, e.2.running ≠ some id))) ∧
    (g.trap.preempt = false ∨ g.atBoundary = false ∨ ¬ due → exec (.forcedSafePoint id) s = .next s) ∧
    (g.trap.stopped = true → g.trap.forced = true → g.trap.asked + 28000 ≤ s.clock →
      exec (.copyCancel id) s = .next { s with
        copies := s.copies.map (fun e => (e.1, if e.2.group = id then { e.2 with paused := true } else e.2)) }) ∧
    (g.trap.stopped = false ∨ s.clock < g.trap.asked + 28000 → exec (.copyCancel id) s = .next s)) ∧
  (∀ (s : State) (id : Nat) (t : Team) (r : Grid), s.companions id = [id] → SMap.find s.teams id = some t → SMap.find s.grids t.grid = some r →
    (t.life ≠ .saved ∨ t.wanted = false → exec (.teamRestore id) s = .next s) ∧
    (t.life = .saved → t.wanted = true → s.svc.rstat ≠ 1 →
      (s.pickCore t.grid r (s.needOf id t) = none → exec (.teamRestore id) s = .next s) ∧
      ∀ core k g h1 hs, s.pickCore t.grid r (s.needOf id t) = some core → s.liveGroups id = [(k, g)] → SMap.find s.groups k = some g →
        g.tile = none →
        (∃ x, g.live.getLsbD x = true ∧ ∀ e ∈ g.bbt, e.map.getLsbD x = true → e.wait = .runnable) →
        let v := s.startAcquire core
        let g1 : Group := { g with core := core }
        v.pagesOf g1 .read g.trap.gcb 1 = .ok hs →
        let ws := v.readPages core hs
        ∀ lvl cause, levelOf (bits (wordsNat (ws.take 4)) 30 29) = some lvl → v.causeAt g1 lvl = some cause → gcbZeros ws = true →
        g.loaded s.clock ws cause = h1 → h1.tile = none → h1.leash = g.leash →
        ∃ u : State, exec (.teamRestore id) s = .next u ∧ u.mem = v.mem ∧
          (∃ tm, SMap.find u.teams id = some tm ∧ tm = { t with core := core, life := .resident, wanted := false }) ∧
          ∃ h, SMap.find u.groups k = some h ∧ h.core = core ∧ h.life = .resident ∧ h.live = g.live ∧
            h.regs.v = g.regs.v ∧ h.regs.s = g.regs.s ∧ h.regs.p = g.regs.p ∧ h.regs.fstat = h1.regs.fstat ∧
            h.trap.safecnt = h1.trap.safecnt ∧ h.trap.mode = h1.trap.mode ∧ h.width = h1.width ∧
            (∀ p ∈ h.parked, p ∈ g.parked ∧ p.why.stays = true) ∧
            (∀ p x, p ∈ g.parked → p.why.stays = false → p.map.getLsbD x = true → h.stands x p.pc p.slot .runnable) ∧
            (∀ p x n, p ∈ g.parked → p.why = .sleep n → n ≠ 0 → n ≤ s.clock → p.map.getLsbD x = true → h.stands x (p.pc + 12) 0 .runnable) ∧
            ∀ x pc slot w, g.stands x pc slot w → h.stands x pc slot w)) ∧
  (∀ (s : State) (id core : Nat) (g : Group) (hs : List Nat), SMap.find s.groups id = some g → g.tile = none → g.live ≠ 0 →
    let part := s.freePart core (List.range 6)
    let g1 : Group := { g with core := core, part := part, gcn := s.freeGcn core, life := Life.resident, ready := false }
    let v : State := { s with groups := SMap.put s.groups id g1 }
    v.pagesOf g1 .read g.trap.gcb 1 = .ok hs →
    let ws := v.readPages core hs
    let x := wordsNat (ws.take 4)
    bits x 30 29 = 3 ∨ bits x 71 66 ≠ 0 ∨ bits x 8 8 ≠ 0 ∨ bits x 3 0 ≠ 0 ∨ (∃ w ∈ (ws.drop 4).take 28, w ≠ 0) ∨
        (∃ i, i < 16 ∧ bits (ws.getD (64 + 4 * i) 0).toNat 9 0 ≠ 0) → bits x 24 24 = 0 →
    ∀ h, SMap.find (s.restoreGroup id core).groups id = some h → h.live = 0)

/-- O54. For every instruction with an encoding whose fields lie in their widths, decoding its encoding gives the instruction back with every operand; and every 32-bit word that decodes to an instruction decodes to one with an encoding, fields in their widths, whose encoding is the word without its chain bit. So no bit of an encoding but the chain bit is dropped, and no two words but for that bit mean one instruction. -/
def Obligations.DecodeEncode : Prop :=
  (∀ i : Instr, i.isWord = true → i.fieldsOk = true → decode (encode i) = some i ∧ encode i < 2 ^ 31) ∧
  (∀ (w : Nat) (i : Instr), w < 2 ^ 32 → decode w = some i → i.isWord = true ∧ i.fieldsOk = true ∧ encode i = w % 2 ^ 31)

/-- O55. From every state whose memory, tiles and team-local storage list their bytes at rising addresses without a zero, and whose L1, L2, registry and dirty-sector tables have rising keys, a step that goes on leaves such a state. -/
def Obligations.MemoryStaysCanonical : Prop :=
  ∀ s t : State, s.memTidy → step s = .next t → t.memTidy

/-- O56. From every state whose tables have rising keys, whose groups and grids have identifiers below the next one, at most 64 lanes, the context of their grid, record sizes of at least a granule and waiting allocations of at least a unit, and whose Kennel tiles share no slot, a step that goes on leaves such a state. -/
def Obligations.TablesStayTidy : Prop :=
  ∀ s t : State, s.tablesTidy → step s = .next t → t.tablesTidy

/-- O57. In the reset state every byte of memory is 0, STATUS, CTXTB, QITB, DRES, the command operands and CMDST, PWAKE, SNAPST, BRUP, SSTAT, VIOL, RSTAT, CECNT, UECNT and SNAPCTL are 0 and PWRCTL is 0x2D; no context is bound, no interface open, no carve-out enabled and no grid, team, group, tile or copy exists; bring-up runs; both invariants hold. That Kennel generations start at 0 is the model's choice (log 6). -/
def Obligations.ResetState : Prop :=
  let s := State.reset
  (∀ a, Memory.get s.mem.cells a = 0 ∧ s.mem.hostByte a = 0) ∧
  (∀ o, o ∈ [0x000, 0x008, 0x010, 0x018, 0x048, 0x058, 0x060, 0x10000, 0x10008, 0x10010, 0x10018, 0x10028] → s.reg64 o = 0) ∧
  s.reg64 0x040 = 0x2D ∧ (∀ o, o ∈ [0x08, 0x0C, 0x10, 0x14, 0x18, 0x1C, 0x20, 0x24] → s.capRead o = 0) ∧ s.snap.snapctl = 0 ∧
  s.ctxs = [] ∧ s.host.ifaces = [] ∧ s.svc.carves = [] ∧ s.grids = [] ∧ s.teams = [] ∧ s.groups = [] ∧ s.kennel.tiles = [] ∧ s.copies = [] ∧
  (∀ core slot, s.kennel.gen core slot = 0) ∧ s.pwr.rising = true ∧ s.memTidy ∧ s.tablesTidy

/-- O58. A step whose turn names a group that its partition chooses, with no cause due, runs the instruction that the word at its slot decodes to, with the clock advanced, its constant operands read, and the word's issue set, packet, slot, literal and chain bit noted; in a second issue slot the clock stands. Where the group runs no block, its selected entry starts one: its packet's three words are fetched on path L, or at the slice where a window covers their line (log 168), through translation and checked, and the word at the entry's slot runs, or the illegal-encoding event at the first bad slot. A turn that names an event, a soft error, a host atomic or an arrival of a render-target word runs that. With an empty agenda the choice is R262's: a partition's candidates of the highest class present, the earliest issuable first, but in one clock of eight (log 1, log 143). -/
def Obligations.StepRunsDecoded : Prop :=
  (∀ (s : State) (rest : List Act), s.dead = false →
    let lit := fun (ws : List Nat) (slot : Nat) => match decode (ws.getD (slot - 1) 0) with
      | some (.lit p) => if 0 < slot then p else 0
      | _ => 0
    let v : State := { s.tock with agenda := rest }
    let runs := fun (v : State) (id : Nat) (g : Group) =>
      (∀ b i, g.blk = some b → b.words ≠ [] → decode (b.words.getD b.slot 0) = some i →
        step s = exec i { ({ v with groups := SMap.put v.groups id g } : State).readConsts id i with
          cur := some ⟨id, b.map, b.pc, b.slot, lit b.words b.slot, chainBit (b.words.getD b.slot 0) && i != .nop⟩ }) ∧
      (∀ (e : BbtEntry) (pa : Nat → Nat) (leaf : Nat → TlbEntry), g.blk = none → g.selected = some e →
        (∀ j, j < 3 → v.translate ⟨.core g.core, g.ctx, g.trap.mode, .fetch⟩ (e.pc + 4 * j) = .ok (pa j) (leaf j) ∧
          poisoned v.mem.poison (pa j) 4 = false) →
        let ws := (List.range 3).map (fun j => (v.codeWord g.core (pa j / 4)).toNat)
        let h : Group := { g with bbt := ageEntries e g.bbt, blk := some ⟨e.map, e.pc, e.slot, ws, true⟩ }
        let h0 : Group := { h with blk := some ⟨e.map, e.pc, e.slot, [], true⟩ }
        let u := State.fetched { v with groups := SMap.put (SMap.put v.groups id h0) id h } h0 e.pc
        let ntask := ((SMap.find v.grids g.grid).map (fun r => r.taskTable.length)).getD 0
        (∀ k, checkPacket h0 ntask ws e.slot = some k →
          step s = exec (.illegalEncoding k) { u with cur := some ⟨id, e.map, e.pc, e.slot, 0, false⟩ }) ∧
        (∀ i, checkPacket h0 ntask ws e.slot = none →
          decode (ws.getD e.slot 0) = some i →
          step s = exec i { u.readConsts id i with
            cur := some ⟨id, e.map, e.pc, e.slot, lit ws e.slot, chainBit (ws.getD e.slot 0) && i != .nop⟩ }))
    (∀ i, s.agenda = .event i :: rest → i.isWord = false → step s = exec i v) ∧
    (∀ e, s.agenda = .error e :: rest → step s = .next (v.strike e)) ∧
    (∀ pa op b b2, s.agenda = .hostAtomic pa op b b2 :: rest → step s = .next (v.hostAtomic pa op b b2)) ∧
    (∀ k, s.agenda = .target k :: rest → step s = .next (v.arriveTarget k)) ∧
    (∀ id g, s.targets = [] → g.async = none →
      (s.chooseSecond = none → (s.agenda = .issue id :: rest ∧ SMap.find s.groups id = some g ∧ s.chooseIn g.slotKey = some (id, g)) ∨
          (s.agenda = [] ∧ rest = [] ∧ s.choose = some (id, g)) →
        runs ((v.taking s id g true).fitL1 g.core) id (g.unheld s.clock)) ∧
      (s.chooseSecond = some (id, g) → s.agenda = .issue id :: rest ∨ (s.agenda = [] ∧ rest = []) →
        runs ((({ s with agenda := rest, tick := s.tick + 1, second := none } : State).taking s id g false).fitL1 g.core) id (g.unheld s.clock)))) ∧
  (∀ (s t : State) (id : Nat) (g : Group) (first : Bool),
    s.tock = { s with
      tick := s.tick + 1, clock := s.clock + 1 + Config.freeTicks s.tick, second := none, detectors := s.tock.detectors
      grids := s.tock.grids, mem := { s.mem with slcD := false }, groups := s.tock.groups
      host := s.tock.host, svc := s.tock.svc, pwr := s.tock.pwr } ∧
    ((∀ e ∈ s.grids, e.2.lpb.cls ≠ 0) → s.tock.grids = s.grids) ∧
    (s.pwr.rising = false → s.tock.host = s.host ∧ s.tock.svc = s.svc ∧ s.tock.pwr = s.pwr) ∧
    (∀ k e, SMap.find s.groups k = some e → ∃ h, SMap.find s.tock.groups k = some h ∧ h = { e with ready := h.ready, since := h.since } ∧
      (h.ready = true ↔ s.candidate e = true ∧ e.yields s.clock = false) ∧
      h.since = if h.ready = true ∧ e.ready = false then s.clock else e.since) ∧
    (let v := (t.taking s id g first).fitL1 g.core
     v = { t with slots := v.slots, second := v.second, mem := v.mem, snap := v.snap } ∧
       ((t.l1Held g.core).length ≤ l1Lines → v.mem = { t.mem with slcD := t.gridClass g.grid == 0 }) ∧
       (v.snap = t.snap ∨ v.snap = t.snap.packed g.slotKey)) ∧
    (∀ w, t.codeWord g.core w = if t.lineHere g.core (w / 64) = true then t.mem.readWord w else t.mem.coreWord g.core w) ∧
    (∀ pc, let v := t.fetched g pc
      v = { t with trans := v.trans, mem := v.mem } ∧ (t.mem.risen → t.mem.sameBytes v.mem t.mem.inFlight)) ∧
    ∀ i, t.targets = [] → let v := t.readConsts id i
      v = { t with trans := v.trans, mem := v.mem } ∧ (t.mem.risen → t.mem.sameBytes v.mem t.mem.inFlight)) ∧
  (∀ (s : State) (key id : Nat) (g : Group), s.clock % 8 ≠ 7 → s.chooseIn key = some (id, g) →
    (id, g) ∈ s.groups ∧ g.slotKey = key ∧ s.candidate g = true ∧ ∀ e ∈ s.standing key, s.classOf g ≤ s.classOf e.2 ∧
      (s.classOf e.2 = s.classOf g → earlier e.2 g = false))

/-- O59. Where the part is Off or has stopped and the next turn is not a cold reset, a step answers the fault partStopped; in every other state it answers a next state, whatever instruction, operands or event the turn has. -/
def Obligations.StepsGoOn : Prop :=
  ∀ s : State,
    (s.dead = true → s.agenda.head? ≠ some (.event .coldReset) → step s = .fault .partStopped) ∧
    (s.dead = false ∨ s.agenda.head? = some (.event .coldReset) → goesOn s)

/-- O60. Words of every family, taken from the spec's worked encodings or written out field by field from its formats (R29), opcodes (R35) and sub-codes (R36), decode to their instructions with their operands; bit 31 changes no decoding; and words of unassigned opcodes and sub-codes decode to none. -/
def Obligations.DecodingRight : Prop :=
  decode 0x7F000064 = some (.lit 100) ∧ decode 0x900C03FE = some (.iadd 3 (.v 1) (.lit 63) false) ∧
  decode 0x100C03FE = some (.iadd 3 (.v 1) (.lit 63) false) ∧ decode 0x27280588 = some (.icmp 1 2 (.v 2) (.lit 4) false) ∧
  decode 0x33100406 = some (.fma 4 (.v 2) (.v 3) false) ∧ decode 0x3715618C = some (.fsel 5 2 (.lit 3) 6 false) ∧
  decode 0x50128982 = some (.sadd 4 (.s 4) (.lit 1)) ∧ decode 0x5A8DFFFE = some (.sli 70 0x1FFFE) ∧
  decode 0x5C209618 = some (.cvt 8 9 1 true 3 0) ∧ decode 0x0D102046 = some (.redgScalar 4 2 6) ∧
  decode 0x0F303001 = some (.rsv 12 3 0) ∧ decode 0x62204900 = some (.ldB128 8 4 true 1 0) ∧
  decode 0x68184A1B = some (.atom 6 4 true 2 0 3 3) ∧ decode 0x6C106281 = some (.lcopy 4 6 5 false true) ∧
  decode 0x7038A043 = some (.pbWait 14 10 1) ∧ decode 0x711060C0 = some (.waitcmp 4 6 3 0) ∧
  decode 0x74088240 = some (.talloc 2 8 9) ∧ decode 0x76010001 = some (.tmmaQ 0 16 false false 0) ∧
  decode 0x7A404500 = some (.texSmp 16 4 20) ∧ decode 0x7C209600 = some (.rtst 8 9 24) ∧
  decode 0x7E001310 = some (.tlbi 12 2) ∧
  decode 0x2D000000 = none ∧ decode 0x73000000 = none ∧ decode 0x0E000004 = none

end ObligationsSlice0
end

