-- ==== Sys2Proof/Laws/Tables.lean ====
section
/-! SUPPORT. Read-after-write laws of the sparse tables, which hold of every list, and the canonical form of
memory under every operation on it. -/

namespace Sys2Proof.Machine

variable {α : Type}

@[simp] theorem SMap.find_nil (n : Nat) : SMap.find ([] : SMap α) n = none := rfl

/-- A key that was put reads as what was put. -/
@[simp] theorem SMap.find_put (m : SMap α) (n : Nat) (v : α) : SMap.find (SMap.put m n v) n = some v := by
  induction m with
  | nil => simp [SMap.put, SMap.find]
  | cons e r ih =>
    obtain ⟨k, w⟩ := e
    simp only [SMap.put]
    split
    · simp [SMap.find]
    · split <;> simp_all [SMap.find]

/-- Every other key reads as before. -/
theorem SMap.find_put_ne (m : SMap α) {n k : Nat} (v : α) (h : k ≠ n) : SMap.find (SMap.put m n v) k = SMap.find m k := by
  induction m with
  | nil => simp [SMap.put, SMap.find, h]
  | cons e r ih =>
    obtain ⟨j, w⟩ := e
    simp only [SMap.put]
    split
    · rename_i hn
      subst hn
      simp [SMap.find, h]
    · split
      · rename_i h1 h2
        simp only [SMap.find]
        split
        · omega
        · split
          · split <;> first | rfl | omega | (split <;> first | rfl | omega)
          · rfl
      · simp only [SMap.find, ih]

@[simp] theorem SMap.getD_put (m : SMap α) (n : Nat) (v d : α) : SMap.getD (SMap.put m n v) n d = v := by
  simp [SMap.getD]

theorem SMap.getD_put_ne (m : SMap α) {n k : Nat} (v d : α) (h : k ≠ n) :
    SMap.getD (SMap.put m n v) k d = SMap.getD m k d := by
  simp [SMap.getD, SMap.find_put_ne m v h]

/-- A put reads back as the value at its key and as before elsewhere. -/
theorem SMap.getD_put_ite (m : SMap α) (n k : Nat) (v d : α) :
    SMap.getD (SMap.put m n v) k d = if k = n then v else SMap.getD m k d := by
  split
  · rename_i h
    simp [h]
  · exact SMap.getD_put_ne m v d (by assumption)

/-! ## Memory -/

/-- The byte that was stored reads back, in a memory in canonical form. -/
theorem Memory.wfFrom_mono {lo lo' : Nat} {m : Memory} (h : Memory.wfFrom lo m = true) (hl : lo' ≤ lo) :
    Memory.wfFrom lo' m = true := by
  cases m with
  | nil => rfl
  | cons e r =>
    obtain ⟨k, v⟩ := e
    simp only [Memory.wfFrom, Bool.and_eq_true, decide_eq_true_eq] at h ⊢
    exact ⟨⟨by omega, h.1.2⟩, h.2⟩

/-- An address below every cell reads 0. -/
theorem Memory.get_below {lo a : Nat} {m : Memory} (h : Memory.wfFrom lo m = true) (ha : a < lo) : Memory.get m a = 0 := by
  cases m with
  | nil => rfl
  | cons e r =>
    obtain ⟨k, v⟩ := e
    simp only [Memory.wfFrom, Bool.and_eq_true, decide_eq_true_eq] at h
    simp only [Memory.get]
    split
    · omega
    · split
      · rfl
      · omega

/-- A store keeps the canonical form. -/
theorem Memory.set_wfFrom {lo a : Nat} {m : Memory} (b : Byte) (h : Memory.wfFrom lo m = true) (ha : lo ≤ a) :
    Memory.wfFrom lo (Memory.set m a b) = true := by
  induction m generalizing lo with
  | nil =>
    simp only [Memory.set]
    split
    · rfl
    · simp_all [Memory.wfFrom]
  | cons e r ih =>
    obtain ⟨k, v⟩ := e
    have h' := h
    simp only [Memory.wfFrom, Bool.and_eq_true, decide_eq_true_eq] at h
    obtain ⟨⟨h1, h2⟩, h3⟩ := h
    simp only [Memory.set]
    split
    · rename_i hk
      subst hk
      split
      · exact Memory.wfFrom_mono h3 (by omega)
      · simp_all [Memory.wfFrom]
    · split
      · split
        · exact h'
        · rename_i hk hb
          simp only [Memory.wfFrom, Bool.and_eq_true, decide_eq_true_eq, bne_iff_ne, ne_eq] at *
          exact ⟨⟨by omega, hb⟩, ⟨⟨by omega, h2⟩, h3⟩⟩
      · have := ih (lo := k + 1) h3 (by omega)
        simp only [Memory.wfFrom, Bool.and_eq_true, decide_eq_true_eq]
        exact ⟨⟨h1, h2⟩, this⟩

theorem Memory.set_wf {m : Memory} (a : Nat) (b : Byte) (h : Memory.wf m = true) : Memory.wf (Memory.set m a b) = true :=
  Memory.set_wfFrom b h (Nat.zero_le a)

/-- A stored byte reads back, and every other address reads as before. -/
theorem Memory.get_set_from {lo : Nat} {m : Memory} (a x : Nat) (b : Byte) (h : Memory.wfFrom lo m = true) :
    Memory.get (Memory.set m a b) x = if x = a then b else Memory.get m x := by
  induction m generalizing lo with
  | nil =>
    simp only [Memory.set]
    split
    · simp_all [Memory.get]
    · simp [Memory.get]
  | cons e r ih =>
    obtain ⟨k, v⟩ := e
    simp only [Memory.wfFrom, Bool.and_eq_true, decide_eq_true_eq] at h
    obtain ⟨⟨h1, h2⟩, h3⟩ := h
    simp only [Memory.set]
    by_cases hak : a = k
    · subst hak
      simp only [if_true]
      split
      · rename_i hb
        subst hb
        by_cases hx : x = a
        · subst hx
          simp only [if_true]
          exact Memory.get_below h3 (by omega)
        · simp only [hx, if_false, Memory.get]
          split
          · exact Memory.get_below h3 (by omega)
          · rfl
      · by_cases hx : x = a <;> simp [Memory.get, hx]
    · simp only [hak, if_false]
      split
      · rename_i hlt
        split
        · rename_i hb
          subst hb
          by_cases hx : x = a
          · subst hx
            simp [Memory.get, hak, hlt]
          · simp [hx]
        · by_cases hx : x = a
          · subst hx
            simp [Memory.get]
          · simp only [hx, if_false, Memory.get]
            split
            · have : x ≠ k := by omega
              have : x < k := by omega
              simp_all
            · rfl
      · simp only [Memory.get, ih h3]
        by_cases hx : x = a
        · subst hx
          simp [hak]
          omega
        · simp [hx]

theorem Memory.get_set {m : Memory} (a x : Nat) (b : Byte) (h : Memory.wf m = true) :
    Memory.get (Memory.set m a b) x = if x = a then b else Memory.get m x :=
  Memory.get_set_from a x b h

theorem Memory.write_wf {m : Memory} (a : Nat) (d : List Byte) (h : Memory.wf m = true) :
    Memory.wf (Memory.write m a d) = true := by
  induction d generalizing m a with
  | nil => exact h
  | cons b r ih => exact ih _ (Memory.set_wf a b h)

theorem Memory.setWord_wf {m : Memory} (a : Nat) (w : Word) (h : Memory.wf m = true) :
    Memory.wf (Memory.setWord m a w) = true := Memory.write_wf a _ h

/-- A run that was written reads back byte by byte, and every address outside it reads as before. -/
theorem Memory.get_write {m : Memory} (a x : Nat) (d : List Byte) (h : Memory.wf m = true) :
    Memory.get (Memory.write m a d) x = if a ≤ x ∧ x < a + d.length then d.getD (x - a) 0 else Memory.get m x := by
  induction d generalizing m a with
  | nil =>
    have : ¬ (a ≤ x ∧ x < a + 0) := by omega
    rw [if_neg (by simp)]
    rfl
  | cons b r ih =>
    simp only [Memory.write]
    rw [ih (a + 1) (Memory.set_wf a b h), Memory.get_set a x b h]
    by_cases h1 : x = a
    · subst h1
      have h2 : ¬ (x + 1 ≤ x ∧ x < x + 1 + r.length) := by omega
      simp
    · by_cases h2 : a + 1 ≤ x ∧ x < a + 1 + r.length
      · have h3 : a ≤ x ∧ x < a + (b :: r).length := by simp; omega
        rw [if_pos h2, if_pos h3]
        have : x - a = (x - (a + 1)) + 1 := by omega
        rw [this]
        simp
      · have h3 : ¬ (a ≤ x ∧ x < a + (b :: r).length) := by simp; omega
        rw [if_neg h2, if_neg h3, if_neg h1]

/-- Dropping cells keeps the canonical form. -/
theorem Memory.filter_wfFrom {lo : Nat} {m : Memory} (f : Host.Cell → Bool) (h : Memory.wfFrom lo m = true) :
    Memory.wfFrom lo (m.filter f) = true := by
  induction m generalizing lo with
  | nil => rfl
  | cons e r ih =>
    obtain ⟨k, v⟩ := e
    simp only [Memory.wfFrom, Bool.and_eq_true, decide_eq_true_eq] at h
    simp only [List.filter]
    split
    · simp only [Memory.wfFrom, Bool.and_eq_true, decide_eq_true_eq]
      exact ⟨h.1, ih h.2⟩
    · exact ih (Memory.wfFrom_mono h.2 (by omega))

theorem Memory.filter_wf {m : Memory} (f : Host.Cell → Bool) (h : Memory.wf m = true) : Memory.wf (m.filter f) = true :=
  Memory.filter_wfFrom f h

end Sys2Proof.Machine
end

