-- ==== Sys2Proof/Laws/Hierarchy.lean ====
section
/-! SUPPORT. Every operation of the memory hierarchy keeps the canonical form of the cells of SLC and LPDDR; those that
reach no cell leave them alone. -/

namespace Sys2Proof.Machine

/-! ## Operations that leave the cells alone -/

@[simp] theorem MemSys.recallFrom_cells (m : MemSys) (d w : Nat) : (m.recallFrom d w).cells = m.cells := by
  unfold MemSys.recallFrom
  split <;> rfl

@[simp] theorem MemSys.register_cells (m : MemSys) (c w : Nat) : (m.register c w).cells = m.cells := by
  simp only [MemSys.register]
  split <;> split <;> try split
  all_goals simp

@[simp] theorem MemSys.registerAll_cells (m : MemSys) (l : List (Nat × Nat)) : (m.registerAll l).cells = m.cells := by
  induction l generalizing m with
  | nil => rfl
  | cons e r ih => simp [MemSys.registerAll, ih]

@[simp] theorem MemSys.ackWord_cells (m : MemSys) (c w : Nat) : (m.ackWord c w).cells = m.cells := by
  unfold MemSys.ackWord
  split <;> simp

@[simp] theorem MemSys.ack_cells (m : MemSys) (c w : Nat) : (m.ack c w).cells = m.cells := by
  unfold MemSys.ack
  split <;> simp

theorem MemSys.foldl_ack_cells {β : Type} (f g : β → Nat) (l : List β) (m : MemSys) :
    (l.foldl (fun m x => m.ack (f x) (g x)) m).cells = m.cells := by
  induction l generalizing m with
  | nil => rfl
  | cons x r ih => simp [ih]

@[simp] theorem MemSys.drainCore_cells (m : MemSys) (c : Nat) : (m.drainCore c).cells = m.cells :=
  MemSys.foldl_ack_cells (fun _ => c) Prod.snd _ m

@[simp] theorem MemSys.settle_cells (m : MemSys) (w : Nat) : (m.settle w).cells = m.cells := by
  unfold MemSys.settle
  split
  · split <;> simp
  · rfl

@[simp] theorem MemSys.settleRun_cells (m : MemSys) (w k : Nat) : (m.settleRun w k).cells = m.cells := by
  induction k generalizing m w with
  | zero => rfl
  | succ k ih => simp [MemSys.settleRun, ih]

@[simp] theorem MemSys.fillWord_cells (m : MemSys) (c w : Nat) : (m.fillWord c w).cells = m.cells := by
  unfold MemSys.fillWord
  split <;> simp

@[simp] theorem MemSys.fillWords_cells (m : MemSys) (c w k : Nat) : (m.fillWords c w k).cells = m.cells := by
  induction k generalizing m w with
  | zero => rfl
  | succ k ih => simp [MemSys.fillWords, ih]

@[simp] theorem MemSys.store_cells (m : MemSys) (c w : Nat) (v : Word) : (m.store c w v).cells = m.cells := rfl
@[simp] theorem MemSys.storeRun_cells (m : MemSys) (c w : Nat) (vs : List Word) : (m.storeRun c w vs).cells = m.cells := rfl
@[simp] theorem MemSys.storeByte_cells (m : MemSys) (c a : Nat) (b : Byte) : (m.storeByte c a b).cells = m.cells := rfl

@[simp] theorem MemSys.note_cells (m : MemSys) (l : Nat) : (m.note l).cells = m.cells := by
  unfold MemSys.note
  split <;> rfl

theorem MemSys.foldl_note_cells {β : Type} (f : β → Nat) (l : List β) (m : MemSys) :
    (l.foldl (fun m x => m.note (f x)) m).cells = m.cells := by
  induction l generalizing m with
  | nil => rfl
  | cons x r ih => simp [ih]

@[simp] theorem MemSys.acquire_cells (m : MemSys) (c scope : Nat) : (m.acquire c scope).cells = m.cells := by
  unfold MemSys.acquire
  split <;> rfl

@[simp] theorem MemSys.refresh_cells (m : MemSys) (c w : Nat) : (m.refresh c w).cells = m.cells := by
  unfold MemSys.refresh
  split
  · split <;> rfl
  · rfl

@[simp] theorem MemSys.homeRead_cells (m : MemSys) (c w : Nat) : (m.homeRead c w).1.cells = m.cells := by simp [MemSys.homeRead]

@[simp] theorem MemSys.disown_cells (m : MemSys) (w : Nat) : (m.disown w).cells = m.cells := by
  simp only [MemSys.disown]
  split <;> simp

@[simp] theorem MemSys.disownRun_cells (m : MemSys) (w k : Nat) : (m.disownRun w k).cells = m.cells := by
  induction k generalizing m w with
  | zero => rfl
  | succ k ih => simp [MemSys.disownRun, ih]

@[simp] theorem MemSys.ownedPut_cells (m : MemSys) (c w : Nat) (v : Word) : (m.ownedPut c w v).cells = m.cells := rfl

@[simp] theorem MemSys.keepRead_cells (m : MemSys) (c x : Nat) : (m.keepRead c x).cells = m.cells := by
  unfold MemSys.keepRead
  split <;> rfl

@[simp] theorem MemSys.atomicCore_cells (m : MemSys) (c w : Nat) (f : Word → Word) : (m.atomicCore c w f).1.cells = m.cells := by
  unfold MemSys.atomicCore
  split <;> simp

@[simp] theorem MemSys.dropWords_cells (m : MemSys) (c w k : Nat) : (m.dropWords c w k).cells = m.cells := by
  induction k generalizing m w with
  | zero => rfl
  | succ k ih =>
    simp only [MemSys.dropWords, ih]
    split
    · split <;> rfl
    · rfl

@[simp] theorem MemSys.discardLine_cells (m : MemSys) (c l : Nat) : (m.discardLine c l).cells = m.cells := by
  have h := MemSys.dropWords_cells m c (64 * l) 64
  unfold MemSys.discardLine
  generalize MemSys.dropWords m c (64 * l) 64 = y at h ⊢
  exact h

/-! ## Operations that write cells -/

theorem MemSys.lineGone_wf {m : MemSys} (l : Nat) (held : Bool) (d : List Byte) (h : Memory.wf m.cells = true) :
    Memory.wf (m.lineGone l held d).cells = true := by
  cases held with
  | false => exact h
  | true =>
    simp only [MemSys.lineGone, if_true, MemSys.note_cells]
    exact Memory.write_wf _ _ h

theorem MemSys.slcDrop_wf {m : MemSys} (l : Nat) (h : Memory.wf m.cells = true) : Memory.wf (m.slcDrop l).cells = true := by
  unfold MemSys.slcDrop
  apply MemSys.lineGone_wf
  rw [MemSys.disownRun_cells, MemSys.settleRun_cells]
  exact h

theorem MemSys.foldl_slcDrop_wf (l : SMap SlcLine) {m : MemSys} (h : Memory.wf m.cells = true) :
    Memory.wf (l.foldl (fun m e => m.slcDrop e.1) m).cells = true := by
  induction l generalizing m with
  | nil => exact h
  | cons e r ih =>
    have k := MemSys.slcDrop_wf e.1 h
    rw [List.foldl_cons]
    generalize MemSys.slcDrop m e.1 = y at k ⊢
    exact ih k

theorem MemSys.slcAlloc_wf {m : MemSys} (l : Nat) (h : Memory.wf m.cells = true) : Memory.wf (m.slcAlloc l).cells = true := by
  unfold MemSys.slcAlloc
  split
  · exact h
  · exact MemSys.foldl_slcDrop_wf _ h

theorem MemSys.dir_wf {m : MemSys} (l : Nat) (f : SlcLine → SlcLine) (h : Memory.wf m.cells = true) :
    Memory.wf (m.dir l f).cells = true := by
  have k := MemSys.slcAlloc_wf l h
  unfold MemSys.dir
  generalize MemSys.slcAlloc m l = y at k ⊢
  exact k

theorem MemSys.slcRead_wf {m : MemSys} (x : Nat) (h : Memory.wf m.cells = true) : Memory.wf (m.slcRead x).cells = true :=
  MemSys.dir_wf _ _ h

theorem MemSys.slcWrote_wf {m : MemSys} (x : Nat) (h : Memory.wf m.cells = true) : Memory.wf (m.slcWrote x).cells = true :=
  MemSys.dir_wf _ _ h

theorem MemSys.pushSector_wf {m : MemSys} (x : Nat) (h : Memory.wf m.cells = true) :
    Memory.wf (m.pushSector x).cells = true := by
  unfold MemSys.pushSector
  split
  · split
    · dsimp only
      rw [MemSys.note_cells]
      exact MemSys.dir_wf _ _ (Memory.write_wf _ _ (MemSys.slcWrote_wf x h))
    · exact h
  · exact h

theorem MemSys.pushSectors_wf {m : MemSys} (l : List Nat) (h : Memory.wf m.cells = true) :
    Memory.wf (m.pushSectors l).cells = true := by
  induction l generalizing m with
  | nil => exact h
  | cons x r ih => exact ih (MemSys.pushSector_wf x h)

theorem MemSys.dropSector_wf {m : MemSys} (x : Nat) (h : Memory.wf m.cells = true) :
    Memory.wf (m.dropSector x).cells = true := by
  have k := MemSys.pushSector_wf x h
  unfold MemSys.dropSector
  generalize MemSys.pushSector m x = y at k ⊢
  dsimp only
  split
  · exact k
  · split
    · exact k
    · exact MemSys.dir_wf _ _ k

theorem MemSys.l2Room_wf {m : MemSys} (x : Nat) (h : Memory.wf m.cells = true) : Memory.wf (m.l2Room x).cells = true := by
  unfold MemSys.l2Room
  dsimp only
  split
  · exact h
  · split
    · exact MemSys.dropSector_wf _ h
    · exact h

theorem MemSys.l2Fill_wf {m : MemSys} (x : Nat) (h : Memory.wf m.cells = true) : Memory.wf (m.l2Fill x).cells = true := by
  unfold MemSys.l2Fill
  split
  · exact h
  · have k := MemSys.dir_wf (x / 2) (fun d => { d with l2 := true }) (MemSys.slcRead_wf x (MemSys.l2Room_wf x h))
    exact k

theorem MemSys.l2Put_wf {m : MemSys} (w : Nat) (v : Word) (h : Memory.wf m.cells = true) :
    Memory.wf (m.l2Put w v).cells = true := MemSys.l2Fill_wf (w / 32) h

theorem MemSys.fillSector_wf {m : MemSys} (c x : Nat) (h : Memory.wf m.cells = true) :
    Memory.wf (m.fillSector c x).cells = true := by
  unfold MemSys.fillSector
  rw [MemSys.fillWords_cells]
  exact MemSys.l2Fill_wf x h

theorem MemSys.touch_wf {m : MemSys} (c w : Nat) (h : Memory.wf m.cells = true) : Memory.wf (m.touch c w).cells = true := by
  unfold MemSys.touch
  split
  · exact h
  · exact MemSys.fillSector_wf _ _ h

theorem MemSys.backWord_wf {m : MemSys} (c w : Nat) (h : Memory.wf m.cells = true) : Memory.wf (m.backWord c w).cells = true := by
  unfold MemSys.backWord
  split
  · split
    · rename_i e _ _ _ _
      exact MemSys.l2Put_wf w e.val h
    · exact h
  · exact h

theorem MemSys.backWords_wf {m : MemSys} (c w k : Nat) (h : Memory.wf m.cells = true) :
    Memory.wf (m.backWords c w k).cells = true := by
  induction k generalizing m w with
  | zero => exact h
  | succ k ih => exact ih _ (MemSys.backWord_wf _ _ (by simpa using h))

theorem MemSys.backSector_wf {m : MemSys} (c x : Nat) (h : Memory.wf m.cells = true) :
    Memory.wf (m.backSector c x).cells = true := by
  have h := MemSys.backWords_wf c (32 * x) 32 h
  unfold MemSys.backSector
  generalize MemSys.backWords m c (32 * x) 32 = y at h ⊢
  exact h

theorem MemSys.backSectors_wf {m : MemSys} (c : Nat) (l : List Nat) (h : Memory.wf m.cells = true) :
    Memory.wf (m.backSectors c l).cells = true := by
  induction l generalizing m with
  | nil => exact h
  | cons x r ih =>
    have h := MemSys.backSector_wf c x h
    unfold MemSys.backSectors
    generalize MemSys.backSector m c x = y at h ⊢
    exact ih h

theorem MemSys.release_wf {m : MemSys} (c scope : Nat) (h : Memory.wf m.cells = true) :
    Memory.wf (m.release c scope).cells = true := by
  unfold MemSys.release
  split
  · exact h
  · have k := MemSys.backSectors_wf c (MemSys.dirtyOf (m.drainCore c) c) (m := m.drainCore c) (by simpa using h)
    dsimp only
    generalize MemSys.backSectors (m.drainCore c) c (MemSys.dirtyOf (m.drainCore c) c) = y at k ⊢
    split
    · rw [MemSys.foldl_note_cells]
      exact k
    · apply MemSys.pushSectors_wf
      rw [MemSys.foldl_note_cells]
      exact k

theorem MemSys.engineStore_wf {m : MemSys} (w : Nat) (v : Word) (h : Memory.wf m.cells = true) :
    Memory.wf (m.engineStore w v).cells = true := by
  have k : Memory.wf ((m.settle w).disown w).cells = true := by simpa using h
  exact MemSys.l2Put_wf w v k

theorem MemSys.engineByte_wf {m : MemSys} (a : Nat) (b : Byte) (h : Memory.wf m.cells = true) :
    Memory.wf (m.engineByte a b).cells = true := MemSys.engineStore_wf _ _ h

theorem MemSys.engineWrite_wf {m : MemSys} (a : Nat) (d : List Byte) (h : Memory.wf m.cells = true) :
    Memory.wf (m.engineWrite a d).cells = true := by
  induction d generalizing m a with
  | nil => exact h
  | cons b r ih => exact ih _ (MemSys.engineByte_wf a b h)

theorem MemSys.linePush_wf {m : MemSys} (line : Nat) (h : Memory.wf m.cells = true) :
    Memory.wf (m.linePush line).cells = true := by
  unfold MemSys.linePush
  apply MemSys.dir_wf
  exact MemSys.dropSector_wf _ (MemSys.dropSector_wf _ h)

theorem MemSys.hostWords_wf {m : MemSys} (w k : Nat) (h : Memory.wf m.cells = true) :
    Memory.wf (m.hostWords w k).cells = true := by
  induction k generalizing m w with
  | zero => exact h
  | succ k ih => exact ih _ (MemSys.engineStore_wf _ _ h)

theorem MemSys.hostLines_wf {m : MemSys} (line k : Nat) (h : Memory.wf m.cells = true) :
    Memory.wf (m.hostLines line k).cells = true := by
  induction k generalizing m line with
  | zero => exact h
  | succ k ih =>
    apply ih
    rw [MemSys.note_cells]
    exact MemSys.linePush_wf line h

theorem MemSys.foldl_slcWrote_wf (f : Nat → Nat) (l : List Nat) {m : MemSys} (h : Memory.wf m.cells = true) :
    Memory.wf (l.foldl (fun m i => m.slcWrote (f i)) m).cells = true := by
  induction l generalizing m with
  | nil => exact h
  | cons i r ih => exact ih (MemSys.slcWrote_wf _ h)

theorem MemSys.foldl_slcRead_wf (l : List Nat) {m : MemSys} (h : Memory.wf m.cells = true) :
    Memory.wf (l.foldl MemSys.slcRead m).cells = true := by
  induction l generalizing m with
  | nil => exact h
  | cons i r ih => exact ih (MemSys.slcRead_wf _ h)

theorem MemSys.foldl_settle_cells (f : MemSys → Nat → Bool) (l : List Nat) (m : MemSys) :
    (l.foldl (fun m w => if f m w = true then m.settle w else m) m).cells = m.cells := by
  induction l generalizing m with
  | nil => rfl
  | cons w r ih =>
    rw [List.foldl_cons, ih]
    split <;> simp

theorem MemSys.hostReads_wf {m : MemSys} (a n : Nat) (h : Memory.wf m.cells = true) :
    Memory.wf (m.hostReads a n).cells = true := by
  unfold MemSys.hostReads
  split
  · exact h
  · apply MemSys.foldl_slcRead_wf
    rw [MemSys.foldl_settle_cells (fun m w => (SMap.getD m.slc (w / 64) {}).owned)]
    exact h

theorem MemSys.sliceRead_wf {m : MemSys} (x : Nat) (h : Memory.wf m.cells = true) : Memory.wf (m.sliceRead x).cells = true := by
  unfold MemSys.sliceRead
  rw [MemSys.settleRun_cells]
  exact MemSys.l2Fill_wf x h

theorem MemSys.readSys_wf {m : MemSys} (c w : Nat) (h : Memory.wf m.cells = true) : Memory.wf (m.readSys c w).1.cells = true := by
  simp only [MemSys.readSys, MemSys.refresh_cells]
  exact MemSys.slcRead_wf _ (by simpa using h)

theorem MemSys.hostWrite_wf {m : MemSys} (a : Nat) (d : List Byte) (h : Memory.wf m.cells = true) :
    Memory.wf (m.hostWrite a d).cells = true := by
  unfold MemSys.hostWrite
  split
  · exact h
  · dsimp only
    apply Memory.write_wf
    refine MemSys.foldl_slcWrote_wf (fun i => a / 128 + i) _ ?_
    apply MemSys.hostLines_wf
    apply MemSys.hostWords_wf
    exact h

theorem MemSys.atomicSys_wf {m : MemSys} (w : Nat) (f : Word → Word) (h : Memory.wf m.cells = true) :
    Memory.wf (m.atomicSys w f).1.cells = true := by
  unfold MemSys.atomicSys
  dsimp only
  apply Memory.setWord_wf
  apply MemSys.slcWrote_wf
  apply MemSys.linePush_wf
  exact MemSys.engineStore_wf _ _ h

theorem MemSys.atomicSysOf_wf {m : MemSys} (c w : Nat) (f : Word → Word) (h : Memory.wf m.cells = true) :
    Memory.wf (m.atomicSysOf c w f).1.cells = true := by
  unfold MemSys.atomicSysOf
  rw [MemSys.refresh_cells]
  exact MemSys.atomicSys_wf _ _ (by simpa using h)

theorem MemSys.addSys_wf {m : MemSys} (a n : Nat) (h : Memory.wf m.cells = true) :
    Memory.wf (m.addSys a n).cells = true := by
  unfold MemSys.addSys
  dsimp only
  rw [MemSys.note_cells]
  exact MemSys.atomicSys_wf _ _ (MemSys.atomicSys_wf _ _ h)

theorem MemSys.addSysOf_wf {m : MemSys} (c a n : Nat) (h : Memory.wf m.cells = true) :
    Memory.wf (m.addSysOf c a n).cells = true := by
  simp only [MemSys.addSysOf, MemSys.refresh_cells]
  exact MemSys.addSys_wf a n (by simpa using h)

theorem MemSys.evictLine_wf {m : MemSys} (c l : Nat) (h : Memory.wf m.cells = true) :
    Memory.wf (m.evictLine c l).cells = true := by
  unfold MemSys.evictLine
  rw [MemSys.note_cells, MemSys.dropWords_cells]
  exact MemSys.backSector_wf _ _ (MemSys.backSector_wf _ _ h)

end Sys2Proof.Machine
end

