-- ==== Sys2Proof/Laws/State.lean ====
section
/-! SUPPORT. What each plain update of the state and of the registers does to each field, true by `rfl`, so that no
later proof unfolds a record update. -/

namespace Sys2Proof.Machine

@[simp] theorem State.setGroup_agenda (s : State) (id : Nat) (g : Group) : (s.setGroup id g).agenda = s.agenda := rfl
@[simp] theorem State.setGroup_tick (s : State) (id : Nat) (g : Group) : (s.setGroup id g).tick = s.tick := rfl
@[simp] theorem State.setGroup_clock (s : State) (id : Nat) (g : Group) : (s.setGroup id g).clock = s.clock := rfl
@[simp] theorem State.setGroup_cur (s : State) (id : Nat) (g : Group) : (s.setGroup id g).cur = s.cur := rfl
@[simp] theorem State.setGroup_groups (s : State) (id : Nat) (g : Group) : (s.setGroup id g).groups = SMap.put s.groups id g := rfl
@[simp] theorem State.setGroup_teams (s : State) (id : Nat) (g : Group) : (s.setGroup id g).teams = s.teams := rfl
@[simp] theorem State.setGroup_grids (s : State) (id : Nat) (g : Group) : (s.setGroup id g).grids = s.grids := rfl
@[simp] theorem State.setGroup_nextId (s : State) (id : Nat) (g : Group) : (s.setGroup id g).nextId = s.nextId := rfl
@[simp] theorem State.setGroup_slots (s : State) (id : Nat) (g : Group) : (s.setGroup id g).slots = s.slots := rfl
@[simp] theorem State.setGroup_second (s : State) (id : Nat) (g : Group) : (s.setGroup id g).second = s.second := rfl
@[simp] theorem State.setGroup_kennel (s : State) (id : Nat) (g : Group) : (s.setGroup id g).kennel = s.kennel := rfl
@[simp] theorem State.setGroup_mire (s : State) (id : Nat) (g : Group) : (s.setGroup id g).mire = s.mire := rfl
@[simp] theorem State.setGroup_mireStir (s : State) (id : Nat) (g : Group) : (s.setGroup id g).mireStir = s.mireStir := rfl
@[simp] theorem State.setGroup_detectors (s : State) (id : Nat) (g : Group) : (s.setGroup id g).detectors = s.detectors := rfl
@[simp] theorem State.setGroup_pairs (s : State) (id : Nat) (g : Group) : (s.setGroup id g).pairs = s.pairs := rfl
@[simp] theorem State.setGroup_mem (s : State) (id : Nat) (g : Group) : (s.setGroup id g).mem = s.mem := rfl
@[simp] theorem State.setGroup_trans (s : State) (id : Nat) (g : Group) : (s.setGroup id g).trans = s.trans := rfl
@[simp] theorem State.setGroup_copies (s : State) (id : Nat) (g : Group) : (s.setGroup id g).copies = s.copies := rfl
@[simp] theorem State.setGroup_mesh (s : State) (id : Nat) (g : Group) : (s.setGroup id g).mesh = s.mesh := rfl
@[simp] theorem State.setGroup_ctxs (s : State) (id : Nat) (g : Group) : (s.setGroup id g).ctxs = s.ctxs := rfl
@[simp] theorem State.setGroup_host (s : State) (id : Nat) (g : Group) : (s.setGroup id g).host = s.host := rfl
@[simp] theorem State.setGroup_svc (s : State) (id : Nat) (g : Group) : (s.setGroup id g).svc = s.svc := rfl
@[simp] theorem State.setGroup_pwr (s : State) (id : Nat) (g : Group) : (s.setGroup id g).pwr = s.pwr := rfl
@[simp] theorem State.setGroup_snap (s : State) (id : Nat) (g : Group) : (s.setGroup id g).snap = s.snap := rfl
@[simp] theorem State.setGroup_stream (s : State) (id : Nat) (g : Group) : (s.setGroup id g).stream = s.stream := rfl
@[simp] theorem State.setGroup_decodes (s : State) (id : Nat) (g : Group) : (s.setGroup id g).decodes = s.decodes := rfl
@[simp] theorem State.setGroup_texels (s : State) (id : Nat) (g : Group) : (s.setGroup id g).texels = s.texels := rfl
@[simp] theorem State.setGroup_targets (s : State) (id : Nat) (g : Group) : (s.setGroup id g).targets = s.targets := rfl
@[simp] theorem State.setGroup_hwaits (s : State) (id : Nat) (g : Group) : (s.setGroup id g).hwaits = s.hwaits := rfl

@[simp] theorem State.setTeam_agenda (s : State) (id : Nat) (t : Team) : (s.setTeam id t).agenda = s.agenda := rfl
@[simp] theorem State.setTeam_tick (s : State) (id : Nat) (t : Team) : (s.setTeam id t).tick = s.tick := rfl
@[simp] theorem State.setTeam_clock (s : State) (id : Nat) (t : Team) : (s.setTeam id t).clock = s.clock := rfl
@[simp] theorem State.setTeam_cur (s : State) (id : Nat) (t : Team) : (s.setTeam id t).cur = s.cur := rfl
@[simp] theorem State.setTeam_groups (s : State) (id : Nat) (t : Team) : (s.setTeam id t).groups = s.groups := rfl
@[simp] theorem State.setTeam_teams (s : State) (id : Nat) (t : Team) : (s.setTeam id t).teams = SMap.put s.teams id t := rfl
@[simp] theorem State.setTeam_grids (s : State) (id : Nat) (t : Team) : (s.setTeam id t).grids = s.grids := rfl
@[simp] theorem State.setTeam_nextId (s : State) (id : Nat) (t : Team) : (s.setTeam id t).nextId = s.nextId := rfl
@[simp] theorem State.setTeam_slots (s : State) (id : Nat) (t : Team) : (s.setTeam id t).slots = s.slots := rfl
@[simp] theorem State.setTeam_second (s : State) (id : Nat) (t : Team) : (s.setTeam id t).second = s.second := rfl
@[simp] theorem State.setTeam_kennel (s : State) (id : Nat) (t : Team) : (s.setTeam id t).kennel = s.kennel := rfl
@[simp] theorem State.setTeam_mire (s : State) (id : Nat) (t : Team) : (s.setTeam id t).mire = s.mire := rfl
@[simp] theorem State.setTeam_mireStir (s : State) (id : Nat) (t : Team) : (s.setTeam id t).mireStir = s.mireStir := rfl
@[simp] theorem State.setTeam_detectors (s : State) (id : Nat) (t : Team) : (s.setTeam id t).detectors = s.detectors := rfl
@[simp] theorem State.setTeam_pairs (s : State) (id : Nat) (t : Team) : (s.setTeam id t).pairs = s.pairs := rfl
@[simp] theorem State.setTeam_mem (s : State) (id : Nat) (t : Team) : (s.setTeam id t).mem = s.mem := rfl
@[simp] theorem State.setTeam_trans (s : State) (id : Nat) (t : Team) : (s.setTeam id t).trans = s.trans := rfl
@[simp] theorem State.setTeam_copies (s : State) (id : Nat) (t : Team) : (s.setTeam id t).copies = s.copies := rfl
@[simp] theorem State.setTeam_mesh (s : State) (id : Nat) (t : Team) : (s.setTeam id t).mesh = s.mesh := rfl
@[simp] theorem State.setTeam_ctxs (s : State) (id : Nat) (t : Team) : (s.setTeam id t).ctxs = s.ctxs := rfl
@[simp] theorem State.setTeam_host (s : State) (id : Nat) (t : Team) : (s.setTeam id t).host = s.host := rfl
@[simp] theorem State.setTeam_svc (s : State) (id : Nat) (t : Team) : (s.setTeam id t).svc = s.svc := rfl
@[simp] theorem State.setTeam_pwr (s : State) (id : Nat) (t : Team) : (s.setTeam id t).pwr = s.pwr := rfl
@[simp] theorem State.setTeam_snap (s : State) (id : Nat) (t : Team) : (s.setTeam id t).snap = s.snap := rfl
@[simp] theorem State.setTeam_stream (s : State) (id : Nat) (t : Team) : (s.setTeam id t).stream = s.stream := rfl
@[simp] theorem State.setTeam_decodes (s : State) (id : Nat) (t : Team) : (s.setTeam id t).decodes = s.decodes := rfl
@[simp] theorem State.setTeam_texels (s : State) (id : Nat) (t : Team) : (s.setTeam id t).texels = s.texels := rfl
@[simp] theorem State.setTeam_targets (s : State) (id : Nat) (t : Team) : (s.setTeam id t).targets = s.targets := rfl
@[simp] theorem State.setTeam_hwaits (s : State) (id : Nat) (t : Team) : (s.setTeam id t).hwaits = s.hwaits := rfl

@[simp] theorem State.modCtx_agenda (s : State) (id : Nat) (f : Ctx → Ctx) : (s.modCtx id f).agenda = s.agenda := rfl
@[simp] theorem State.modCtx_tick (s : State) (id : Nat) (f : Ctx → Ctx) : (s.modCtx id f).tick = s.tick := rfl
@[simp] theorem State.modCtx_clock (s : State) (id : Nat) (f : Ctx → Ctx) : (s.modCtx id f).clock = s.clock := rfl
@[simp] theorem State.modCtx_cur (s : State) (id : Nat) (f : Ctx → Ctx) : (s.modCtx id f).cur = s.cur := rfl
@[simp] theorem State.modCtx_groups (s : State) (id : Nat) (f : Ctx → Ctx) : (s.modCtx id f).groups = s.groups := rfl
@[simp] theorem State.modCtx_teams (s : State) (id : Nat) (f : Ctx → Ctx) : (s.modCtx id f).teams = s.teams := rfl
@[simp] theorem State.modCtx_grids (s : State) (id : Nat) (f : Ctx → Ctx) : (s.modCtx id f).grids = s.grids := rfl
@[simp] theorem State.modCtx_nextId (s : State) (id : Nat) (f : Ctx → Ctx) : (s.modCtx id f).nextId = s.nextId := rfl
@[simp] theorem State.modCtx_slots (s : State) (id : Nat) (f : Ctx → Ctx) : (s.modCtx id f).slots = s.slots := rfl
@[simp] theorem State.modCtx_second (s : State) (id : Nat) (f : Ctx → Ctx) : (s.modCtx id f).second = s.second := rfl
@[simp] theorem State.modCtx_kennel (s : State) (id : Nat) (f : Ctx → Ctx) : (s.modCtx id f).kennel = s.kennel := rfl
@[simp] theorem State.modCtx_mire (s : State) (id : Nat) (f : Ctx → Ctx) : (s.modCtx id f).mire = s.mire := rfl
@[simp] theorem State.modCtx_mireStir (s : State) (id : Nat) (f : Ctx → Ctx) : (s.modCtx id f).mireStir = s.mireStir := rfl
@[simp] theorem State.modCtx_detectors (s : State) (id : Nat) (f : Ctx → Ctx) : (s.modCtx id f).detectors = s.detectors := rfl
@[simp] theorem State.modCtx_pairs (s : State) (id : Nat) (f : Ctx → Ctx) : (s.modCtx id f).pairs = s.pairs := rfl
@[simp] theorem State.modCtx_mem (s : State) (id : Nat) (f : Ctx → Ctx) : (s.modCtx id f).mem = s.mem := rfl
@[simp] theorem State.modCtx_trans (s : State) (id : Nat) (f : Ctx → Ctx) : (s.modCtx id f).trans = s.trans := rfl
@[simp] theorem State.modCtx_copies (s : State) (id : Nat) (f : Ctx → Ctx) : (s.modCtx id f).copies = s.copies := rfl
@[simp] theorem State.modCtx_mesh (s : State) (id : Nat) (f : Ctx → Ctx) : (s.modCtx id f).mesh = s.mesh := rfl
@[simp] theorem State.modCtx_ctxs (s : State) (id : Nat) (f : Ctx → Ctx) : (s.modCtx id f).ctxs = SMap.put s.ctxs id (f (SMap.getD s.ctxs id {})) := rfl
@[simp] theorem State.modCtx_host (s : State) (id : Nat) (f : Ctx → Ctx) : (s.modCtx id f).host = s.host := rfl
@[simp] theorem State.modCtx_svc (s : State) (id : Nat) (f : Ctx → Ctx) : (s.modCtx id f).svc = s.svc := rfl
@[simp] theorem State.modCtx_pwr (s : State) (id : Nat) (f : Ctx → Ctx) : (s.modCtx id f).pwr = s.pwr := rfl
@[simp] theorem State.modCtx_snap (s : State) (id : Nat) (f : Ctx → Ctx) : (s.modCtx id f).snap = s.snap := rfl
@[simp] theorem State.modCtx_stream (s : State) (id : Nat) (f : Ctx → Ctx) : (s.modCtx id f).stream = s.stream := rfl
@[simp] theorem State.modCtx_decodes (s : State) (id : Nat) (f : Ctx → Ctx) : (s.modCtx id f).decodes = s.decodes := rfl
@[simp] theorem State.modCtx_texels (s : State) (id : Nat) (f : Ctx → Ctx) : (s.modCtx id f).texels = s.texels := rfl
@[simp] theorem State.modCtx_targets (s : State) (id : Nat) (f : Ctx → Ctx) : (s.modCtx id f).targets = s.targets := rfl
@[simp] theorem State.modCtx_hwaits (s : State) (id : Nat) (f : Ctx → Ctx) : (s.modCtx id f).hwaits = s.hwaits := rfl

@[simp] theorem State.modPair_agenda (s : State) (core pair : Nat) (f : PairCtl → PairCtl) : (s.modPair core pair f).agenda = s.agenda := rfl
@[simp] theorem State.modPair_tick (s : State) (core pair : Nat) (f : PairCtl → PairCtl) : (s.modPair core pair f).tick = s.tick := rfl
@[simp] theorem State.modPair_clock (s : State) (core pair : Nat) (f : PairCtl → PairCtl) : (s.modPair core pair f).clock = s.clock := rfl
@[simp] theorem State.modPair_cur (s : State) (core pair : Nat) (f : PairCtl → PairCtl) : (s.modPair core pair f).cur = s.cur := rfl
@[simp] theorem State.modPair_groups (s : State) (core pair : Nat) (f : PairCtl → PairCtl) : (s.modPair core pair f).groups = s.groups := rfl
@[simp] theorem State.modPair_teams (s : State) (core pair : Nat) (f : PairCtl → PairCtl) : (s.modPair core pair f).teams = s.teams := rfl
@[simp] theorem State.modPair_grids (s : State) (core pair : Nat) (f : PairCtl → PairCtl) : (s.modPair core pair f).grids = s.grids := rfl
@[simp] theorem State.modPair_nextId (s : State) (core pair : Nat) (f : PairCtl → PairCtl) : (s.modPair core pair f).nextId = s.nextId := rfl
@[simp] theorem State.modPair_slots (s : State) (core pair : Nat) (f : PairCtl → PairCtl) : (s.modPair core pair f).slots = s.slots := rfl
@[simp] theorem State.modPair_second (s : State) (core pair : Nat) (f : PairCtl → PairCtl) : (s.modPair core pair f).second = s.second := rfl
@[simp] theorem State.modPair_kennel (s : State) (core pair : Nat) (f : PairCtl → PairCtl) : (s.modPair core pair f).kennel = s.kennel := rfl
@[simp] theorem State.modPair_mire (s : State) (core pair : Nat) (f : PairCtl → PairCtl) : (s.modPair core pair f).mire = s.mire := rfl
@[simp] theorem State.modPair_mireStir (s : State) (core pair : Nat) (f : PairCtl → PairCtl) : (s.modPair core pair f).mireStir = s.mireStir := rfl
@[simp] theorem State.modPair_detectors (s : State) (core pair : Nat) (f : PairCtl → PairCtl) : (s.modPair core pair f).detectors = s.detectors := rfl
@[simp] theorem State.modPair_pairs (s : State) (core pair : Nat) (f : PairCtl → PairCtl) : (s.modPair core pair f).pairs = SMap.put s.pairs (core * 3 + pair) (f (s.pairCtl core pair)) := rfl
@[simp] theorem State.modPair_mem (s : State) (core pair : Nat) (f : PairCtl → PairCtl) : (s.modPair core pair f).mem = s.mem := rfl
@[simp] theorem State.modPair_trans (s : State) (core pair : Nat) (f : PairCtl → PairCtl) : (s.modPair core pair f).trans = s.trans := rfl
@[simp] theorem State.modPair_copies (s : State) (core pair : Nat) (f : PairCtl → PairCtl) : (s.modPair core pair f).copies = s.copies := rfl
@[simp] theorem State.modPair_mesh (s : State) (core pair : Nat) (f : PairCtl → PairCtl) : (s.modPair core pair f).mesh = s.mesh := rfl
@[simp] theorem State.modPair_ctxs (s : State) (core pair : Nat) (f : PairCtl → PairCtl) : (s.modPair core pair f).ctxs = s.ctxs := rfl
@[simp] theorem State.modPair_host (s : State) (core pair : Nat) (f : PairCtl → PairCtl) : (s.modPair core pair f).host = s.host := rfl
@[simp] theorem State.modPair_svc (s : State) (core pair : Nat) (f : PairCtl → PairCtl) : (s.modPair core pair f).svc = s.svc := rfl
@[simp] theorem State.modPair_pwr (s : State) (core pair : Nat) (f : PairCtl → PairCtl) : (s.modPair core pair f).pwr = s.pwr := rfl
@[simp] theorem State.modPair_snap (s : State) (core pair : Nat) (f : PairCtl → PairCtl) : (s.modPair core pair f).snap = s.snap := rfl
@[simp] theorem State.modPair_stream (s : State) (core pair : Nat) (f : PairCtl → PairCtl) : (s.modPair core pair f).stream = s.stream := rfl
@[simp] theorem State.modPair_decodes (s : State) (core pair : Nat) (f : PairCtl → PairCtl) : (s.modPair core pair f).decodes = s.decodes := rfl
@[simp] theorem State.modPair_texels (s : State) (core pair : Nat) (f : PairCtl → PairCtl) : (s.modPair core pair f).texels = s.texels := rfl
@[simp] theorem State.modPair_targets (s : State) (core pair : Nat) (f : PairCtl → PairCtl) : (s.modPair core pair f).targets = s.targets := rfl
@[simp] theorem State.modPair_hwaits (s : State) (core pair : Nat) (f : PairCtl → PairCtl) : (s.modPair core pair f).hwaits = s.hwaits := rfl

@[simp] theorem State.tock_agenda (s : State)  : (s.tock).agenda = s.agenda := rfl
@[simp] theorem State.tock_tick (s : State)  : (s.tock).tick = s.tick + 1 := rfl
@[simp] theorem State.tock_clock (s : State)  : (s.tock).clock = s.clock + (1 + Config.freeTicks s.tick) := rfl
@[simp] theorem State.tock_cur (s : State)  : (s.tock).cur = s.cur := rfl
@[simp] theorem State.tock_teams (s : State)  : (s.tock).teams = s.teams := rfl
@[simp] theorem State.tock_grids (s : State)  : (s.tock).grids = s.charge (1 + Config.freeTicks s.tick) := rfl
@[simp] theorem State.tock_nextId (s : State)  : (s.tock).nextId = s.nextId := rfl
@[simp] theorem State.tock_slots (s : State)  : (s.tock).slots = s.slots := rfl
@[simp] theorem State.tock_second (s : State)  : (s.tock).second = none := rfl
@[simp] theorem State.tock_kennel (s : State)  : (s.tock).kennel = s.kennel := rfl
@[simp] theorem State.tock_mire (s : State)  : (s.tock).mire = s.mire := rfl
@[simp] theorem State.tock_mireStir (s : State)  : (s.tock).mireStir = s.mireStir := rfl
@[simp] theorem State.tock_detectors (s : State)  : (s.tock).detectors = s.observe.detectors := rfl
@[simp] theorem State.tock_pairs (s : State)  : (s.tock).pairs = s.pairs := rfl
@[simp] theorem State.tock_mem (s : State)  : (s.tock).mem = { s.mem with slcD := false } := rfl
@[simp] theorem State.tock_trans (s : State)  : (s.tock).trans = s.trans := rfl
@[simp] theorem State.tock_copies (s : State)  : (s.tock).copies = s.copies := rfl
@[simp] theorem State.tock_mesh (s : State)  : (s.tock).mesh = s.mesh := rfl
@[simp] theorem State.tock_ctxs (s : State)  : (s.tock).ctxs = s.ctxs := rfl
@[simp] theorem State.tock_host (s : State)  : (s.tock).host = s.bringStep.host := rfl
@[simp] theorem State.tock_svc (s : State)  : (s.tock).svc = s.bringStep.svc := rfl
@[simp] theorem State.tock_pwr (s : State)  : (s.tock).pwr = s.bringStep.pwr := rfl
@[simp] theorem State.tock_snap (s : State)  : (s.tock).snap = s.snap := rfl
@[simp] theorem State.tock_stream (s : State)  : (s.tock).stream = s.stream := rfl
@[simp] theorem State.tock_decodes (s : State)  : (s.tock).decodes = s.decodes := rfl
@[simp] theorem State.tock_texels (s : State)  : (s.tock).texels = s.texels := rfl
@[simp] theorem State.tock_targets (s : State)  : (s.tock).targets = s.targets := rfl
@[simp] theorem State.tock_hwaits (s : State)  : (s.tock).hwaits = s.hwaits := rfl

@[simp] theorem State.violate_agenda (s : State)  : (s.violate).agenda = s.agenda := rfl
@[simp] theorem State.violate_tick (s : State)  : (s.violate).tick = s.tick := rfl
@[simp] theorem State.violate_clock (s : State)  : (s.violate).clock = s.clock := rfl
@[simp] theorem State.violate_cur (s : State)  : (s.violate).cur = s.cur := rfl
@[simp] theorem State.violate_groups (s : State)  : (s.violate).groups = s.groups := rfl
@[simp] theorem State.violate_teams (s : State)  : (s.violate).teams = s.teams := rfl
@[simp] theorem State.violate_grids (s : State)  : (s.violate).grids = s.grids := rfl
@[simp] theorem State.violate_nextId (s : State)  : (s.violate).nextId = s.nextId := rfl
@[simp] theorem State.violate_slots (s : State)  : (s.violate).slots = s.slots := rfl
@[simp] theorem State.violate_second (s : State)  : (s.violate).second = s.second := rfl
@[simp] theorem State.violate_kennel (s : State)  : (s.violate).kennel = s.kennel := rfl
@[simp] theorem State.violate_mire (s : State)  : (s.violate).mire = s.mire := rfl
@[simp] theorem State.violate_mireStir (s : State)  : (s.violate).mireStir = s.mireStir := rfl
@[simp] theorem State.violate_detectors (s : State)  : (s.violate).detectors = s.detectors := rfl
@[simp] theorem State.violate_pairs (s : State)  : (s.violate).pairs = s.pairs := rfl
@[simp] theorem State.violate_mem (s : State)  : (s.violate).mem = s.mem := rfl
@[simp] theorem State.violate_trans (s : State)  : (s.violate).trans = s.trans := rfl
@[simp] theorem State.violate_copies (s : State)  : (s.violate).copies = s.copies := rfl
@[simp] theorem State.violate_mesh (s : State)  : (s.violate).mesh = s.mesh := rfl
@[simp] theorem State.violate_ctxs (s : State)  : (s.violate).ctxs = s.ctxs := rfl
@[simp] theorem State.violate_host (s : State)  : (s.violate).host = s.host := rfl
@[simp] theorem State.violate_pwr (s : State)  : (s.violate).pwr = s.pwr := rfl
@[simp] theorem State.violate_snap (s : State)  : (s.violate).snap = s.snap := rfl
@[simp] theorem State.violate_stream (s : State)  : (s.violate).stream = s.stream := rfl
@[simp] theorem State.violate_decodes (s : State)  : (s.violate).decodes = s.decodes := rfl
@[simp] theorem State.violate_texels (s : State)  : (s.violate).texels = s.texels := rfl
@[simp] theorem State.violate_targets (s : State)  : (s.violate).targets = s.targets := rfl
@[simp] theorem State.violate_hwaits (s : State)  : (s.violate).hwaits = s.hwaits := rfl

@[simp] theorem Regs.setV_v (r : Regs) (lane n : Nat) (w : Word) : (r.setV lane n w).v = SMap.put r.v (lane * 64 + n) w := rfl
@[simp] theorem Regs.setV_s (r : Regs) (lane n : Nat) (w : Word) : (r.setV lane n w).s = r.s := rfl
@[simp] theorem Regs.setV_p (r : Regs) (lane n : Nat) (w : Word) : (r.setV lane n w).p = r.p := rfl
@[simp] theorem Regs.setV_h (r : Regs) (lane n : Nat) (w : Word) : (r.setV lane n w).h = r.h := rfl
@[simp] theorem Regs.setV_claims (r : Regs) (lane n : Nat) (w : Word) : (r.setV lane n w).claims = r.claims := rfl
@[simp] theorem Regs.setV_cwBank (r : Regs) (lane n : Nat) (w : Word) : (r.setV lane n w).cwBank = r.cwBank := rfl
@[simp] theorem Regs.setV_cwIdx (r : Regs) (lane n : Nat) (w : Word) : (r.setV lane n w).cwIdx = r.cwIdx := rfl
@[simp] theorem Regs.setV_fstat (r : Regs) (lane n : Nat) (w : Word) : (r.setV lane n w).fstat = r.fstat := rfl

@[simp] theorem Regs.setS_v (r : Regs) (n : Nat) (w : Word) : (r.setS n w).v = r.v := rfl
@[simp] theorem Regs.setS_s (r : Regs) (n : Nat) (w : Word) : (r.setS n w).s = SMap.put r.s n w := rfl
@[simp] theorem Regs.setS_p (r : Regs) (n : Nat) (w : Word) : (r.setS n w).p = r.p := rfl
@[simp] theorem Regs.setS_h (r : Regs) (n : Nat) (w : Word) : (r.setS n w).h = r.h := rfl
@[simp] theorem Regs.setS_claims (r : Regs) (n : Nat) (w : Word) : (r.setS n w).claims = r.claims := rfl
@[simp] theorem Regs.setS_cwBank (r : Regs) (n : Nat) (w : Word) : (r.setS n w).cwBank = r.cwBank := rfl
@[simp] theorem Regs.setS_cwIdx (r : Regs) (n : Nat) (w : Word) : (r.setS n w).cwIdx = r.cwIdx := rfl
@[simp] theorem Regs.setS_fstat (r : Regs) (n : Nat) (w : Word) : (r.setS n w).fstat = r.fstat := rfl

@[simp] theorem Regs.setH_v (r : Regs) (n : Nat) (h : DWord) : (r.setH n h).v = r.v := rfl
@[simp] theorem Regs.setH_s (r : Regs) (n : Nat) (h : DWord) : (r.setH n h).s = r.s := rfl
@[simp] theorem Regs.setH_p (r : Regs) (n : Nat) (h : DWord) : (r.setH n h).p = r.p := rfl
@[simp] theorem Regs.setH_h (r : Regs) (n : Nat) (h : DWord) : (r.setH n h).h = SMap.put r.h n h := rfl
@[simp] theorem Regs.setH_claims (r : Regs) (n : Nat) (h : DWord) : (r.setH n h).claims = r.claims := rfl
@[simp] theorem Regs.setH_cwBank (r : Regs) (n : Nat) (h : DWord) : (r.setH n h).cwBank = r.cwBank := rfl
@[simp] theorem Regs.setH_cwIdx (r : Regs) (n : Nat) (h : DWord) : (r.setH n h).cwIdx = r.cwIdx := rfl
@[simp] theorem Regs.setH_fstat (r : Regs) (n : Nat) (h : DWord) : (r.setH n h).fstat = r.fstat := rfl

@[simp] theorem Regs.setClaim_v (r : Regs) (n : Nat) (m : Lanes) (h : DWord) : (r.setClaim n m h).v = r.v := rfl
@[simp] theorem Regs.setClaim_s (r : Regs) (n : Nat) (m : Lanes) (h : DWord) : (r.setClaim n m h).s = r.s := rfl
@[simp] theorem Regs.setClaim_p (r : Regs) (n : Nat) (m : Lanes) (h : DWord) : (r.setClaim n m h).p = r.p := rfl
@[simp] theorem Regs.setClaim_h (r : Regs) (n : Nat) (m : Lanes) (h : DWord) : (r.setClaim n m h).h = r.h := rfl
@[simp] theorem Regs.setClaim_claims (r : Regs) (n : Nat) (m : Lanes) (h : DWord) : (r.setClaim n m h).claims = SMap.put r.claims n (m, h) := rfl
@[simp] theorem Regs.setClaim_cwBank (r : Regs) (n : Nat) (m : Lanes) (h : DWord) : (r.setClaim n m h).cwBank = r.cwBank := rfl
@[simp] theorem Regs.setClaim_cwIdx (r : Regs) (n : Nat) (m : Lanes) (h : DWord) : (r.setClaim n m h).cwIdx = r.cwIdx := rfl
@[simp] theorem Regs.setClaim_fstat (r : Regs) (n : Nat) (m : Lanes) (h : DWord) : (r.setClaim n m h).fstat = r.fstat := rfl

@[simp] theorem Regs.raiseStat_v (r : Regs) (f : Stat) : (r.raiseStat f).v = r.v := rfl
@[simp] theorem Regs.raiseStat_s (r : Regs) (f : Stat) : (r.raiseStat f).s = r.s := rfl
@[simp] theorem Regs.raiseStat_p (r : Regs) (f : Stat) : (r.raiseStat f).p = r.p := rfl
@[simp] theorem Regs.raiseStat_h (r : Regs) (f : Stat) : (r.raiseStat f).h = r.h := rfl
@[simp] theorem Regs.raiseStat_claims (r : Regs) (f : Stat) : (r.raiseStat f).claims = r.claims := rfl
@[simp] theorem Regs.raiseStat_cwBank (r : Regs) (f : Stat) : (r.raiseStat f).cwBank = r.cwBank := rfl
@[simp] theorem Regs.raiseStat_cwIdx (r : Regs) (f : Stat) : (r.raiseStat f).cwIdx = r.cwIdx := rfl
@[simp] theorem Regs.raiseStat_fstat (r : Regs) (f : Stat) : (r.raiseStat f).fstat = r.fstat ||| (f &&& 0x3F) := rfl

end Sys2Proof.Machine
end

