-- ==== Sys2Proof/Laws/Registers.lean ====
section
/-! SUPPORT. Reading a register after a write: of one register, and of every thread of the issue set. -/

namespace Sys2Proof.Machine

theorem Regs.getV_setV (r : Regs) (t n l m : Nat) (w : Word) (hn : n < 64) (hm : m < 64) :
    (r.setV l m w).getV t n = if n = m ∧ t = l then w else r.getV t n := by
  unfold Regs.getV
  rw [Regs.setV_v, SMap.getD_put_ite]
  by_cases h : n = m ∧ t = l
  · rw [if_pos (by omega), if_pos h]
  · rw [if_neg (by omega), if_neg h]

@[simp] theorem Regs.getS_setS (r : Regs) (n m : Nat) (w : Word) : (r.setS m w).getS n = if n = m then w else r.getS n := by
  unfold Regs.getS
  rw [Regs.setS_s, SMap.getD_put_ite]

theorem Regs.getV_writeLanes (r : Regs) (d : Nat) (f : Nat → Word) (l : List Nat) (t n : Nat) (hn : n < 64) (hd : d < 64) :
    (r.writeLanes d f l).getV t n = if n = d ∧ t ∈ l then f t else r.getV t n := by
  induction l generalizing r with
  | nil => simp [Regs.writeLanes]
  | cons x xs ih =>
    simp only [Regs.writeLanes]
    rw [ih, Regs.getV_setV _ _ _ _ _ _ hn hd]
    by_cases h1 : n = d
    · by_cases h2 : t ∈ xs
      · simp [h1, h2]
      · by_cases h3 : t = x <;> simp [h1, h2, h3]
    · simp [h1]

theorem Regs.writeLanes_eta (r : Regs) (d : Nat) (f : Nat → Word) (l : List Nat) :
    r.writeLanes d f l = { r with v := (r.writeLanes d f l).v } := by
  induction l generalizing r with
  | nil => rfl
  | cons x xs ih =>
    simp only [Regs.writeLanes]
    exact ih _

theorem Regs.getV_raiseStat (r : Regs) (st : Stat) (t n : Nat) : (r.raiseStat st).getV t n = r.getV t n := rfl

/-- The lanes of an issue set. -/
theorem Lanes.mem_list (m : Lanes) (n t : Nat) : t ∈ m.list n ↔ t < n ∧ m.getLsbD t = true := by
  simp [Lanes.list]

theorem Cur.mem_lanes (c : Cur) (g : Group) (t : Nat) : t ∈ c.lanes g ↔ c.runs g t = true := by
  simp [Cur.lanes, Cur.runs, Lanes.mem_list]

/-- A vector write is a write of vD in the issue set and of nothing else (R102). -/
theorem Regs.writeLanes_onlyV (c : Cur) (g : Group) (d : Nat) (f : Nat → Word) (hd : d < 64) :
    g.regs.onlyV d (c.runs g) f (g.regs.writeLanes d f (c.lanes g)) := by
  refine ⟨fun t n hn => ?_, Regs.writeLanes_eta _ _ _ _⟩
  rw [Regs.getV_writeLanes _ _ _ _ _ _ hn hd]
  simp only [Cur.mem_lanes]

theorem fold_status (f : Nat → Stat) (l : List Nat) (a : Stat) (b : Nat) :
    (l.foldl (fun a t => a ||| f t) a).getLsbD b = (a.getLsbD b || l.any (fun t => (f t).getLsbD b)) := by
  induction l generalizing a with
  | nil => simp
  | cons x xs ih => simp [ih, Bool.or_assoc]

theorem statMask (b : Nat) : (0x3F : BitVec 32).getLsbD b = decide (b < 6) := by
  by_cases h : b < 32
  · have : ∀ b : Fin 32, (0x3F : BitVec 32).getLsbD b.val = decide (b.val < 6) := by decide
    exact this ⟨b, h⟩
  · rw [BitVec.getLsbD_of_ge _ _ (by omega)]
    simp
    omega

/-- A vector write with status is a write of vD and of %fstat, which gains the union (R68). -/
theorem Regs.writeStat_onlyStat (c : Cur) (g : Group) (d : Nat) (f : Nat → Word × Stat) (hd : d < 64) :
    g.regs.onlyStat d (c.runs g) g.width f (g.regs.writeStat d f (c.lanes g)) := by
  refine ⟨fun t n hn => ?_, fun b => ?_, ?_⟩
  · unfold Regs.writeStat
    rw [Regs.getV_raiseStat, Regs.getV_writeLanes _ _ _ _ _ _ hn hd]
    simp only [Cur.mem_lanes]
  · unfold Regs.writeStat
    rw [Regs.raiseStat_fstat, Regs.writeLanes_eta]
    simp only [BitVec.getLsbD_or, BitVec.getLsbD_and, statMask, fold_status]
    congr 1
    have h0 : (0 : Stat).getLsbD b = false := by simp
    rw [h0, Bool.false_or, Bool.and_comm]
    congr 1
    rw [Bool.eq_iff_iff]
    simp only [List.any_eq_true, Cur.mem_lanes, List.mem_range, Bool.and_eq_true]
    constructor
    · rintro ⟨x, h1, h2⟩
      exact ⟨x, by simp [Cur.runs] at h1; exact h1.1, h1, h2⟩
    · rintro ⟨x, -, h1, h2⟩
      exact ⟨x, h1, h2⟩
  · unfold Regs.writeStat
    rw [Regs.writeLanes_eta]
    rfl

theorem Regs.getP_setP (r : Regs) (n d : Nat) (m v : Lanes) (t : Nat) :
    ((r.setP d m v).getP n).getLsbD t =
      if n = d ∧ d ≠ 0 ∧ m.getLsbD t = true then v.getLsbD t else (r.getP n).getLsbD t := by
  by_cases h0 : d = 0
  · simp [Regs.setP, h0]
  · by_cases hn : n = d
    · subst hn
      simp only [Regs.setP, h0, if_false]
      simp only [Regs.getP, h0, if_false, SMap.getD_put]
      by_cases ht : t < 64
      · simp only [BitVec.getLsbD_or, BitVec.getLsbD_and, BitVec.getLsbD_not, ht]
        cases hm : m.getLsbD t <;> simp [h0]
      · simp [BitVec.getLsbD_of_ge _ _ (Nat.le_of_not_lt ht)]
    · simp only [Regs.setP, h0, if_false]
      simp only [Regs.getP]
      rw [SMap.getD_put_ne _ _ _ hn]
      simp [hn]

theorem Regs.setP_eta (r : Regs) (d : Nat) (m v : Lanes) : r.setP d m v = { r with p := (r.setP d m v).p } := by
  unfold Regs.setP
  split <;> rfl

end Sys2Proof.Machine
end

