-- ==== Sys2Proof/Laws/Issue.lean ====
section
/-! SUPPORT. What issuing a word comes to: the shapes of `issueWord` and `issueRegs` where the word takes effect
and where it stops, and that `advance` changes nothing but the place of the issuing group. -/

namespace Sys2Proof.Machine

theorem SMap.put_put {α : Type} (m : SMap α) (n : Nat) (v w : α) : SMap.put (SMap.put m n v) n w = SMap.put m n w := by
  induction m with
  | nil => simp [SMap.put]
  | cons e r ih =>
    obtain ⟨k, x⟩ := e
    simp only [SMap.put]
    by_cases h1 : n = k
    · simp [h1, SMap.put]
    · by_cases h2 : n < k
      · simp [h1, h2, SMap.put]
      · simp [h1, h2, SMap.put, ih]

/-- A word whose effect is defined passes to the state that its effect gives. -/
theorem issueWord_ok {s : State} {c : Cur} {g : Group} {f : Effect} {t : State} {go : Lanes} (h : s.issuing c g)
    (hf : f c g s = .ok (t, go)) : issueWord s f = .next (t.advance c go) := by
  simp only [issueWord, h.1, h.2, hf]

/-- A word that stops leaves the state in which it stops. -/
theorem issueWord_error {s : State} {c : Cur} {g : Group} {f : Effect} {e : Stop} (h : s.issuing c g)
    (hf : f c g s = .error e) : issueWord s f = .next (s.stopAt c e) := by
  simp only [issueWord, h.1, h.2, hf]

theorem issuePark_ok {s : State} {c : Cur} {g : Group} {f : Effect} {t : State} {go : Lanes} (h : s.issuing c g)
    (hf : f c g s = .ok (t, go)) : issuePark s f = .next (((t.advance c go).complete g.team).checkWaits c.gid) := by
  simp only [issuePark, h.1, h.2, hf]

theorem issueRegs_ok {s : State} {c : Cur} {g : Group} {f : Cur → Group → State → Except Stop Regs} {r : Regs}
    (h : s.issuing c g) (hf : f c g s = .ok r) :
    issueRegs s f = .next ((s.setGroup c.gid { g with regs := r }).advance c c.map) := by
  unfold issueRegs
  apply issueWord_ok h
  simp only [hf]

theorem issueRegs_error {s : State} {c : Cur} {g : Group} {f : Cur → Group → State → Except Stop Regs} {e : Stop}
    (h : s.issuing c g) (hf : f c g s = .error e) : issueRegs s f = .next (s.stopAt c e) := by
  unfold issueRegs
  apply issueWord_error h
  simp only [hf]

/-- Every word issue answers a next state. -/
theorem issueWord_next (s : State) (f : Effect) : ∃ t, issueWord s f = .next t := by
  unfold issueWord
  split
  · exact ⟨_, rfl⟩
  · split
    · exact ⟨_, rfl⟩
    · split <;> exact ⟨_, rfl⟩

theorem issuePark_next (s : State) (f : Effect) : ∃ t, issuePark s f = .next t := by
  unfold issuePark
  split
  · exact ⟨_, rfl⟩
  · split
    · exact ⟨_, rfl⟩
    · split <;> exact ⟨_, rfl⟩

/-- Threads that enter the BBT change nothing else of their group. -/
theorem Group.enter_eta (g : Group) (m : Lanes) (pc slot : Nat) : g.enter m pc slot = { g with bbt := (g.enter m pc slot).bbt } := by
  unfold Group.enter
  split <;> rfl

/-- Going on changes a group's block and entries only. -/
theorem Group.goOn_eta (g : Group) (c : Cur) (go : Lanes) :
    g.goOn c go = { g with bbt := (g.goOn c go).bbt, blk := (g.goOn c go).blk } := by
  unfold Group.goOn
  dsimp only
  split
  · rfl
  · split
    · rfl
    · split
      · rw [Group.enter_eta]
      · rfl

/-- What `advance` changes: the place of the issuing group, and the counters of words issued. -/
theorem State.advance_passed {u : State} {c : Cur} {g : Group} {r : Regs} {go : Lanes}
    (h : SMap.find u.groups c.gid = some { g with regs := r }) : u.passed c g r (u.advance c go) := by
  unfold State.advance
  rw [h]
  refine ⟨_, _, ?_, rfl⟩
  unfold Group.stepped
  rw [Group.goOn_eta]
  simp only [TrapRegs.count]

/-- A state that differs from u in the issuing group alone passes as u does. -/
theorem State.passed_setGroup {u : State} {c : Cur} {g g' : Group} {r : Regs} {t : State}
    (h : (u.setGroup c.gid g').passed c g r t) : u.passed c g r t := by
  obtain ⟨x, k, h1, h2⟩ := h
  refine ⟨x, k, h1, ?_⟩
  rw [h2]
  simp [State.setGroup, SMap.put_put]

/-- A word that changes only registers passes with those registers. -/
theorem issueRegs_passed {s : State} {c : Cur} {g : Group} {f : Cur → Group → State → Except Stop Regs} {r : Regs}
    (h : s.issuing c g) (hf : f c g s = .ok r) : ∃ t, issueRegs s f = .next t ∧ s.passed c g r t :=
  ⟨_, issueRegs_ok h hf, State.passed_setGroup (State.advance_passed (by simp))⟩

end Sys2Proof.Machine
end

