-- ==== Sys2Proof/Laws/PerInstr.lean ====
section
/-! SUPPORT. Per-instruction facts: `Statement` of the family RoundTrip, that decoding an encoded word with its
fields in their widths gives the instruction back, one lemma per constructor. -/

namespace Sys2Proof.Laws

theorem encodeSrc_lt {a : Src} (h : a.ok = true) : encodeSrc a < 256 := by
  cases a <;> simp only [Src.ok, decide_eq_true_eq] at h <;> simp only [encodeSrc] <;> omega

theorem decodeSrc_of {a : Src} {x : Nat} (h : a.ok = true) (hx : x = encodeSrc a) : decodeSrc x = a := by
  subst hx
  cases a with
  | v n =>
    simp only [Src.ok, decide_eq_true_eq] at h
    have g : decodeSrc n = .v n := by
      unfold decodeSrc
      rw [if_pos h]
    exact g
  | s n =>
    simp only [Src.ok, decide_eq_true_eq] at h
    have g : decodeSrc (64 + n) = .s n := by
      unfold decodeSrc
      rw [if_neg (by omega), if_pos (by omega), Nat.add_sub_cancel_left]
    exact g
  | c n =>
    simp only [Src.ok, decide_eq_true_eq] at h
    have g : decodeSrc (128 + n) = .c n := by
      unfold decodeSrc
      rw [if_neg (by omega), if_neg (by omega), if_pos (by omega), Nat.add_sub_cancel_left]
    exact g
  | lit n =>
    simp only [Src.ok, decide_eq_true_eq] at h
    have g : decodeSrc (192 + n) = .lit n := by
      unfold decodeSrc
      rw [if_neg (by omega), if_neg (by omega), if_neg (by omega), Nat.add_sub_cancel_left]
    exact g

theorem flagNat_lt (b : Bool) : flagNat b < 2 := by cases b <;> decide

theorem flagBit_of {b : Bool} {w i : Nat} (h : bits w i i = flagNat b) : flagBit w i = b := by
  unfold flagBit
  rw [h]
  cases b <;> rfl

/-! ## Decoding by operation code -/

theorem decode_00 {w : Nat} (e : bits w 30 24 = 0x00) : decode w =
    if bits w 23 0 = 0 then
      some .nop
    else none := by
  unfold decode decodeControl
  rw [e]
  rfl

theorem decode_01 {w : Nat} (e : bits w 30 24 = 0x01) : decode w =
    some (.bra (bits w 23 21) (flagBit w 20) (bits w 19 0)) := by
  unfold decode decodeControl
  rw [e]
  rfl

theorem decode_02 {w : Nat} (e : bits w 30 24 = 0x02) : decode w =
    some (.brc (bits w 23 21) (flagBit w 20) (bits w 19 0)) := by
  unfold decode decodeControl
  rw [e]
  rfl

theorem decode_03 {w : Nat} (e : bits w 30 24 = 0x03) : decode w =
    some (.call (bits w 23 21) (flagBit w 20) (bits w 19 0)) := by
  unfold decode decodeControl
  rw [e]
  rfl

theorem decode_04 {w : Nat} (e : bits w 30 24 = 0x04) : decode w =
    if bits w 8 0 = 0 ∧ bits w 23 17 = 0 then
      some (.ret (decodeSrc (bits w 16 9)))
    else none := by
  unfold decode decodeControl
  rw [e]
  rfl

theorem decode_05 {w : Nat} (e : bits w 30 24 = 0x05) : decode w =
    if bits w 0 0 = 0 ∧ bits w 23 17 = 0 then
      some (.jmpx (decodeSrc (bits w 16 9)) (decodeSrc (bits w 8 1)))
    else none := by
  unfold decode decodeControl
  rw [e]
  rfl

theorem decode_06 {w : Nat} (e : bits w 30 24 = 0x06) : decode w =
    if bits w 23 0 = 0 then
      some .exit
    else none := by
  unfold decode decodeControl
  rw [e]
  rfl

theorem decode_07 {w : Nat} (e : bits w 30 24 = 0x07) : decode w =
    if bits w 23 0 = 0 then
      some .converge
    else none := by
  unfold decode decodeControl
  rw [e]
  rfl

theorem decode_08 {w : Nat} (e : bits w 30 24 = 0x08) : decode w =
    if bits w 23 0 = 0 then
      some .yield
    else none := by
  unfold decode decodeControl
  rw [e]
  rfl

theorem decode_09 {w : Nat} (e : bits w 30 24 = 0x09) : decode w =
    if bits w 23 0 = 0 then
      some .safept
    else none := by
  unfold decode decodeControl
  rw [e]
  rfl

theorem decode_0A {w : Nat} (e : bits w 30 24 = 0x0A) : decode w =
    if bits w 23 0 = 0 then
      some .trigger
    else none := by
  unfold decode decodeControl
  rw [e]
  rfl

theorem decode_0B {w : Nat} (e : bits w 30 24 = 0x0B) : decode w =
    if bits w 23 12 = 0 then
      some (.trap (bits w 11 0))
    else none := by
  unfold decode decodeControl
  rw [e]
  rfl

theorem decode_0C {w : Nat} (e : bits w 30 24 = 0x0C) : decode w =
    if bits w 11 0 = 0 ∧ bits w 17 15 = 0 ∧ bits w 23 21 = 0 then
      some (.voteAny (bits w 20 18) (bits w 14 12))
    else if bits w 11 0 = 1 ∧ bits w 17 15 = 0 ∧ bits w 23 21 = 0 then
      some (.voteAll (bits w 20 18) (bits w 14 12))
    else if bits w 11 0 = 3 ∧ bits w 17 15 = 0 ∧ bits w 23 21 = 0 then
      some (.voteEq (bits w 20 18) (bits w 14 12))
    else if bits w 11 0 = 2 ∧ bits w 17 15 = 0 then
      some (.voteBallot (bits w 23 18) (bits w 14 12))
    else if bits w 5 0 = 8 then
      some (.shflIdx (bits w 23 18) (bits w 17 12) (bits w 11 6))
    else if bits w 5 0 = 9 then
      some (.shflUp (bits w 23 18) (bits w 17 12) (bits w 11 6))
    else if bits w 5 0 = 0xa then
      some (.shflDown (bits w 23 18) (bits w 17 12) (bits w 11 6))
    else if bits w 5 0 = 0xb then
      some (.shflXor (bits w 23 18) (bits w 17 12) (bits w 11 6))
    else none := by
  unfold decode decodeControl
  rw [e]
  rfl

theorem decode_0D {w : Nat} (e : bits w 30 24 = 0x0D) : decode w =
    if bits w 11 4 = 0 then
      some (.redg (bits w 23 18) (bits w 17 12) (bits w 3 0))
    else if bits w 11 4 = 4 then
      some (.redgScalar (bits w 23 18) (bits w 17 12) (bits w 3 0))
    else if bits w 11 4 = 1 then
      some (.scangIncl (bits w 23 18) (bits w 17 12) (bits w 3 0))
    else if bits w 11 4 = 2 then
      some (.scangExcl (bits w 23 18) (bits w 17 12) (bits w 3 0))
    else none := by
  unfold decode decodeControl
  rw [e]
  rfl

theorem decode_0E {w : Nat} (e : bits w 30 24 = 0x0E) : decode w =
    if bits w 23 0 = 0 then
      some .barG
    else if bits w 23 0 = 1 then
      some .barT
    else if bits w 23 0 = 3 then
      some .taskend
    else if bits w 11 0 = 0x802 ∧ bits w 23 22 = 0 then
      some (.cwinReg (bits w 21 18) (bits w 17 12))
    else if bits w 5 0 = 2 ∧ bits w 11 8 = 0 ∧ bits w 23 22 = 0 then
      some (.cwin (bits w 21 18) (bits w 17 12) (bits w 7 6))
    else none := by
  unfold decode decodeControl
  rw [e]
  rfl

theorem decode_0F {w : Nat} (e : bits w 30 24 = 0x0F) : decode w =
    if bits w 17 0 = 3 then
      some (.rget (bits w 23 18))
    else if bits w 11 0 = 2 then
      some (.rcommit (bits w 23 18) (bits w 17 12))
    else if bits w 11 0 = 0x43 then
      some (.rgetCount (bits w 23 18) (bits w 17 12))
    else if bits w 5 0 = 0 ∧ bits w 11 9 = 0 then
      some (.spawn (bits w 23 18) (bits w 17 12) (bits w 8 6))
    else if bits w 5 0 = 1 then
      some (.rsv (bits w 23 18) (bits w 17 12) (bits w 11 6))
    else none := by
  unfold decode decodeControl
  rw [e]
  rfl

theorem decode_10 {w : Nat} (e : bits w 30 24 = 0x10) : decode w =
    if bits w 17 17 = 0 then
      some (.iadd (bits w 23 18) (decodeSrc (bits w 16 9)) (decodeSrc (bits w 8 1)) (flagBit w 0))
    else none := by
  unfold decode decodeInteger
  rw [e]
  rfl

theorem decode_11 {w : Nat} (e : bits w 30 24 = 0x11) : decode w =
    if bits w 17 17 = 0 then
      some (.isub (bits w 23 18) (decodeSrc (bits w 16 9)) (decodeSrc (bits w 8 1)) (flagBit w 0))
    else none := by
  unfold decode decodeInteger
  rw [e]
  rfl

theorem decode_12 {w : Nat} (e : bits w 30 24 = 0x12) : decode w =
    if bits w 0 0 = 0 ∧ bits w 17 17 = 0 then
      some (.imul (bits w 23 18) (decodeSrc (bits w 16 9)) (decodeSrc (bits w 8 1)))
    else none := by
  unfold decode decodeInteger
  rw [e]
  rfl

theorem decode_13 {w : Nat} (e : bits w 30 24 = 0x13) : decode w =
    if bits w 17 17 = 0 then
      some (.imulh (bits w 23 18) (decodeSrc (bits w 16 9)) (decodeSrc (bits w 8 1)) (flagBit w 0))
    else none := by
  unfold decode decodeInteger
  rw [e]
  rfl

theorem decode_14 {w : Nat} (e : bits w 30 24 = 0x14) : decode w =
    if bits w 0 0 = 0 ∧ bits w 17 17 = 0 then
      some (.imad (bits w 23 18) (decodeSrc (bits w 16 9)) (decodeSrc (bits w 8 1)))
    else none := by
  unfold decode decodeInteger
  rw [e]
  rfl

theorem decode_15 {w : Nat} (e : bits w 30 24 = 0x15) : decode w =
    if bits w 0 0 = 0 ∧ bits w 17 17 = 0 then
      some (.iadd64 (bits w 23 18) (decodeSrc (bits w 16 9)) (decodeSrc (bits w 8 1)))
    else none := by
  unfold decode decodeInteger
  rw [e]
  rfl

theorem decode_16 {w : Nat} (e : bits w 30 24 = 0x16) : decode w =
    if bits w 17 17 = 0 then
      some (.imin (bits w 23 18) (decodeSrc (bits w 16 9)) (decodeSrc (bits w 8 1)) (flagBit w 0))
    else none := by
  unfold decode decodeInteger
  rw [e]
  rfl

theorem decode_17 {w : Nat} (e : bits w 30 24 = 0x17) : decode w =
    if bits w 17 17 = 0 then
      some (.imax (bits w 23 18) (decodeSrc (bits w 16 9)) (decodeSrc (bits w 8 1)) (flagBit w 0))
    else none := by
  unfold decode decodeInteger
  rw [e]
  rfl

theorem decode_18 {w : Nat} (e : bits w 30 24 = 0x18) : decode w =
    if bits w 8 0 = 0 ∧ bits w 17 17 = 0 then
      some (.iabs (bits w 23 18) (decodeSrc (bits w 16 9)))
    else none := by
  unfold decode decodeInteger
  rw [e]
  rfl

theorem decode_19 {w : Nat} (e : bits w 30 24 = 0x19) : decode w =
    if bits w 0 0 = 0 ∧ bits w 17 17 = 0 then
      some (.shl (bits w 23 18) (decodeSrc (bits w 16 9)) (decodeSrc (bits w 8 1)))
    else none := by
  unfold decode decodeInteger
  rw [e]
  rfl

theorem decode_1A {w : Nat} (e : bits w 30 24 = 0x1A) : decode w =
    if bits w 0 0 = 0 ∧ bits w 17 17 = 0 then
      some (.shr (bits w 23 18) (decodeSrc (bits w 16 9)) (decodeSrc (bits w 8 1)))
    else none := by
  unfold decode decodeInteger
  rw [e]
  rfl

theorem decode_1B {w : Nat} (e : bits w 30 24 = 0x1B) : decode w =
    if bits w 0 0 = 0 ∧ bits w 17 17 = 0 then
      some (.sar (bits w 23 18) (decodeSrc (bits w 16 9)) (decodeSrc (bits w 8 1)))
    else none := by
  unfold decode decodeInteger
  rw [e]
  rfl

theorem decode_1C {w : Nat} (e : bits w 30 24 = 0x1C) : decode w =
    if bits w 17 17 = 0 then
      some (.rot (bits w 23 18) (decodeSrc (bits w 16 9)) (decodeSrc (bits w 8 1)) (flagBit w 0))
    else none := by
  unfold decode decodeInteger
  rw [e]
  rfl

theorem decode_1D {w : Nat} (e : bits w 30 24 = 0x1D) : decode w =
    if bits w 0 0 = 0 ∧ bits w 17 17 = 0 then
      some (.iand (bits w 23 18) (decodeSrc (bits w 16 9)) (decodeSrc (bits w 8 1)))
    else none := by
  unfold decode decodeInteger
  rw [e]
  rfl

theorem decode_1E {w : Nat} (e : bits w 30 24 = 0x1E) : decode w =
    if bits w 0 0 = 0 ∧ bits w 17 17 = 0 then
      some (.ior (bits w 23 18) (decodeSrc (bits w 16 9)) (decodeSrc (bits w 8 1)))
    else none := by
  unfold decode decodeInteger
  rw [e]
  rfl

theorem decode_1F {w : Nat} (e : bits w 30 24 = 0x1F) : decode w =
    if bits w 0 0 = 0 ∧ bits w 17 17 = 0 then
      some (.ixor (bits w 23 18) (decodeSrc (bits w 16 9)) (decodeSrc (bits w 8 1)))
    else none := by
  unfold decode decodeInteger
  rw [e]
  rfl

theorem decode_20 {w : Nat} (e : bits w 30 24 = 0x20) : decode w =
    if bits w 8 0 = 0 ∧ bits w 17 17 = 0 then
      some (.inot (bits w 23 18) (decodeSrc (bits w 16 9)))
    else none := by
  unfold decode decodeInteger
  rw [e]
  rfl

theorem decode_21 {w : Nat} (e : bits w 30 24 = 0x21) : decode w =
    if bits w 17 17 = 0 then
      some (.bfe (bits w 23 18) (decodeSrc (bits w 16 9)) (decodeSrc (bits w 8 1)) (flagBit w 0))
    else none := by
  unfold decode decodeInteger
  rw [e]
  rfl

theorem decode_22 {w : Nat} (e : bits w 30 24 = 0x22) : decode w =
    if bits w 0 0 = 0 ∧ bits w 17 17 = 0 then
      some (.bfi (bits w 23 18) (decodeSrc (bits w 16 9)) (decodeSrc (bits w 8 1)))
    else none := by
  unfold decode decodeInteger
  rw [e]
  rfl

theorem decode_23 {w : Nat} (e : bits w 30 24 = 0x23) : decode w =
    if bits w 8 0 = 0 ∧ bits w 17 17 = 0 then
      some (.popc (bits w 23 18) (decodeSrc (bits w 16 9)))
    else none := by
  unfold decode decodeInteger
  rw [e]
  rfl

theorem decode_24 {w : Nat} (e : bits w 30 24 = 0x24) : decode w =
    if bits w 8 0 = 0 ∧ bits w 17 17 = 0 then
      some (.clz (bits w 23 18) (decodeSrc (bits w 16 9)))
    else none := by
  unfold decode decodeInteger
  rw [e]
  rfl

theorem decode_25 {w : Nat} (e : bits w 30 24 = 0x25) : decode w =
    if bits w 8 0 = 0 ∧ bits w 17 17 = 0 then
      some (.brev (bits w 23 18) (decodeSrc (bits w 16 9)))
    else none := by
  unfold decode decodeInteger
  rw [e]
  rfl

theorem decode_26 {w : Nat} (e : bits w 30 24 = 0x26) : decode w =
    if bits w 0 0 = 0 ∧ bits w 17 17 = 0 then
      some (.lea (bits w 23 18) (decodeSrc (bits w 16 9)) (decodeSrc (bits w 8 1)))
    else none := by
  unfold decode decodeInteger
  rw [e]
  rfl

theorem decode_27 {w : Nat} (e : bits w 30 24 = 0x27) : decode w =
    if bits w 17 17 = 0 then
      some (.icmp (bits w 23 21) (bits w 20 18) (decodeSrc (bits w 16 9)) (decodeSrc (bits w 8 1)) (flagBit w 0))
    else none := by
  unfold decode decodeInteger
  rw [e]
  rfl

theorem decode_28 {w : Nat} (e : bits w 30 24 = 0x28) : decode w =
    some (.isel (bits w 23 18) (bits w 17 15) (decodeSrc (bits w 14 7)) (bits w 6 1) (flagBit w 0)) := by
  unfold decode decodeInteger
  rw [e]
  rfl

theorem decode_29 {w : Nat} (e : bits w 30 24 = 0x29) : decode w =
    if bits w 17 17 = 0 then
      some (.idot4 (bits w 23 18) (decodeSrc (bits w 16 9)) (decodeSrc (bits w 8 1)) (flagBit w 0))
    else none := by
  unfold decode decodeInteger
  rw [e]
  rfl

theorem decode_2A {w : Nat} (e : bits w 30 24 = 0x2A) : decode w =
    if bits w 5 2 = 0 ∧ bits w 11 9 = 0 ∧ bits w 17 15 = 0 ∧ bits w 23 21 = 0 then
      some (.pand (bits w 20 18) (bits w 14 12) (bits w 8 6) (bits w 1 0))
    else none := by
  unfold decode decodeInteger
  rw [e]
  rfl

theorem decode_2B {w : Nat} (e : bits w 30 24 = 0x2B) : decode w =
    if bits w 5 2 = 0 ∧ bits w 11 9 = 0 ∧ bits w 17 15 = 0 ∧ bits w 23 21 = 0 then
      some (.por (bits w 20 18) (bits w 14 12) (bits w 8 6) (bits w 1 0))
    else none := by
  unfold decode decodeInteger
  rw [e]
  rfl

theorem decode_2C {w : Nat} (e : bits w 30 24 = 0x2C) : decode w =
    if bits w 11 0 = 0 ∧ bits w 17 15 = 0 ∧ bits w 23 21 = 0 then
      some (.pnot (bits w 20 18) (bits w 14 12))
    else none := by
  unfold decode decodeInteger
  rw [e]
  rfl

theorem decode_30 {w : Nat} (e : bits w 30 24 = 0x30) : decode w =
    if bits w 17 17 = 0 then
      some (.fadd (bits w 23 18) (decodeSrc (bits w 16 9)) (decodeSrc (bits w 8 1)) (flagBit w 0))
    else none := by
  unfold decode decodeFloat
  rw [e]
  rfl

theorem decode_31 {w : Nat} (e : bits w 30 24 = 0x31) : decode w =
    if bits w 17 17 = 0 then
      some (.fsub (bits w 23 18) (decodeSrc (bits w 16 9)) (decodeSrc (bits w 8 1)) (flagBit w 0))
    else none := by
  unfold decode decodeFloat
  rw [e]
  rfl

theorem decode_32 {w : Nat} (e : bits w 30 24 = 0x32) : decode w =
    if bits w 17 17 = 0 then
      some (.fmul (bits w 23 18) (decodeSrc (bits w 16 9)) (decodeSrc (bits w 8 1)) (flagBit w 0))
    else none := by
  unfold decode decodeFloat
  rw [e]
  rfl

theorem decode_33 {w : Nat} (e : bits w 30 24 = 0x33) : decode w =
    if bits w 17 17 = 0 then
      some (.fma (bits w 23 18) (decodeSrc (bits w 16 9)) (decodeSrc (bits w 8 1)) (flagBit w 0))
    else none := by
  unfold decode decodeFloat
  rw [e]
  rfl

theorem decode_34 {w : Nat} (e : bits w 30 24 = 0x34) : decode w =
    if bits w 0 0 = 0 ∧ bits w 17 17 = 0 then
      some (.fmin (bits w 23 18) (decodeSrc (bits w 16 9)) (decodeSrc (bits w 8 1)))
    else none := by
  unfold decode decodeFloat
  rw [e]
  rfl

theorem decode_35 {w : Nat} (e : bits w 30 24 = 0x35) : decode w =
    if bits w 0 0 = 0 ∧ bits w 17 17 = 0 then
      some (.fmax (bits w 23 18) (decodeSrc (bits w 16 9)) (decodeSrc (bits w 8 1)))
    else none := by
  unfold decode decodeFloat
  rw [e]
  rfl

theorem decode_36 {w : Nat} (e : bits w 30 24 = 0x36) : decode w =
    if bits w 0 0 = 0 ∧ bits w 17 17 = 0 then
      some (.fcmp (bits w 23 21) (bits w 20 18) (decodeSrc (bits w 16 9)) (decodeSrc (bits w 8 1)))
    else none := by
  unfold decode decodeFloat
  rw [e]
  rfl

theorem decode_37 {w : Nat} (e : bits w 30 24 = 0x37) : decode w =
    some (.fsel (bits w 23 18) (bits w 17 15) (decodeSrc (bits w 14 7)) (bits w 6 1) (flagBit w 0)) := by
  unfold decode decodeFloat
  rw [e]
  rfl

theorem decode_38 {w : Nat} (e : bits w 30 24 = 0x38) : decode w =
    if bits w 8 0 = 0 ∧ bits w 17 17 = 0 then
      some (.frcp (bits w 23 18) (decodeSrc (bits w 16 9)))
    else none := by
  unfold decode decodeFloat
  rw [e]
  rfl

theorem decode_39 {w : Nat} (e : bits w 30 24 = 0x39) : decode w =
    if bits w 8 0 = 0 ∧ bits w 17 17 = 0 then
      some (.frsq (bits w 23 18) (decodeSrc (bits w 16 9)))
    else none := by
  unfold decode decodeFloat
  rw [e]
  rfl

theorem decode_3A {w : Nat} (e : bits w 30 24 = 0x3A) : decode w =
    if bits w 8 0 = 0 ∧ bits w 17 17 = 0 then
      some (.fsqrt (bits w 23 18) (decodeSrc (bits w 16 9)))
    else none := by
  unfold decode decodeFloat
  rw [e]
  rfl

theorem decode_3B {w : Nat} (e : bits w 30 24 = 0x3B) : decode w =
    if bits w 8 0 = 0 ∧ bits w 17 17 = 0 then
      some (.fexp2 (bits w 23 18) (decodeSrc (bits w 16 9)))
    else none := by
  unfold decode decodeFloat
  rw [e]
  rfl

theorem decode_3C {w : Nat} (e : bits w 30 24 = 0x3C) : decode w =
    if bits w 8 0 = 0 ∧ bits w 17 17 = 0 then
      some (.flog2 (bits w 23 18) (decodeSrc (bits w 16 9)))
    else none := by
  unfold decode decodeFloat
  rw [e]
  rfl

theorem decode_3D {w : Nat} (e : bits w 30 24 = 0x3D) : decode w =
    if bits w 8 0 = 0 ∧ bits w 17 17 = 0 then
      some (.fsin (bits w 23 18) (decodeSrc (bits w 16 9)))
    else none := by
  unfold decode decodeFloat
  rw [e]
  rfl

theorem decode_3E {w : Nat} (e : bits w 30 24 = 0x3E) : decode w =
    if bits w 8 0 = 0 ∧ bits w 17 17 = 0 then
      some (.fcos (bits w 23 18) (decodeSrc (bits w 16 9)))
    else none := by
  unfold decode decodeFloat
  rw [e]
  rfl

theorem decode_3F {w : Nat} (e : bits w 30 24 = 0x3F) : decode w =
    if bits w 8 0 = 0 ∧ bits w 17 17 = 0 then
      some (.ffrc (bits w 23 18) (decodeSrc (bits w 16 9)))
    else none := by
  unfold decode decodeFloat
  rw [e]
  rfl

theorem decode_40 {w : Nat} (e : bits w 30 24 = 0x40) : decode w =
    if bits w 0 0 = 0 ∧ bits w 17 17 = 0 then
      some (.frnd (bits w 23 18) (decodeSrc (bits w 16 9)) (bits w 8 1))
    else none := by
  unfold decode decodeFloat
  rw [e]
  rfl

theorem decode_48 {w : Nat} (e : bits w 30 24 = 0x48) : decode w =
    if bits w 17 17 = 0 then
      some (.hadd2 (bits w 23 18) (decodeSrc (bits w 16 9)) (decodeSrc (bits w 8 1)) (flagBit w 0))
    else none := by
  unfold decode decodeFloat
  rw [e]
  rfl

theorem decode_49 {w : Nat} (e : bits w 30 24 = 0x49) : decode w =
    if bits w 17 17 = 0 then
      some (.hmul2 (bits w 23 18) (decodeSrc (bits w 16 9)) (decodeSrc (bits w 8 1)) (flagBit w 0))
    else none := by
  unfold decode decodeFloat
  rw [e]
  rfl

theorem decode_4A {w : Nat} (e : bits w 30 24 = 0x4A) : decode w =
    if bits w 17 17 = 0 then
      some (.hfma2 (bits w 23 18) (decodeSrc (bits w 16 9)) (decodeSrc (bits w 8 1)) (flagBit w 0))
    else none := by
  unfold decode decodeFloat
  rw [e]
  rfl

theorem decode_4B {w : Nat} (e : bits w 30 24 = 0x4B) : decode w =
    if bits w 17 17 = 0 then
      some (.hmin2 (bits w 23 18) (decodeSrc (bits w 16 9)) (decodeSrc (bits w 8 1)) (flagBit w 0))
    else none := by
  unfold decode decodeFloat
  rw [e]
  rfl

theorem decode_4C {w : Nat} (e : bits w 30 24 = 0x4C) : decode w =
    if bits w 17 17 = 0 then
      some (.hmax2 (bits w 23 18) (decodeSrc (bits w 16 9)) (decodeSrc (bits w 8 1)) (flagBit w 0))
    else none := by
  unfold decode decodeFloat
  rw [e]
  rfl

theorem decode_50 {w : Nat} (e : bits w 30 24 = 0x50) : decode w =
    if bits w 0 0 = 0 ∧ bits w 17 17 = 1 then
      some (.sadd (bits w 23 18) (decodeSrc (bits w 16 9)) (decodeSrc (bits w 8 1)))
    else none := by
  unfold decode decodeScalar
  rw [e]
  rfl

theorem decode_51 {w : Nat} (e : bits w 30 24 = 0x51) : decode w =
    if bits w 0 0 = 0 ∧ bits w 17 17 = 1 then
      some (.ssub (bits w 23 18) (decodeSrc (bits w 16 9)) (decodeSrc (bits w 8 1)))
    else none := by
  unfold decode decodeScalar
  rw [e]
  rfl

theorem decode_52 {w : Nat} (e : bits w 30 24 = 0x52) : decode w =
    if bits w 0 0 = 0 ∧ bits w 17 17 = 1 then
      some (.smul (bits w 23 18) (decodeSrc (bits w 16 9)) (decodeSrc (bits w 8 1)))
    else none := by
  unfold decode decodeScalar
  rw [e]
  rfl

theorem decode_53 {w : Nat} (e : bits w 30 24 = 0x53) : decode w =
    if bits w 0 0 = 0 ∧ bits w 17 17 = 1 then
      some (.sand (bits w 23 18) (decodeSrc (bits w 16 9)) (decodeSrc (bits w 8 1)))
    else none := by
  unfold decode decodeScalar
  rw [e]
  rfl

theorem decode_54 {w : Nat} (e : bits w 30 24 = 0x54) : decode w =
    if bits w 0 0 = 0 ∧ bits w 17 17 = 1 then
      some (.sor (bits w 23 18) (decodeSrc (bits w 16 9)) (decodeSrc (bits w 8 1)))
    else none := by
  unfold decode decodeScalar
  rw [e]
  rfl

theorem decode_55 {w : Nat} (e : bits w 30 24 = 0x55) : decode w =
    if bits w 0 0 = 0 ∧ bits w 17 17 = 1 then
      some (.sxor (bits w 23 18) (decodeSrc (bits w 16 9)) (decodeSrc (bits w 8 1)))
    else none := by
  unfold decode decodeScalar
  rw [e]
  rfl

theorem decode_56 {w : Nat} (e : bits w 30 24 = 0x56) : decode w =
    if bits w 0 0 = 0 ∧ bits w 17 17 = 1 then
      some (.sshl (bits w 23 18) (decodeSrc (bits w 16 9)) (decodeSrc (bits w 8 1)))
    else none := by
  unfold decode decodeScalar
  rw [e]
  rfl

theorem decode_57 {w : Nat} (e : bits w 30 24 = 0x57) : decode w =
    if bits w 17 17 = 1 then
      some (.sshr (bits w 23 18) (decodeSrc (bits w 16 9)) (decodeSrc (bits w 8 1)) (flagBit w 0))
    else none := by
  unfold decode decodeScalar
  rw [e]
  rfl

theorem decode_58 {w : Nat} (e : bits w 30 24 = 0x58) : decode w =
    if bits w 17 17 = 0 then
      some (.scmp (bits w 23 21) (bits w 20 18) (decodeSrc (bits w 16 9)) (decodeSrc (bits w 8 1)) (flagBit w 0))
    else none := by
  unfold decode decodeScalar
  rw [e]
  rfl

theorem decode_59 {w : Nat} (e : bits w 30 24 = 0x59) : decode w =
    if bits w 8 0 = 0 ∧ bits w 17 17 = 1 then
      some (.smov (bits w 23 18) (decodeSrc (bits w 16 9)))
    else none := by
  unfold decode decodeScalar
  rw [e]
  rfl

theorem decode_5A {w : Nat} (e : bits w 30 24 = 0x5A) : decode w =
    some (.sli (bits w 23 17) (bits w 16 0)) := by
  unfold decode decodeScalar
  rw [e]
  rfl

theorem decode_5B {w : Nat} (e : bits w 30 24 = 0x5B) : decode w =
    some (.sbra (bits w 23 17) (bits w 16 0)) := by
  unfold decode decodeScalar
  rw [e]
  rfl

theorem decode_5C {w : Nat} (e : bits w 30 24 = 0x5C) : decode w =
    if bits w 8 6 = 0 then
      some (.cvt (bits w 23 18) (bits w 17 12) (bits w 11 10) (flagBit w 9) (bits w 5 3) (bits w 2 0))
    else none := by
  unfold decode decodeScalar
  rw [e]
  rfl

theorem decode_5D {w : Nat} (e : bits w 30 24 = 0x5D) : decode w =
    if bits w 8 0 = 0 ∧ bits w 17 17 = 0 then
      some (.mov (bits w 23 18) (decodeSrc (bits w 16 9)))
    else none := by
  unfold decode decodeScalar
  rw [e]
  rfl

theorem decode_5E {w : Nat} (e : bits w 30 24 = 0x5E) : decode w =
    if bits w 11 0 = 1 then
      some (.s2v (bits w 23 18) (bits w 17 12))
    else if bits w 5 0 = 0 then
      some (.v2s (bits w 23 18) (bits w 17 12) (bits w 11 6))
    else if bits w 5 0 = 2 then
      some (.movs (bits w 23 18) (bits w 17 6))
    else none := by
  unfold decode decodeScalar
  rw [e]
  rfl

theorem decode_5F {w : Nat} (e : bits w 30 24 = 0x5F) : decode w =
    if bits w 5 0 = 1 ∧ bits w 11 9 = 0 then
      some (.qunpk (bits w 23 18) (bits w 17 12) (bits w 8 6))
    else if bits w 5 0 = 0 then
      some (.qpack (bits w 23 18) (bits w 17 12) (bits w 11 10) (flagBit w 9) (bits w 8 6))
    else none := by
  unfold decode decodeScalar
  rw [e]
  rfl

theorem decode_60 {w : Nat} (e : bits w 30 24 = 0x60) : decode w =
    some (.ld (bits w 23 18) (bits w 17 12) (flagBit w 11) (bits w 10 8) (bits w 7 0)) := by
  unfold decode decodeMemory
  rw [e]
  rfl

theorem decode_61 {w : Nat} (e : bits w 30 24 = 0x61) : decode w =
    some (.ldB64 (bits w 23 18) (bits w 17 12) (flagBit w 11) (bits w 10 8) (bits w 7 0)) := by
  unfold decode decodeMemory
  rw [e]
  rfl

theorem decode_62 {w : Nat} (e : bits w 30 24 = 0x62) : decode w =
    some (.ldB128 (bits w 23 18) (bits w 17 12) (flagBit w 11) (bits w 10 8) (bits w 7 0)) := by
  unfold decode decodeMemory
  rw [e]
  rfl

theorem decode_63 {w : Nat} (e : bits w 30 24 = 0x63) : decode w =
    some (.st (bits w 23 18) (bits w 17 12) (flagBit w 11) (bits w 10 8) (bits w 7 0)) := by
  unfold decode decodeMemory
  rw [e]
  rfl

theorem decode_64 {w : Nat} (e : bits w 30 24 = 0x64) : decode w =
    some (.stB64 (bits w 23 18) (bits w 17 12) (flagBit w 11) (bits w 10 8) (bits w 7 0)) := by
  unfold decode decodeMemory
  rw [e]
  rfl

theorem decode_65 {w : Nat} (e : bits w 30 24 = 0x65) : decode w =
    some (.stB128 (bits w 23 18) (bits w 17 12) (flagBit w 11) (bits w 10 8) (bits w 7 0)) := by
  unfold decode decodeMemory
  rw [e]
  rfl

theorem decode_66 {w : Nat} (e : bits w 30 24 = 0x66) : decode w =
    if bits w 2 0 = 0 then
      some (.ldOrdered (bits w 23 18) (bits w 17 12) (flagBit w 11) (bits w 10 8) (bits w 7 6) (bits w 5 3))
    else none := by
  unfold decode decodeMemory
  rw [e]
  rfl

theorem decode_67 {w : Nat} (e : bits w 30 24 = 0x67) : decode w =
    if bits w 2 0 = 0 then
      some (.stOrdered (bits w 23 18) (bits w 17 12) (flagBit w 11) (bits w 10 8) (bits w 7 6) (bits w 5 3))
    else none := by
  unfold decode decodeMemory
  rw [e]
  rfl

theorem decode_68 {w : Nat} (e : bits w 30 24 = 0x68) : decode w =
    some (.atom (bits w 23 18) (bits w 17 12) (flagBit w 11) (bits w 10 8) (bits w 7 6) (bits w 5 3) (bits w 2 0)) := by
  unfold decode decodeMemory
  rw [e]
  rfl

theorem decode_69 {w : Nat} (e : bits w 30 24 = 0x69) : decode w =
    if bits w 2 0 = 0 then
      some (.atomFadd (bits w 23 18) (bits w 17 12) (flagBit w 11) (bits w 10 8) (bits w 7 6) (bits w 5 3))
    else none := by
  unfold decode decodeMemory
  rw [e]
  rfl

theorem decode_6A {w : Nat} (e : bits w 30 24 = 0x6A) : decode w =
    some (.red (bits w 23 18) (bits w 17 12) (flagBit w 11) (bits w 10 8) (bits w 7 6) (bits w 5 3) (bits w 2 0)) := by
  unfold decode decodeMemory
  rw [e]
  rfl

theorem decode_6B {w : Nat} (e : bits w 30 24 = 0x6B) : decode w =
    if bits w 5 0 = 0x20 ∧ bits w 23 9 = 2 then
      some (.stashMapUnmap (bits w 8 6))
    else if bits w 5 0 = 0x21 ∧ bits w 23 9 = 0 then
      some (.stashFlush (bits w 8 6))
    else if bits w 5 0 = 0x22 ∧ bits w 23 9 = 0 then
      some (.stashInv (bits w 8 6))
    else if bits w 5 0 = 0x23 ∧ bits w 17 8 = 0 then
      some (.pref (bits w 23 18) (bits w 7 6))
    else if bits w 5 0 = 0x20 ∧ bits w 17 10 = 0 then
      some (.stashMap (bits w 23 18) (flagBit w 9) (bits w 8 6))
    else if bits w 5 3 = 0 then
      some (.lds (bits w 23 18) (bits w 17 12) (bits w 11 6) (bits w 2 0))
    else if bits w 5 3 = 1 then
      some (.sts (bits w 23 18) (bits w 17 12) (bits w 11 6) (bits w 2 0))
    else if bits w 5 3 = 2 then
      some (.ldx (bits w 23 18) (bits w 17 12) (bits w 11 6) (bits w 2 0))
    else if bits w 5 3 = 3 then
      some (.stx (bits w 23 18) (bits w 17 12) (bits w 11 6) (bits w 2 0))
    else none := by
  unfold decode decodeMemory
  rw [e]
  rfl

theorem decode_6C {w : Nat} (e : bits w 30 24 = 0x6C) : decode w =
    if bits w 5 1 = 0 then
      some (.lcopy (bits w 23 18) (bits w 17 12) (bits w 11 7) (flagBit w 6) (flagBit w 0))
    else none := by
  unfold decode decodeMemory
  rw [e]
  rfl

theorem decode_6D {w : Nat} (e : bits w 30 24 = 0x6D) : decode w =
    if bits w 5 1 = 0 then
      some (.tcopy (bits w 23 18) (bits w 17 12) (bits w 11 8) (flagBit w 7) (flagBit w 6) (flagBit w 0))
    else none := by
  unfold decode decodeMemory
  rw [e]
  rfl

theorem decode_6E {w : Nat} (e : bits w 30 24 = 0x6E) : decode w =
    if bits w 5 0 = 0 ∧ bits w 11 9 = 0 then
      some (.ctrAdd (bits w 23 18) (bits w 17 12) (bits w 8 6))
    else none := by
  unfold decode decodeMemory
  rw [e]
  rfl

theorem decode_6F {w : Nat} (e : bits w 30 24 = 0x6F) : decode w =
    if bits w 5 0 = 0 ∧ bits w 11 9 = 0 then
      some (.ctrWait (bits w 23 18) (bits w 17 12) (bits w 8 6))
    else none := by
  unfold decode decodeMemory
  rw [e]
  rfl

theorem decode_70 {w : Nat} (e : bits w 30 24 = 0x70) : decode w =
    if bits w 11 0 = 4 ∧ bits w 23 18 = 0 then
      some (.pbInval (bits w 17 12))
    else if bits w 11 0 = 0 then
      some (.pbInit (bits w 23 18) (bits w 17 12))
    else if bits w 11 0 = 1 then
      some (.pbArrive (bits w 23 18) (bits w 17 12))
    else if bits w 11 0 = 2 then
      some (.pbExpect (bits w 23 18) (bits w 17 12))
    else if bits w 5 0 = 3 ∧ bits w 11 9 = 0 then
      some (.pbWait (bits w 23 18) (bits w 17 12) (bits w 8 6))
    else if bits w 5 0 = 1 ∧ bits w 11 11 = 1 then
      some (.pbArriveN (bits w 23 18) (bits w 17 12) (bits w 10 6))
    else none := by
  unfold decode decodeMemory
  rw [e]
  rfl

theorem decode_71 {w : Nat} (e : bits w 30 24 = 0x71) : decode w =
    if bits w 5 0 = 0x10 ∧ bits w 17 9 = 0 then
      some (.wake (bits w 23 18) (bits w 8 6))
    else if bits w 5 2 = 0 ∧ bits w 11 9 = 0 then
      some (.waitcmp (bits w 23 18) (bits w 17 12) (bits w 8 6) (bits w 1 0))
    else none := by
  unfold decode decodeMemory
  rw [e]
  rfl

theorem decode_72 {w : Nat} (e : bits w 30 24 = 0x72) : decode w =
    if bits w 17 0 = 2 ∧ bits w 23 21 = 0 then
      some (.tfence (bits w 20 18))
    else if bits w 11 0 = 0 ∧ bits w 17 14 = 0 ∧ bits w 23 21 = 0 then
      some (.fence (bits w 20 18) (bits w 13 12))
    else if bits w 11 0 = 1 ∧ bits w 23 21 = 0 then
      some (.xfence (bits w 20 18) (bits w 17 12))
    else none := by
  unfold decode decodeMemory
  rw [e]
  rfl

theorem decode_74 {w : Nat} (e : bits w 30 24 = 0x74) : decode w =
    if bits w 17 0 = 1 ∧ bits w 23 22 = 0 then
      some (.tseal (bits w 21 18))
    else if bits w 17 0 = 2 ∧ bits w 23 22 = 0 then
      some (.tclaim (bits w 21 18))
    else if bits w 17 0 = 0x42 ∧ bits w 23 22 = 0 then
      some (.tclaimEach (bits w 21 18))
    else if bits w 17 0 = 5 ∧ bits w 23 22 = 0 then
      some (.tdrop (bits w 21 18))
    else if bits w 11 0 = 6 ∧ bits w 17 16 = 0 then
      some (.tstatInfo (bits w 23 18) (bits w 15 12))
    else if bits w 11 0 = 0x46 ∧ bits w 17 16 = 0 then
      some (.tstatAddr (bits w 23 18) (bits w 15 12))
    else if bits w 11 0 = 0x86 ∧ bits w 17 16 = 0 then
      some (.tstatGet (bits w 23 18) (bits w 15 12))
    else if bits w 11 0 = 0xc6 ∧ bits w 23 22 = 0 then
      some (.tstatPut (bits w 21 18) (bits w 17 12))
    else if bits w 11 0 = 0x106 ∧ bits w 17 16 = 0 then
      some (.tstatPart (bits w 23 18) (bits w 15 12))
    else if bits w 5 0 = 3 ∧ bits w 11 7 = 0 ∧ bits w 17 16 = 3 then
      some (.treadStash (bits w 23 18) (bits w 15 12) (flagBit w 6))
    else if bits w 5 0 = 4 ∧ bits w 11 7 = 0 ∧ bits w 17 16 = 3 then
      some (.tpeekStash (bits w 23 18) (bits w 15 12) (flagBit w 6))
    else if bits w 5 0 = 0 ∧ bits w 23 22 = 0 then
      some (.talloc (bits w 21 18) (bits w 17 12) (bits w 11 6))
    else if bits w 5 0 = 3 ∧ bits w 17 16 < 3 then
      some (.tread (bits w 23 18) (bits w 17 16) (bits w 15 12) (bits w 11 6))
    else if bits w 5 0 = 4 ∧ bits w 17 16 < 3 then
      some (.tpeek (bits w 23 18) (bits w 17 16) (bits w 15 12) (bits w 11 6))
    else none := by
  unfold decode decodeTile
  rw [e]
  rfl

theorem decode_75 {w : Nat} (e : bits w 30 24 = 0x75) : decode w =
    if bits w 23 0 = 1 then
      some .unlink
    else if bits w 5 0 = 2 ∧ bits w 23 7 = 0 then
      some (.pair (flagBit w 6))
    else if bits w 5 0 = 0 ∧ bits w 17 7 = 0 then
      some (.link (bits w 23 18) (flagBit w 6))
    else none := by
  unfold decode decodeTile
  rw [e]
  rfl

theorem decode_76 {w : Nat} (e : bits w 30 24 = 0x76) : decode w =
    if bits w 5 0 = 0 ∧ bits w 11 10 = 0 then
      some (.tmma (bits w 23 18) (bits w 17 12) (flagBit w 9) (flagBit w 8) (bits w 7 6))
    else if bits w 5 0 = 1 ∧ bits w 11 10 = 0 then
      some (.tmmaQ (bits w 23 18) (bits w 17 12) (flagBit w 9) (flagBit w 8) (bits w 7 6))
    else none := by
  unfold decode decodeTile
  rw [e]
  rfl

theorem decode_77 {w : Nat} (e : bits w 30 24 = 0x77) : decode w =
    if bits w 11 0 = 2 then
      some (.accZero (bits w 23 18) (bits w 17 12))
    else if bits w 5 0 = 0 ∧ bits w 11 7 = 0 then
      some (.accLd (bits w 23 18) (bits w 17 12) (flagBit w 6))
    else if bits w 5 0 = 1 ∧ bits w 11 8 = 0 then
      some (.accMov (bits w 23 18) (bits w 17 12) (bits w 7 6))
    else if bits w 5 0 = 1 ∧ bits w 11 8 = 2 then
      some (.accMovRaw (bits w 23 18) (bits w 17 12) (bits w 7 6))
    else if bits w 5 0 = 1 ∧ bits w 11 8 = 1 then
      some (.accMovTile (bits w 23 18) (bits w 17 12) (bits w 7 6))
    else none := by
  unfold decode decodeTile
  rw [e]
  rfl

theorem decode_78 {w : Nat} (e : bits w 30 24 = 0x78) : decode w =
    if bits w 5 0 = 2 ∧ bits w 23 8 = 0 then
      some (.scaleNext (bits w 7 6))
    else if bits w 5 0 = 0 ∧ bits w 17 8 = 1 then
      some (.fmtsetLd (bits w 23 18) (bits w 7 6))
    else if bits w 5 0 = 0 ∧ bits w 17 8 = 2 then
      some (.fmtsetSt (bits w 23 18) (bits w 7 6))
    else if bits w 5 0 = 0 ∧ bits w 11 8 = 0 ∧ bits w 17 17 = 0 then
      some (.fmtset (bits w 23 18) (bits w 16 12) (bits w 7 6))
    else if bits w 5 0 = 0 ∧ bits w 11 8 = 0 ∧ bits w 17 17 = 1 then
      some (.fmtsetGet (bits w 23 18) (bits w 16 12) (bits w 7 6))
    else if bits w 5 0 = 1 ∧ bits w 11 8 = 0 then
      some (.scaleObs (bits w 23 18) (bits w 17 12) (bits w 7 6))
    else none := by
  unfold decode decodeTile
  rw [e]
  rfl

theorem decode_79 {w : Nat} (e : bits w 30 24 = 0x79) : decode w =
    if bits w 23 0 = 0 then
      some .leashTake
    else if bits w 23 0 = 1 then
      some .leashPass
    else if bits w 17 0 = 2 then
      some (.burst (bits w 23 18))
    else if bits w 5 0 = 3 then
      some (.rbox (bits w 23 18) (bits w 17 12) (bits w 11 6))
    else none := by
  unfold decode decodeTile
  rw [e]
  rfl

theorem decode_7A {w : Nat} (e : bits w 30 24 = 0x7A) : decode w =
    if bits w 5 0 = 0 then
      some (.texSmp (bits w 23 18) (bits w 17 12) (bits w 11 6))
    else if bits w 5 0 = 1 then
      some (.texLoad (bits w 23 18) (bits w 17 12) (bits w 11 6))
    else if bits w 5 0 = 2 then
      some (.texGather (bits w 23 18) (bits w 17 12) (bits w 11 6))
    else none := by
  unfold decode decodeSystem
  rw [e]
  rfl

theorem decode_7B {w : Nat} (e : bits w 30 24 = 0x7B) : decode w =
    if bits w 5 0 = 0 ∧ bits w 11 8 = 0 then
      some (.cover (bits w 23 18) (bits w 17 12) (bits w 7 6))
    else none := by
  unfold decode decodeSystem
  rw [e]
  rfl

theorem decode_7C {w : Nat} (e : bits w 30 24 = 0x7C) : decode w =
    if bits w 5 0 = 1 ∧ bits w 23 12 = 0 then
      some (.rtclr (bits w 11 6))
    else if bits w 5 0 = 2 ∧ bits w 23 12 = 0 then
      some (.rtdc (bits w 11 6))
    else if bits w 5 0 = 0 then
      some (.rtst (bits w 23 18) (bits w 17 12) (bits w 11 6))
    else none := by
  unfold decode decodeSystem
  rw [e]
  rfl

theorem decode_7D {w : Nat} (e : bits w 30 24 = 0x7D) : decode w =
    if bits w 11 6 = 0 then
      some (.csrr (bits w 23 12) (bits w 5 0))
    else if bits w 11 6 = 0x20 then
      some (.csrw (bits w 23 12) (bits w 5 0))
    else none := by
  unfold decode decodeSystem
  rw [e]
  rfl

theorem decode_7E {w : Nat} (e : bits w 30 24 = 0x7E) : decode w =
    if bits w 23 0 = 0 then
      some .eret
    else if bits w 5 0 = 0 ∧ bits w 23 12 = 3 then
      some (.sleep (bits w 11 6))
    else if bits w 23 8 = 0x20 then
      some (.snap (bits w 7 0))
    else if bits w 2 0 = 0 ∧ bits w 23 12 = 1 then
      some (.tlbi (bits w 11 6) (bits w 5 3))
    else none := by
  unfold decode decodeSystem
  rw [e]
  rfl

theorem decode_7F {w : Nat} (e : bits w 30 24 = 0x7F) : decode w =
    some (.lit (bits w 23 0)) := by
  unfold decode decodeSystem
  rw [e]
  rfl

/-- Decoding the word that an instruction of the part encodes to gives it back. -/
def RoundTrip.Statement (i : Instr) : Prop := i.isWord = true → i.fieldsOk = true → decode (encode i) = some i

theorem RoundTrip.nop : RoundTrip.Statement .nop := by
  intro _ _
  decide

theorem RoundTrip.bra (p : Nat) (n : Bool) (e : Nat) : RoundTrip.Statement (.bra p n e) := by
  intro _ hok
  change (decide (p < 8) && decide (e < 1048576)) = true at hok
  simp only [Bool.and_eq_true, decide_eq_true_eq] at hok
  obtain ⟨h1, h2⟩ := hok
  have fn := flagNat_lt n
  change decode (put (put (put 0x01000000 p 21) (flagNat n) 20) e 0) = _
  generalize hw : put (put (put 0x01000000 p 21) (flagNat n) 20) e 0 = wd
  simp only [put] at hw
  rw [decode_01 (by simp only [bits]; omega),
    show bits wd 23 21 = p from by simp only [bits]; omega,
    flagBit_of (w := wd) (i := 20) (b := n) (by simp only [bits]; omega),
    show bits wd 19 0 = e from by simp only [bits]; omega]

theorem RoundTrip.brc (p : Nat) (n : Bool) (e : Nat) : RoundTrip.Statement (.brc p n e) := by
  intro _ hok
  change (decide (p < 8) && decide (e < 1048576)) = true at hok
  simp only [Bool.and_eq_true, decide_eq_true_eq] at hok
  obtain ⟨h1, h2⟩ := hok
  have fn := flagNat_lt n
  change decode (put (put (put 0x02000000 p 21) (flagNat n) 20) e 0) = _
  generalize hw : put (put (put 0x02000000 p 21) (flagNat n) 20) e 0 = wd
  simp only [put] at hw
  rw [decode_02 (by simp only [bits]; omega),
    show bits wd 23 21 = p from by simp only [bits]; omega,
    flagBit_of (w := wd) (i := 20) (b := n) (by simp only [bits]; omega),
    show bits wd 19 0 = e from by simp only [bits]; omega]

theorem RoundTrip.call (p : Nat) (n : Bool) (e : Nat) : RoundTrip.Statement (.call p n e) := by
  intro _ hok
  change (decide (p < 8) && decide (e < 1048576)) = true at hok
  simp only [Bool.and_eq_true, decide_eq_true_eq] at hok
  obtain ⟨h1, h2⟩ := hok
  have fn := flagNat_lt n
  change decode (put (put (put 0x03000000 p 21) (flagNat n) 20) e 0) = _
  generalize hw : put (put (put 0x03000000 p 21) (flagNat n) 20) e 0 = wd
  simp only [put] at hw
  rw [decode_03 (by simp only [bits]; omega),
    show bits wd 23 21 = p from by simp only [bits]; omega,
    flagBit_of (w := wd) (i := 20) (b := n) (by simp only [bits]; omega),
    show bits wd 19 0 = e from by simp only [bits]; omega]

theorem RoundTrip.ret (a : Src) : RoundTrip.Statement (.ret a) := by
  intro _ hok
  change (a.ok) = true at hok
  have h1 := hok
  have g1 := encodeSrc_lt h1
  change decode (put 0x04000000 (encodeSrc a) 9) = _
  generalize hw : put 0x04000000 (encodeSrc a) 9 = wd
  simp only [put] at hw
  rw [decode_04 (by simp only [bits]; omega),
    if_pos (by simp only [bits]; omega),
    decodeSrc_of (x := bits wd 16 9) h1 (by simp only [bits]; omega)]

theorem RoundTrip.jmpx (a : Src) (b : Src) : RoundTrip.Statement (.jmpx a b) := by
  intro _ hok
  change (a.ok && b.ok) = true at hok
  simp only [Bool.and_eq_true] at hok
  obtain ⟨h1, h2⟩ := hok
  have g1 := encodeSrc_lt h1
  have g2 := encodeSrc_lt h2
  change decode (put (put 0x05000000 (encodeSrc a) 9) (encodeSrc b) 1) = _
  generalize hw : put (put 0x05000000 (encodeSrc a) 9) (encodeSrc b) 1 = wd
  simp only [put] at hw
  rw [decode_05 (by simp only [bits]; omega),
    if_pos (by simp only [bits]; omega),
    decodeSrc_of (x := bits wd 16 9) h1 (by simp only [bits]; omega),
    decodeSrc_of (x := bits wd 8 1) h2 (by simp only [bits]; omega)]

theorem RoundTrip.exit : RoundTrip.Statement .exit := by
  intro _ _
  decide

theorem RoundTrip.converge : RoundTrip.Statement .converge := by
  intro _ _
  decide

theorem RoundTrip.yield : RoundTrip.Statement .yield := by
  intro _ _
  decide

theorem RoundTrip.safept : RoundTrip.Statement .safept := by
  intro _ _
  decide

theorem RoundTrip.trigger : RoundTrip.Statement .trigger := by
  intro _ _
  decide

theorem RoundTrip.trap (t : Nat) : RoundTrip.Statement (.trap t) := by
  intro _ hok
  change (decide (t < 4096)) = true at hok
  simp only [decide_eq_true_eq] at hok
  have h1 := hok
  change decode (put 0x0B000000 t 0) = _
  generalize hw : put 0x0B000000 t 0 = wd
  simp only [put] at hw
  rw [decode_0B (by simp only [bits]; omega),
    if_pos (by simp only [bits]; omega),
    show bits wd 11 0 = t from by simp only [bits]; omega]

theorem RoundTrip.voteAny (d : Nat) (s : Nat) : RoundTrip.Statement (.voteAny d s) := by
  intro _ hok
  change (decide (d < 8) && decide (s < 8)) = true at hok
  simp only [Bool.and_eq_true, decide_eq_true_eq] at hok
  obtain ⟨h1, h2⟩ := hok
  change decode (put (put 0x0C000000 d 18) s 12) = _
  generalize hw : put (put 0x0C000000 d 18) s 12 = wd
  simp only [put] at hw
  rw [decode_0C (by simp only [bits]; omega),
    if_pos (by simp only [bits]; omega),
    show bits wd 20 18 = d from by simp only [bits]; omega,
    show bits wd 14 12 = s from by simp only [bits]; omega]

theorem RoundTrip.voteAll (d : Nat) (s : Nat) : RoundTrip.Statement (.voteAll d s) := by
  intro _ hok
  change (decide (d < 8) && decide (s < 8)) = true at hok
  simp only [Bool.and_eq_true, decide_eq_true_eq] at hok
  obtain ⟨h1, h2⟩ := hok
  change decode (put (put 0x0C000001 d 18) s 12) = _
  generalize hw : put (put 0x0C000001 d 18) s 12 = wd
  simp only [put] at hw
  rw [decode_0C (by simp only [bits]; omega),
    if_neg (by simp only [bits]; omega),
    if_pos (by simp only [bits]; omega),
    show bits wd 20 18 = d from by simp only [bits]; omega,
    show bits wd 14 12 = s from by simp only [bits]; omega]

theorem RoundTrip.voteBallot (d : Nat) (s : Nat) : RoundTrip.Statement (.voteBallot d s) := by
  intro _ hok
  change (decide (d < 64) && decide (s < 8)) = true at hok
  simp only [Bool.and_eq_true, decide_eq_true_eq] at hok
  obtain ⟨h1, h2⟩ := hok
  change decode (put (put 0x0C000002 d 18) s 12) = _
  generalize hw : put (put 0x0C000002 d 18) s 12 = wd
  simp only [put] at hw
  rw [decode_0C (by simp only [bits]; omega),
    if_neg (by simp only [bits]; omega),
    if_neg (by simp only [bits]; omega),
    if_neg (by simp only [bits]; omega),
    if_pos (by simp only [bits]; omega),
    show bits wd 23 18 = d from by simp only [bits]; omega,
    show bits wd 14 12 = s from by simp only [bits]; omega]

theorem RoundTrip.voteEq (d : Nat) (s : Nat) : RoundTrip.Statement (.voteEq d s) := by
  intro _ hok
  change (decide (d < 8) && decide (s < 8)) = true at hok
  simp only [Bool.and_eq_true, decide_eq_true_eq] at hok
  obtain ⟨h1, h2⟩ := hok
  change decode (put (put 0x0C000003 d 18) s 12) = _
  generalize hw : put (put 0x0C000003 d 18) s 12 = wd
  simp only [put] at hw
  rw [decode_0C (by simp only [bits]; omega),
    if_neg (by simp only [bits]; omega),
    if_neg (by simp only [bits]; omega),
    if_pos (by simp only [bits]; omega),
    show bits wd 20 18 = d from by simp only [bits]; omega,
    show bits wd 14 12 = s from by simp only [bits]; omega]

theorem RoundTrip.shflIdx (d : Nat) (s : Nat) (z : Nat) : RoundTrip.Statement (.shflIdx d s z) := by
  intro _ hok
  change (decide (d < 64) && decide (s < 64) && decide (z < 64)) = true at hok
  simp only [Bool.and_eq_true, decide_eq_true_eq] at hok
  obtain ⟨⟨h1, h2⟩, h3⟩ := hok
  change decode (put (put (put 0x0C000008 d 18) s 12) z 6) = _
  generalize hw : put (put (put 0x0C000008 d 18) s 12) z 6 = wd
  simp only [put] at hw
  rw [decode_0C (by simp only [bits]; omega),
    if_neg (by simp only [bits]; omega),
    if_neg (by simp only [bits]; omega),
    if_neg (by simp only [bits]; omega),
    if_neg (by simp only [bits]; omega),
    if_pos (by simp only [bits]; omega),
    show bits wd 23 18 = d from by simp only [bits]; omega,
    show bits wd 17 12 = s from by simp only [bits]; omega,
    show bits wd 11 6 = z from by simp only [bits]; omega]

theorem RoundTrip.shflUp (d : Nat) (s : Nat) (n : Nat) : RoundTrip.Statement (.shflUp d s n) := by
  intro _ hok
  change (decide (d < 64) && decide (s < 64) && decide (n < 64)) = true at hok
  simp only [Bool.and_eq_true, decide_eq_true_eq] at hok
  obtain ⟨⟨h1, h2⟩, h3⟩ := hok
  change decode (put (put (put 0x0C000009 d 18) s 12) n 6) = _
  generalize hw : put (put (put 0x0C000009 d 18) s 12) n 6 = wd
  simp only [put] at hw
  rw [decode_0C (by simp only [bits]; omega),
    if_neg (by simp only [bits]; omega),
    if_neg (by simp only [bits]; omega),
    if_neg (by simp only [bits]; omega),
    if_neg (by simp only [bits]; omega),
    if_neg (by simp only [bits]; omega),
    if_pos (by simp only [bits]; omega),
    show bits wd 23 18 = d from by simp only [bits]; omega,
    show bits wd 17 12 = s from by simp only [bits]; omega,
    show bits wd 11 6 = n from by simp only [bits]; omega]

theorem RoundTrip.shflDown (d : Nat) (s : Nat) (n : Nat) : RoundTrip.Statement (.shflDown d s n) := by
  intro _ hok
  change (decide (d < 64) && decide (s < 64) && decide (n < 64)) = true at hok
  simp only [Bool.and_eq_true, decide_eq_true_eq] at hok
  obtain ⟨⟨h1, h2⟩, h3⟩ := hok
  change decode (put (put (put 0x0C00000A d 18) s 12) n 6) = _
  generalize hw : put (put (put 0x0C00000A d 18) s 12) n 6 = wd
  simp only [put] at hw
  rw [decode_0C (by simp only [bits]; omega),
    if_neg (by simp only [bits]; omega),
    if_neg (by simp only [bits]; omega),
    if_neg (by simp only [bits]; omega),
    if_neg (by simp only [bits]; omega),
    if_neg (by simp only [bits]; omega),
    if_neg (by simp only [bits]; omega),
    if_pos (by simp only [bits]; omega),
    show bits wd 23 18 = d from by simp only [bits]; omega,
    show bits wd 17 12 = s from by simp only [bits]; omega,
    show bits wd 11 6 = n from by simp only [bits]; omega]

theorem RoundTrip.shflXor (d : Nat) (s : Nat) (n : Nat) : RoundTrip.Statement (.shflXor d s n) := by
  intro _ hok
  change (decide (d < 64) && decide (s < 64) && decide (n < 64)) = true at hok
  simp only [Bool.and_eq_true, decide_eq_true_eq] at hok
  obtain ⟨⟨h1, h2⟩, h3⟩ := hok
  change decode (put (put (put 0x0C00000B d 18) s 12) n 6) = _
  generalize hw : put (put (put 0x0C00000B d 18) s 12) n 6 = wd
  simp only [put] at hw
  rw [decode_0C (by simp only [bits]; omega),
    if_neg (by simp only [bits]; omega),
    if_neg (by simp only [bits]; omega),
    if_neg (by simp only [bits]; omega),
    if_neg (by simp only [bits]; omega),
    if_neg (by simp only [bits]; omega),
    if_neg (by simp only [bits]; omega),
    if_neg (by simp only [bits]; omega),
    if_pos (by simp only [bits]; omega),
    show bits wd 23 18 = d from by simp only [bits]; omega,
    show bits wd 17 12 = s from by simp only [bits]; omega,
    show bits wd 11 6 = n from by simp only [bits]; omega]

theorem RoundTrip.redg (d : Nat) (s : Nat) (o : Nat) : RoundTrip.Statement (.redg d s o) := by
  intro _ hok
  change (decide (d < 64) && decide (s < 64) && decide (o < 16)) = true at hok
  simp only [Bool.and_eq_true, decide_eq_true_eq] at hok
  obtain ⟨⟨h1, h2⟩, h3⟩ := hok
  change decode (put (put (put 0x0D000000 d 18) s 12) o 0) = _
  generalize hw : put (put (put 0x0D000000 d 18) s 12) o 0 = wd
  simp only [put] at hw
  rw [decode_0D (by simp only [bits]; omega),
    if_pos (by simp only [bits]; omega),
    show bits wd 23 18 = d from by simp only [bits]; omega,
    show bits wd 17 12 = s from by simp only [bits]; omega,
    show bits wd 3 0 = o from by simp only [bits]; omega]

theorem RoundTrip.redgScalar (d : Nat) (s : Nat) (o : Nat) : RoundTrip.Statement (.redgScalar d s o) := by
  intro _ hok
  change (decide (d < 64) && decide (s < 64) && decide (o < 16)) = true at hok
  simp only [Bool.and_eq_true, decide_eq_true_eq] at hok
  obtain ⟨⟨h1, h2⟩, h3⟩ := hok
  change decode (put (put (put 0x0D000040 d 18) s 12) o 0) = _
  generalize hw : put (put (put 0x0D000040 d 18) s 12) o 0 = wd
  simp only [put] at hw
  rw [decode_0D (by simp only [bits]; omega),
    if_neg (by simp only [bits]; omega),
    if_pos (by simp only [bits]; omega),
    show bits wd 23 18 = d from by simp only [bits]; omega,
    show bits wd 17 12 = s from by simp only [bits]; omega,
    show bits wd 3 0 = o from by simp only [bits]; omega]

theorem RoundTrip.scangIncl (d : Nat) (s : Nat) (o : Nat) : RoundTrip.Statement (.scangIncl d s o) := by
  intro _ hok
  change (decide (d < 64) && decide (s < 64) && decide (o < 16)) = true at hok
  simp only [Bool.and_eq_true, decide_eq_true_eq] at hok
  obtain ⟨⟨h1, h2⟩, h3⟩ := hok
  change decode (put (put (put 0x0D000010 d 18) s 12) o 0) = _
  generalize hw : put (put (put 0x0D000010 d 18) s 12) o 0 = wd
  simp only [put] at hw
  rw [decode_0D (by simp only [bits]; omega),
    if_neg (by simp only [bits]; omega),
    if_neg (by simp only [bits]; omega),
    if_pos (by simp only [bits]; omega),
    show bits wd 23 18 = d from by simp only [bits]; omega,
    show bits wd 17 12 = s from by simp only [bits]; omega,
    show bits wd 3 0 = o from by simp only [bits]; omega]

theorem RoundTrip.scangExcl (d : Nat) (s : Nat) (o : Nat) : RoundTrip.Statement (.scangExcl d s o) := by
  intro _ hok
  change (decide (d < 64) && decide (s < 64) && decide (o < 16)) = true at hok
  simp only [Bool.and_eq_true, decide_eq_true_eq] at hok
  obtain ⟨⟨h1, h2⟩, h3⟩ := hok
  change decode (put (put (put 0x0D000020 d 18) s 12) o 0) = _
  generalize hw : put (put (put 0x0D000020 d 18) s 12) o 0 = wd
  simp only [put] at hw
  rw [decode_0D (by simp only [bits]; omega),
    if_neg (by simp only [bits]; omega),
    if_neg (by simp only [bits]; omega),
    if_neg (by simp only [bits]; omega),
    if_pos (by simp only [bits]; omega),
    show bits wd 23 18 = d from by simp only [bits]; omega,
    show bits wd 17 12 = s from by simp only [bits]; omega,
    show bits wd 3 0 = o from by simp only [bits]; omega]

theorem RoundTrip.barG : RoundTrip.Statement .barG := by
  intro _ _
  decide

theorem RoundTrip.barT : RoundTrip.Statement .barT := by
  intro _ _
  decide

theorem RoundTrip.cwin (b : Nat) (h : Nat) (l : Nat) : RoundTrip.Statement (.cwin b h l) := by
  intro _ hok
  change (decide (b < 16) && decide (h < 64) && decide (l < 4)) = true at hok
  simp only [Bool.and_eq_true, decide_eq_true_eq] at hok
  obtain ⟨⟨h1, h2⟩, h3⟩ := hok
  change decode (put (put (put 0x0E000002 b 18) h 12) l 6) = _
  generalize hw : put (put (put 0x0E000002 b 18) h 12) l 6 = wd
  simp only [put] at hw
  rw [decode_0E (by simp only [bits]; omega),
    if_neg (by simp only [bits]; omega),
    if_neg (by simp only [bits]; omega),
    if_neg (by simp only [bits]; omega),
    if_neg (by simp only [bits]; omega),
    if_pos (by simp only [bits]; omega),
    show bits wd 21 18 = b from by simp only [bits]; omega,
    show bits wd 17 12 = h from by simp only [bits]; omega,
    show bits wd 7 6 = l from by simp only [bits]; omega]

theorem RoundTrip.cwinReg (b : Nat) (s : Nat) : RoundTrip.Statement (.cwinReg b s) := by
  intro _ hok
  change (decide (b < 16) && decide (s < 64)) = true at hok
  simp only [Bool.and_eq_true, decide_eq_true_eq] at hok
  obtain ⟨h1, h2⟩ := hok
  change decode (put (put 0x0E000802 b 18) s 12) = _
  generalize hw : put (put 0x0E000802 b 18) s 12 = wd
  simp only [put] at hw
  rw [decode_0E (by simp only [bits]; omega),
    if_neg (by simp only [bits]; omega),
    if_neg (by simp only [bits]; omega),
    if_neg (by simp only [bits]; omega),
    if_pos (by simp only [bits]; omega),
    show bits wd 21 18 = b from by simp only [bits]; omega,
    show bits wd 17 12 = s from by simp only [bits]; omega]

theorem RoundTrip.taskend : RoundTrip.Statement .taskend := by
  intro _ _
  decide

theorem RoundTrip.spawn (t : Nat) (y : Nat) (g : Nat) : RoundTrip.Statement (.spawn t y g) := by
  intro _ hok
  change (decide (t < 64) && decide (y < 64) && decide (g < 8)) = true at hok
  simp only [Bool.and_eq_true, decide_eq_true_eq] at hok
  obtain ⟨⟨h1, h2⟩, h3⟩ := hok
  change decode (put (put (put 0x0F000000 t 18) y 12) g 6) = _
  generalize hw : put (put (put 0x0F000000 t 18) y 12) g 6 = wd
  simp only [put] at hw
  rw [decode_0F (by simp only [bits]; omega),
    if_neg (by simp only [bits]; omega),
    if_neg (by simp only [bits]; omega),
    if_neg (by simp only [bits]; omega),
    if_pos (by simp only [bits]; omega),
    show bits wd 23 18 = t from by simp only [bits]; omega,
    show bits wd 17 12 = y from by simp only [bits]; omega,
    show bits wd 8 6 = g from by simp only [bits]; omega]

theorem RoundTrip.rsv (x : Nat) (y : Nat) (z : Nat) : RoundTrip.Statement (.rsv x y z) := by
  intro _ hok
  change (decide (x < 64) && decide (y < 64) && decide (z < 64)) = true at hok
  simp only [Bool.and_eq_true, decide_eq_true_eq] at hok
  obtain ⟨⟨h1, h2⟩, h3⟩ := hok
  change decode (put (put (put 0x0F000001 x 18) y 12) z 6) = _
  generalize hw : put (put (put 0x0F000001 x 18) y 12) z 6 = wd
  simp only [put] at hw
  rw [decode_0F (by simp only [bits]; omega),
    if_neg (by simp only [bits]; omega),
    if_neg (by simp only [bits]; omega),
    if_neg (by simp only [bits]; omega),
    if_neg (by simp only [bits]; omega),
    if_pos (by simp only [bits]; omega),
    show bits wd 23 18 = x from by simp only [bits]; omega,
    show bits wd 17 12 = y from by simp only [bits]; omega,
    show bits wd 11 6 = z from by simp only [bits]; omega]

theorem RoundTrip.rcommit (x : Nat) (y : Nat) : RoundTrip.Statement (.rcommit x y) := by
  intro _ hok
  change (decide (x < 64) && decide (y < 64)) = true at hok
  simp only [Bool.and_eq_true, decide_eq_true_eq] at hok
  obtain ⟨h1, h2⟩ := hok
  change decode (put (put 0x0F000002 x 18) y 12) = _
  generalize hw : put (put 0x0F000002 x 18) y 12 = wd
  simp only [put] at hw
  rw [decode_0F (by simp only [bits]; omega),
    if_neg (by simp only [bits]; omega),
    if_pos (by simp only [bits]; omega),
    show bits wd 23 18 = x from by simp only [bits]; omega,
    show bits wd 17 12 = y from by simp only [bits]; omega]

theorem RoundTrip.rget (x : Nat) : RoundTrip.Statement (.rget x) := by
  intro _ hok
  change (decide (x < 64)) = true at hok
  simp only [decide_eq_true_eq] at hok
  have h1 := hok
  change decode (put 0x0F000003 x 18) = _
  generalize hw : put 0x0F000003 x 18 = wd
  simp only [put] at hw
  rw [decode_0F (by simp only [bits]; omega),
    if_pos (by simp only [bits]; omega),
    show bits wd 23 18 = x from by simp only [bits]; omega]

theorem RoundTrip.rgetCount (x : Nat) (y : Nat) : RoundTrip.Statement (.rgetCount x y) := by
  intro _ hok
  change (decide (x < 64) && decide (y < 64)) = true at hok
  simp only [Bool.and_eq_true, decide_eq_true_eq] at hok
  obtain ⟨h1, h2⟩ := hok
  change decode (put (put 0x0F000043 x 18) y 12) = _
  generalize hw : put (put 0x0F000043 x 18) y 12 = wd
  simp only [put] at hw
  rw [decode_0F (by simp only [bits]; omega),
    if_neg (by simp only [bits]; omega),
    if_neg (by simp only [bits]; omega),
    if_pos (by simp only [bits]; omega),
    show bits wd 23 18 = x from by simp only [bits]; omega,
    show bits wd 17 12 = y from by simp only [bits]; omega]

theorem RoundTrip.iadd (d : Nat) (a : Src) (b : Src) (m : Bool) : RoundTrip.Statement (.iadd d a b m) := by
  intro _ hok
  change (decide (d < 64) && a.ok && b.ok) = true at hok
  simp only [Bool.and_eq_true, decide_eq_true_eq] at hok
  obtain ⟨⟨h1, h2⟩, h3⟩ := hok
  have g2 := encodeSrc_lt h2
  have g3 := encodeSrc_lt h3
  have fm := flagNat_lt m
  change decode (put (put (put (put 0x10000000 d 18) (encodeSrc a) 9) (encodeSrc b) 1) (flagNat m) 0) = _
  generalize hw : put (put (put (put 0x10000000 d 18) (encodeSrc a) 9) (encodeSrc b) 1) (flagNat m) 0 = wd
  simp only [put] at hw
  rw [decode_10 (by simp only [bits]; omega),
    if_pos (by simp only [bits]; omega),
    show bits wd 23 18 = d from by simp only [bits]; omega,
    decodeSrc_of (x := bits wd 16 9) h2 (by simp only [bits]; omega),
    decodeSrc_of (x := bits wd 8 1) h3 (by simp only [bits]; omega),
    flagBit_of (w := wd) (i := 0) (b := m) (by simp only [bits]; omega)]

theorem RoundTrip.isub (d : Nat) (a : Src) (b : Src) (m : Bool) : RoundTrip.Statement (.isub d a b m) := by
  intro _ hok
  change (decide (d < 64) && a.ok && b.ok) = true at hok
  simp only [Bool.and_eq_true, decide_eq_true_eq] at hok
  obtain ⟨⟨h1, h2⟩, h3⟩ := hok
  have g2 := encodeSrc_lt h2
  have g3 := encodeSrc_lt h3
  have fm := flagNat_lt m
  change decode (put (put (put (put 0x11000000 d 18) (encodeSrc a) 9) (encodeSrc b) 1) (flagNat m) 0) = _
  generalize hw : put (put (put (put 0x11000000 d 18) (encodeSrc a) 9) (encodeSrc b) 1) (flagNat m) 0 = wd
  simp only [put] at hw
  rw [decode_11 (by simp only [bits]; omega),
    if_pos (by simp only [bits]; omega),
    show bits wd 23 18 = d from by simp only [bits]; omega,
    decodeSrc_of (x := bits wd 16 9) h2 (by simp only [bits]; omega),
    decodeSrc_of (x := bits wd 8 1) h3 (by simp only [bits]; omega),
    flagBit_of (w := wd) (i := 0) (b := m) (by simp only [bits]; omega)]

theorem RoundTrip.imul (d : Nat) (a : Src) (b : Src) : RoundTrip.Statement (.imul d a b) := by
  intro _ hok
  change (decide (d < 64) && a.ok && b.ok) = true at hok
  simp only [Bool.and_eq_true, decide_eq_true_eq] at hok
  obtain ⟨⟨h1, h2⟩, h3⟩ := hok
  have g2 := encodeSrc_lt h2
  have g3 := encodeSrc_lt h3
  change decode (put (put (put 0x12000000 d 18) (encodeSrc a) 9) (encodeSrc b) 1) = _
  generalize hw : put (put (put 0x12000000 d 18) (encodeSrc a) 9) (encodeSrc b) 1 = wd
  simp only [put] at hw
  rw [decode_12 (by simp only [bits]; omega),
    if_pos (by simp only [bits]; omega),
    show bits wd 23 18 = d from by simp only [bits]; omega,
    decodeSrc_of (x := bits wd 16 9) h2 (by simp only [bits]; omega),
    decodeSrc_of (x := bits wd 8 1) h3 (by simp only [bits]; omega)]

theorem RoundTrip.imulh (d : Nat) (a : Src) (b : Src) (m : Bool) : RoundTrip.Statement (.imulh d a b m) := by
  intro _ hok
  change (decide (d < 64) && a.ok && b.ok) = true at hok
  simp only [Bool.and_eq_true, decide_eq_true_eq] at hok
  obtain ⟨⟨h1, h2⟩, h3⟩ := hok
  have g2 := encodeSrc_lt h2
  have g3 := encodeSrc_lt h3
  have fm := flagNat_lt m
  change decode (put (put (put (put 0x13000000 d 18) (encodeSrc a) 9) (encodeSrc b) 1) (flagNat m) 0) = _
  generalize hw : put (put (put (put 0x13000000 d 18) (encodeSrc a) 9) (encodeSrc b) 1) (flagNat m) 0 = wd
  simp only [put] at hw
  rw [decode_13 (by simp only [bits]; omega),
    if_pos (by simp only [bits]; omega),
    show bits wd 23 18 = d from by simp only [bits]; omega,
    decodeSrc_of (x := bits wd 16 9) h2 (by simp only [bits]; omega),
    decodeSrc_of (x := bits wd 8 1) h3 (by simp only [bits]; omega),
    flagBit_of (w := wd) (i := 0) (b := m) (by simp only [bits]; omega)]

theorem RoundTrip.imad (d : Nat) (a : Src) (b : Src) : RoundTrip.Statement (.imad d a b) := by
  intro _ hok
  change (decide (d < 64) && a.ok && b.ok) = true at hok
  simp only [Bool.and_eq_true, decide_eq_true_eq] at hok
  obtain ⟨⟨h1, h2⟩, h3⟩ := hok
  have g2 := encodeSrc_lt h2
  have g3 := encodeSrc_lt h3
  change decode (put (put (put 0x14000000 d 18) (encodeSrc a) 9) (encodeSrc b) 1) = _
  generalize hw : put (put (put 0x14000000 d 18) (encodeSrc a) 9) (encodeSrc b) 1 = wd
  simp only [put] at hw
  rw [decode_14 (by simp only [bits]; omega),
    if_pos (by simp only [bits]; omega),
    show bits wd 23 18 = d from by simp only [bits]; omega,
    decodeSrc_of (x := bits wd 16 9) h2 (by simp only [bits]; omega),
    decodeSrc_of (x := bits wd 8 1) h3 (by simp only [bits]; omega)]

theorem RoundTrip.iadd64 (d : Nat) (a : Src) (b : Src) : RoundTrip.Statement (.iadd64 d a b) := by
  intro _ hok
  change (decide (d < 64) && a.ok && b.ok) = true at hok
  simp only [Bool.and_eq_true, decide_eq_true_eq] at hok
  obtain ⟨⟨h1, h2⟩, h3⟩ := hok
  have g2 := encodeSrc_lt h2
  have g3 := encodeSrc_lt h3
  change decode (put (put (put 0x15000000 d 18) (encodeSrc a) 9) (encodeSrc b) 1) = _
  generalize hw : put (put (put 0x15000000 d 18) (encodeSrc a) 9) (encodeSrc b) 1 = wd
  simp only [put] at hw
  rw [decode_15 (by simp only [bits]; omega),
    if_pos (by simp only [bits]; omega),
    show bits wd 23 18 = d from by simp only [bits]; omega,
    decodeSrc_of (x := bits wd 16 9) h2 (by simp only [bits]; omega),
    decodeSrc_of (x := bits wd 8 1) h3 (by simp only [bits]; omega)]

theorem RoundTrip.imin (d : Nat) (a : Src) (b : Src) (m : Bool) : RoundTrip.Statement (.imin d a b m) := by
  intro _ hok
  change (decide (d < 64) && a.ok && b.ok) = true at hok
  simp only [Bool.and_eq_true, decide_eq_true_eq] at hok
  obtain ⟨⟨h1, h2⟩, h3⟩ := hok
  have g2 := encodeSrc_lt h2
  have g3 := encodeSrc_lt h3
  have fm := flagNat_lt m
  change decode (put (put (put (put 0x16000000 d 18) (encodeSrc a) 9) (encodeSrc b) 1) (flagNat m) 0) = _
  generalize hw : put (put (put (put 0x16000000 d 18) (encodeSrc a) 9) (encodeSrc b) 1) (flagNat m) 0 = wd
  simp only [put] at hw
  rw [decode_16 (by simp only [bits]; omega),
    if_pos (by simp only [bits]; omega),
    show bits wd 23 18 = d from by simp only [bits]; omega,
    decodeSrc_of (x := bits wd 16 9) h2 (by simp only [bits]; omega),
    decodeSrc_of (x := bits wd 8 1) h3 (by simp only [bits]; omega),
    flagBit_of (w := wd) (i := 0) (b := m) (by simp only [bits]; omega)]

theorem RoundTrip.imax (d : Nat) (a : Src) (b : Src) (m : Bool) : RoundTrip.Statement (.imax d a b m) := by
  intro _ hok
  change (decide (d < 64) && a.ok && b.ok) = true at hok
  simp only [Bool.and_eq_true, decide_eq_true_eq] at hok
  obtain ⟨⟨h1, h2⟩, h3⟩ := hok
  have g2 := encodeSrc_lt h2
  have g3 := encodeSrc_lt h3
  have fm := flagNat_lt m
  change decode (put (put (put (put 0x17000000 d 18) (encodeSrc a) 9) (encodeSrc b) 1) (flagNat m) 0) = _
  generalize hw : put (put (put (put 0x17000000 d 18) (encodeSrc a) 9) (encodeSrc b) 1) (flagNat m) 0 = wd
  simp only [put] at hw
  rw [decode_17 (by simp only [bits]; omega),
    if_pos (by simp only [bits]; omega),
    show bits wd 23 18 = d from by simp only [bits]; omega,
    decodeSrc_of (x := bits wd 16 9) h2 (by simp only [bits]; omega),
    decodeSrc_of (x := bits wd 8 1) h3 (by simp only [bits]; omega),
    flagBit_of (w := wd) (i := 0) (b := m) (by simp only [bits]; omega)]

theorem RoundTrip.iabs (d : Nat) (a : Src) : RoundTrip.Statement (.iabs d a) := by
  intro _ hok
  change (decide (d < 64) && a.ok) = true at hok
  simp only [Bool.and_eq_true, decide_eq_true_eq] at hok
  obtain ⟨h1, h2⟩ := hok
  have g2 := encodeSrc_lt h2
  change decode (put (put 0x18000000 d 18) (encodeSrc a) 9) = _
  generalize hw : put (put 0x18000000 d 18) (encodeSrc a) 9 = wd
  simp only [put] at hw
  rw [decode_18 (by simp only [bits]; omega),
    if_pos (by simp only [bits]; omega),
    show bits wd 23 18 = d from by simp only [bits]; omega,
    decodeSrc_of (x := bits wd 16 9) h2 (by simp only [bits]; omega)]

theorem RoundTrip.shl (d : Nat) (a : Src) (b : Src) : RoundTrip.Statement (.shl d a b) := by
  intro _ hok
  change (decide (d < 64) && a.ok && b.ok) = true at hok
  simp only [Bool.and_eq_true, decide_eq_true_eq] at hok
  obtain ⟨⟨h1, h2⟩, h3⟩ := hok
  have g2 := encodeSrc_lt h2
  have g3 := encodeSrc_lt h3
  change decode (put (put (put 0x19000000 d 18) (encodeSrc a) 9) (encodeSrc b) 1) = _
  generalize hw : put (put (put 0x19000000 d 18) (encodeSrc a) 9) (encodeSrc b) 1 = wd
  simp only [put] at hw
  rw [decode_19 (by simp only [bits]; omega),
    if_pos (by simp only [bits]; omega),
    show bits wd 23 18 = d from by simp only [bits]; omega,
    decodeSrc_of (x := bits wd 16 9) h2 (by simp only [bits]; omega),
    decodeSrc_of (x := bits wd 8 1) h3 (by simp only [bits]; omega)]

theorem RoundTrip.shr (d : Nat) (a : Src) (b : Src) : RoundTrip.Statement (.shr d a b) := by
  intro _ hok
  change (decide (d < 64) && a.ok && b.ok) = true at hok
  simp only [Bool.and_eq_true, decide_eq_true_eq] at hok
  obtain ⟨⟨h1, h2⟩, h3⟩ := hok
  have g2 := encodeSrc_lt h2
  have g3 := encodeSrc_lt h3
  change decode (put (put (put 0x1A000000 d 18) (encodeSrc a) 9) (encodeSrc b) 1) = _
  generalize hw : put (put (put 0x1A000000 d 18) (encodeSrc a) 9) (encodeSrc b) 1 = wd
  simp only [put] at hw
  rw [decode_1A (by simp only [bits]; omega),
    if_pos (by simp only [bits]; omega),
    show bits wd 23 18 = d from by simp only [bits]; omega,
    decodeSrc_of (x := bits wd 16 9) h2 (by simp only [bits]; omega),
    decodeSrc_of (x := bits wd 8 1) h3 (by simp only [bits]; omega)]

theorem RoundTrip.sar (d : Nat) (a : Src) (b : Src) : RoundTrip.Statement (.sar d a b) := by
  intro _ hok
  change (decide (d < 64) && a.ok && b.ok) = true at hok
  simp only [Bool.and_eq_true, decide_eq_true_eq] at hok
  obtain ⟨⟨h1, h2⟩, h3⟩ := hok
  have g2 := encodeSrc_lt h2
  have g3 := encodeSrc_lt h3
  change decode (put (put (put 0x1B000000 d 18) (encodeSrc a) 9) (encodeSrc b) 1) = _
  generalize hw : put (put (put 0x1B000000 d 18) (encodeSrc a) 9) (encodeSrc b) 1 = wd
  simp only [put] at hw
  rw [decode_1B (by simp only [bits]; omega),
    if_pos (by simp only [bits]; omega),
    show bits wd 23 18 = d from by simp only [bits]; omega,
    decodeSrc_of (x := bits wd 16 9) h2 (by simp only [bits]; omega),
    decodeSrc_of (x := bits wd 8 1) h3 (by simp only [bits]; omega)]

theorem RoundTrip.rot (d : Nat) (a : Src) (b : Src) (m : Bool) : RoundTrip.Statement (.rot d a b m) := by
  intro _ hok
  change (decide (d < 64) && a.ok && b.ok) = true at hok
  simp only [Bool.and_eq_true, decide_eq_true_eq] at hok
  obtain ⟨⟨h1, h2⟩, h3⟩ := hok
  have g2 := encodeSrc_lt h2
  have g3 := encodeSrc_lt h3
  have fm := flagNat_lt m
  change decode (put (put (put (put 0x1C000000 d 18) (encodeSrc a) 9) (encodeSrc b) 1) (flagNat m) 0) = _
  generalize hw : put (put (put (put 0x1C000000 d 18) (encodeSrc a) 9) (encodeSrc b) 1) (flagNat m) 0 = wd
  simp only [put] at hw
  rw [decode_1C (by simp only [bits]; omega),
    if_pos (by simp only [bits]; omega),
    show bits wd 23 18 = d from by simp only [bits]; omega,
    decodeSrc_of (x := bits wd 16 9) h2 (by simp only [bits]; omega),
    decodeSrc_of (x := bits wd 8 1) h3 (by simp only [bits]; omega),
    flagBit_of (w := wd) (i := 0) (b := m) (by simp only [bits]; omega)]

theorem RoundTrip.iand (d : Nat) (a : Src) (b : Src) : RoundTrip.Statement (.iand d a b) := by
  intro _ hok
  change (decide (d < 64) && a.ok && b.ok) = true at hok
  simp only [Bool.and_eq_true, decide_eq_true_eq] at hok
  obtain ⟨⟨h1, h2⟩, h3⟩ := hok
  have g2 := encodeSrc_lt h2
  have g3 := encodeSrc_lt h3
  change decode (put (put (put 0x1D000000 d 18) (encodeSrc a) 9) (encodeSrc b) 1) = _
  generalize hw : put (put (put 0x1D000000 d 18) (encodeSrc a) 9) (encodeSrc b) 1 = wd
  simp only [put] at hw
  rw [decode_1D (by simp only [bits]; omega),
    if_pos (by simp only [bits]; omega),
    show bits wd 23 18 = d from by simp only [bits]; omega,
    decodeSrc_of (x := bits wd 16 9) h2 (by simp only [bits]; omega),
    decodeSrc_of (x := bits wd 8 1) h3 (by simp only [bits]; omega)]

theorem RoundTrip.ior (d : Nat) (a : Src) (b : Src) : RoundTrip.Statement (.ior d a b) := by
  intro _ hok
  change (decide (d < 64) && a.ok && b.ok) = true at hok
  simp only [Bool.and_eq_true, decide_eq_true_eq] at hok
  obtain ⟨⟨h1, h2⟩, h3⟩ := hok
  have g2 := encodeSrc_lt h2
  have g3 := encodeSrc_lt h3
  change decode (put (put (put 0x1E000000 d 18) (encodeSrc a) 9) (encodeSrc b) 1) = _
  generalize hw : put (put (put 0x1E000000 d 18) (encodeSrc a) 9) (encodeSrc b) 1 = wd
  simp only [put] at hw
  rw [decode_1E (by simp only [bits]; omega),
    if_pos (by simp only [bits]; omega),
    show bits wd 23 18 = d from by simp only [bits]; omega,
    decodeSrc_of (x := bits wd 16 9) h2 (by simp only [bits]; omega),
    decodeSrc_of (x := bits wd 8 1) h3 (by simp only [bits]; omega)]

theorem RoundTrip.ixor (d : Nat) (a : Src) (b : Src) : RoundTrip.Statement (.ixor d a b) := by
  intro _ hok
  change (decide (d < 64) && a.ok && b.ok) = true at hok
  simp only [Bool.and_eq_true, decide_eq_true_eq] at hok
  obtain ⟨⟨h1, h2⟩, h3⟩ := hok
  have g2 := encodeSrc_lt h2
  have g3 := encodeSrc_lt h3
  change decode (put (put (put 0x1F000000 d 18) (encodeSrc a) 9) (encodeSrc b) 1) = _
  generalize hw : put (put (put 0x1F000000 d 18) (encodeSrc a) 9) (encodeSrc b) 1 = wd
  simp only [put] at hw
  rw [decode_1F (by simp only [bits]; omega),
    if_pos (by simp only [bits]; omega),
    show bits wd 23 18 = d from by simp only [bits]; omega,
    decodeSrc_of (x := bits wd 16 9) h2 (by simp only [bits]; omega),
    decodeSrc_of (x := bits wd 8 1) h3 (by simp only [bits]; omega)]

theorem RoundTrip.inot (d : Nat) (a : Src) : RoundTrip.Statement (.inot d a) := by
  intro _ hok
  change (decide (d < 64) && a.ok) = true at hok
  simp only [Bool.and_eq_true, decide_eq_true_eq] at hok
  obtain ⟨h1, h2⟩ := hok
  have g2 := encodeSrc_lt h2
  change decode (put (put 0x20000000 d 18) (encodeSrc a) 9) = _
  generalize hw : put (put 0x20000000 d 18) (encodeSrc a) 9 = wd
  simp only [put] at hw
  rw [decode_20 (by simp only [bits]; omega),
    if_pos (by simp only [bits]; omega),
    show bits wd 23 18 = d from by simp only [bits]; omega,
    decodeSrc_of (x := bits wd 16 9) h2 (by simp only [bits]; omega)]

theorem RoundTrip.bfe (d : Nat) (a : Src) (b : Src) (m : Bool) : RoundTrip.Statement (.bfe d a b m) := by
  intro _ hok
  change (decide (d < 64) && a.ok && b.ok) = true at hok
  simp only [Bool.and_eq_true, decide_eq_true_eq] at hok
  obtain ⟨⟨h1, h2⟩, h3⟩ := hok
  have g2 := encodeSrc_lt h2
  have g3 := encodeSrc_lt h3
  have fm := flagNat_lt m
  change decode (put (put (put (put 0x21000000 d 18) (encodeSrc a) 9) (encodeSrc b) 1) (flagNat m) 0) = _
  generalize hw : put (put (put (put 0x21000000 d 18) (encodeSrc a) 9) (encodeSrc b) 1) (flagNat m) 0 = wd
  simp only [put] at hw
  rw [decode_21 (by simp only [bits]; omega),
    if_pos (by simp only [bits]; omega),
    show bits wd 23 18 = d from by simp only [bits]; omega,
    decodeSrc_of (x := bits wd 16 9) h2 (by simp only [bits]; omega),
    decodeSrc_of (x := bits wd 8 1) h3 (by simp only [bits]; omega),
    flagBit_of (w := wd) (i := 0) (b := m) (by simp only [bits]; omega)]

theorem RoundTrip.bfi (d : Nat) (a : Src) (b : Src) : RoundTrip.Statement (.bfi d a b) := by
  intro _ hok
  change (decide (d < 64) && a.ok && b.ok) = true at hok
  simp only [Bool.and_eq_true, decide_eq_true_eq] at hok
  obtain ⟨⟨h1, h2⟩, h3⟩ := hok
  have g2 := encodeSrc_lt h2
  have g3 := encodeSrc_lt h3
  change decode (put (put (put 0x22000000 d 18) (encodeSrc a) 9) (encodeSrc b) 1) = _
  generalize hw : put (put (put 0x22000000 d 18) (encodeSrc a) 9) (encodeSrc b) 1 = wd
  simp only [put] at hw
  rw [decode_22 (by simp only [bits]; omega),
    if_pos (by simp only [bits]; omega),
    show bits wd 23 18 = d from by simp only [bits]; omega,
    decodeSrc_of (x := bits wd 16 9) h2 (by simp only [bits]; omega),
    decodeSrc_of (x := bits wd 8 1) h3 (by simp only [bits]; omega)]

theorem RoundTrip.popc (d : Nat) (a : Src) : RoundTrip.Statement (.popc d a) := by
  intro _ hok
  change (decide (d < 64) && a.ok) = true at hok
  simp only [Bool.and_eq_true, decide_eq_true_eq] at hok
  obtain ⟨h1, h2⟩ := hok
  have g2 := encodeSrc_lt h2
  change decode (put (put 0x23000000 d 18) (encodeSrc a) 9) = _
  generalize hw : put (put 0x23000000 d 18) (encodeSrc a) 9 = wd
  simp only [put] at hw
  rw [decode_23 (by simp only [bits]; omega),
    if_pos (by simp only [bits]; omega),
    show bits wd 23 18 = d from by simp only [bits]; omega,
    decodeSrc_of (x := bits wd 16 9) h2 (by simp only [bits]; omega)]

theorem RoundTrip.clz (d : Nat) (a : Src) : RoundTrip.Statement (.clz d a) := by
  intro _ hok
  change (decide (d < 64) && a.ok) = true at hok
  simp only [Bool.and_eq_true, decide_eq_true_eq] at hok
  obtain ⟨h1, h2⟩ := hok
  have g2 := encodeSrc_lt h2
  change decode (put (put 0x24000000 d 18) (encodeSrc a) 9) = _
  generalize hw : put (put 0x24000000 d 18) (encodeSrc a) 9 = wd
  simp only [put] at hw
  rw [decode_24 (by simp only [bits]; omega),
    if_pos (by simp only [bits]; omega),
    show bits wd 23 18 = d from by simp only [bits]; omega,
    decodeSrc_of (x := bits wd 16 9) h2 (by simp only [bits]; omega)]

theorem RoundTrip.brev (d : Nat) (a : Src) : RoundTrip.Statement (.brev d a) := by
  intro _ hok
  change (decide (d < 64) && a.ok) = true at hok
  simp only [Bool.and_eq_true, decide_eq_true_eq] at hok
  obtain ⟨h1, h2⟩ := hok
  have g2 := encodeSrc_lt h2
  change decode (put (put 0x25000000 d 18) (encodeSrc a) 9) = _
  generalize hw : put (put 0x25000000 d 18) (encodeSrc a) 9 = wd
  simp only [put] at hw
  rw [decode_25 (by simp only [bits]; omega),
    if_pos (by simp only [bits]; omega),
    show bits wd 23 18 = d from by simp only [bits]; omega,
    decodeSrc_of (x := bits wd 16 9) h2 (by simp only [bits]; omega)]

theorem RoundTrip.lea (d : Nat) (a : Src) (b : Src) : RoundTrip.Statement (.lea d a b) := by
  intro _ hok
  change (decide (d < 64) && a.ok && b.ok) = true at hok
  simp only [Bool.and_eq_true, decide_eq_true_eq] at hok
  obtain ⟨⟨h1, h2⟩, h3⟩ := hok
  have g2 := encodeSrc_lt h2
  have g3 := encodeSrc_lt h3
  change decode (put (put (put 0x26000000 d 18) (encodeSrc a) 9) (encodeSrc b) 1) = _
  generalize hw : put (put (put 0x26000000 d 18) (encodeSrc a) 9) (encodeSrc b) 1 = wd
  simp only [put] at hw
  rw [decode_26 (by simp only [bits]; omega),
    if_pos (by simp only [bits]; omega),
    show bits wd 23 18 = d from by simp only [bits]; omega,
    decodeSrc_of (x := bits wd 16 9) h2 (by simp only [bits]; omega),
    decodeSrc_of (x := bits wd 8 1) h3 (by simp only [bits]; omega)]

theorem RoundTrip.icmp (p : Nat) (c : Nat) (a : Src) (b : Src) (m : Bool) : RoundTrip.Statement (.icmp p c a b m) := by
  intro _ hok
  change (decide (p < 8) && decide (c < 8) && a.ok && b.ok) = true at hok
  simp only [Bool.and_eq_true, decide_eq_true_eq] at hok
  obtain ⟨⟨⟨h1, h2⟩, h3⟩, h4⟩ := hok
  have g3 := encodeSrc_lt h3
  have g4 := encodeSrc_lt h4
  have fm := flagNat_lt m
  change decode (put (put (put (put (put 0x27000000 p 21) c 18) (encodeSrc a) 9) (encodeSrc b) 1) (flagNat m) 0) = _
  generalize hw : put (put (put (put (put 0x27000000 p 21) c 18) (encodeSrc a) 9) (encodeSrc b) 1) (flagNat m) 0 = wd
  simp only [put] at hw
  rw [decode_27 (by simp only [bits]; omega),
    if_pos (by simp only [bits]; omega),
    show bits wd 23 21 = p from by simp only [bits]; omega,
    show bits wd 20 18 = c from by simp only [bits]; omega,
    decodeSrc_of (x := bits wd 16 9) h3 (by simp only [bits]; omega),
    decodeSrc_of (x := bits wd 8 1) h4 (by simp only [bits]; omega),
    flagBit_of (w := wd) (i := 0) (b := m) (by simp only [bits]; omega)]

theorem RoundTrip.isel (d : Nat) (p : Nat) (a : Src) (b : Nat) (n : Bool) : RoundTrip.Statement (.isel d p a b n) := by
  intro _ hok
  change (decide (d < 64) && decide (p < 8) && a.ok && decide (b < 64)) = true at hok
  simp only [Bool.and_eq_true, decide_eq_true_eq] at hok
  obtain ⟨⟨⟨h1, h2⟩, h3⟩, h4⟩ := hok
  have g3 := encodeSrc_lt h3
  have fn := flagNat_lt n
  change decode (put (put (put (put (put 0x28000000 d 18) p 15) (encodeSrc a) 7) b 1) (flagNat n) 0) = _
  generalize hw : put (put (put (put (put 0x28000000 d 18) p 15) (encodeSrc a) 7) b 1) (flagNat n) 0 = wd
  simp only [put] at hw
  rw [decode_28 (by simp only [bits]; omega),
    show bits wd 23 18 = d from by simp only [bits]; omega,
    show bits wd 17 15 = p from by simp only [bits]; omega,
    decodeSrc_of (x := bits wd 14 7) h3 (by simp only [bits]; omega),
    show bits wd 6 1 = b from by simp only [bits]; omega,
    flagBit_of (w := wd) (i := 0) (b := n) (by simp only [bits]; omega)]

theorem RoundTrip.idot4 (d : Nat) (a : Src) (b : Src) (m : Bool) : RoundTrip.Statement (.idot4 d a b m) := by
  intro _ hok
  change (decide (d < 64) && a.ok && b.ok) = true at hok
  simp only [Bool.and_eq_true, decide_eq_true_eq] at hok
  obtain ⟨⟨h1, h2⟩, h3⟩ := hok
  have g2 := encodeSrc_lt h2
  have g3 := encodeSrc_lt h3
  have fm := flagNat_lt m
  change decode (put (put (put (put 0x29000000 d 18) (encodeSrc a) 9) (encodeSrc b) 1) (flagNat m) 0) = _
  generalize hw : put (put (put (put 0x29000000 d 18) (encodeSrc a) 9) (encodeSrc b) 1) (flagNat m) 0 = wd
  simp only [put] at hw
  rw [decode_29 (by simp only [bits]; omega),
    if_pos (by simp only [bits]; omega),
    show bits wd 23 18 = d from by simp only [bits]; omega,
    decodeSrc_of (x := bits wd 16 9) h2 (by simp only [bits]; omega),
    decodeSrc_of (x := bits wd 8 1) h3 (by simp only [bits]; omega),
    flagBit_of (w := wd) (i := 0) (b := m) (by simp only [bits]; omega)]

theorem RoundTrip.pand (d : Nat) (a : Nat) (b : Nat) (i : Nat) : RoundTrip.Statement (.pand d a b i) := by
  intro _ hok
  change (decide (d < 8) && decide (a < 8) && decide (b < 8) && decide (i < 4)) = true at hok
  simp only [Bool.and_eq_true, decide_eq_true_eq] at hok
  obtain ⟨⟨⟨h1, h2⟩, h3⟩, h4⟩ := hok
  change decode (put (put (put (put 0x2A000000 d 18) a 12) b 6) i 0) = _
  generalize hw : put (put (put (put 0x2A000000 d 18) a 12) b 6) i 0 = wd
  simp only [put] at hw
  rw [decode_2A (by simp only [bits]; omega),
    if_pos (by simp only [bits]; omega),
    show bits wd 20 18 = d from by simp only [bits]; omega,
    show bits wd 14 12 = a from by simp only [bits]; omega,
    show bits wd 8 6 = b from by simp only [bits]; omega,
    show bits wd 1 0 = i from by simp only [bits]; omega]

theorem RoundTrip.por (d : Nat) (a : Nat) (b : Nat) (i : Nat) : RoundTrip.Statement (.por d a b i) := by
  intro _ hok
  change (decide (d < 8) && decide (a < 8) && decide (b < 8) && decide (i < 4)) = true at hok
  simp only [Bool.and_eq_true, decide_eq_true_eq] at hok
  obtain ⟨⟨⟨h1, h2⟩, h3⟩, h4⟩ := hok
  change decode (put (put (put (put 0x2B000000 d 18) a 12) b 6) i 0) = _
  generalize hw : put (put (put (put 0x2B000000 d 18) a 12) b 6) i 0 = wd
  simp only [put] at hw
  rw [decode_2B (by simp only [bits]; omega),
    if_pos (by simp only [bits]; omega),
    show bits wd 20 18 = d from by simp only [bits]; omega,
    show bits wd 14 12 = a from by simp only [bits]; omega,
    show bits wd 8 6 = b from by simp only [bits]; omega,
    show bits wd 1 0 = i from by simp only [bits]; omega]

theorem RoundTrip.pnot (d : Nat) (a : Nat) : RoundTrip.Statement (.pnot d a) := by
  intro _ hok
  change (decide (d < 8) && decide (a < 8)) = true at hok
  simp only [Bool.and_eq_true, decide_eq_true_eq] at hok
  obtain ⟨h1, h2⟩ := hok
  change decode (put (put 0x2C000000 d 18) a 12) = _
  generalize hw : put (put 0x2C000000 d 18) a 12 = wd
  simp only [put] at hw
  rw [decode_2C (by simp only [bits]; omega),
    if_pos (by simp only [bits]; omega),
    show bits wd 20 18 = d from by simp only [bits]; omega,
    show bits wd 14 12 = a from by simp only [bits]; omega]

theorem RoundTrip.fadd (d : Nat) (a : Src) (b : Src) (m : Bool) : RoundTrip.Statement (.fadd d a b m) := by
  intro _ hok
  change (decide (d < 64) && a.ok && b.ok) = true at hok
  simp only [Bool.and_eq_true, decide_eq_true_eq] at hok
  obtain ⟨⟨h1, h2⟩, h3⟩ := hok
  have g2 := encodeSrc_lt h2
  have g3 := encodeSrc_lt h3
  have fm := flagNat_lt m
  change decode (put (put (put (put 0x30000000 d 18) (encodeSrc a) 9) (encodeSrc b) 1) (flagNat m) 0) = _
  generalize hw : put (put (put (put 0x30000000 d 18) (encodeSrc a) 9) (encodeSrc b) 1) (flagNat m) 0 = wd
  simp only [put] at hw
  rw [decode_30 (by simp only [bits]; omega),
    if_pos (by simp only [bits]; omega),
    show bits wd 23 18 = d from by simp only [bits]; omega,
    decodeSrc_of (x := bits wd 16 9) h2 (by simp only [bits]; omega),
    decodeSrc_of (x := bits wd 8 1) h3 (by simp only [bits]; omega),
    flagBit_of (w := wd) (i := 0) (b := m) (by simp only [bits]; omega)]

theorem RoundTrip.fsub (d : Nat) (a : Src) (b : Src) (m : Bool) : RoundTrip.Statement (.fsub d a b m) := by
  intro _ hok
  change (decide (d < 64) && a.ok && b.ok) = true at hok
  simp only [Bool.and_eq_true, decide_eq_true_eq] at hok
  obtain ⟨⟨h1, h2⟩, h3⟩ := hok
  have g2 := encodeSrc_lt h2
  have g3 := encodeSrc_lt h3
  have fm := flagNat_lt m
  change decode (put (put (put (put 0x31000000 d 18) (encodeSrc a) 9) (encodeSrc b) 1) (flagNat m) 0) = _
  generalize hw : put (put (put (put 0x31000000 d 18) (encodeSrc a) 9) (encodeSrc b) 1) (flagNat m) 0 = wd
  simp only [put] at hw
  rw [decode_31 (by simp only [bits]; omega),
    if_pos (by simp only [bits]; omega),
    show bits wd 23 18 = d from by simp only [bits]; omega,
    decodeSrc_of (x := bits wd 16 9) h2 (by simp only [bits]; omega),
    decodeSrc_of (x := bits wd 8 1) h3 (by simp only [bits]; omega),
    flagBit_of (w := wd) (i := 0) (b := m) (by simp only [bits]; omega)]

theorem RoundTrip.fmul (d : Nat) (a : Src) (b : Src) (m : Bool) : RoundTrip.Statement (.fmul d a b m) := by
  intro _ hok
  change (decide (d < 64) && a.ok && b.ok) = true at hok
  simp only [Bool.and_eq_true, decide_eq_true_eq] at hok
  obtain ⟨⟨h1, h2⟩, h3⟩ := hok
  have g2 := encodeSrc_lt h2
  have g3 := encodeSrc_lt h3
  have fm := flagNat_lt m
  change decode (put (put (put (put 0x32000000 d 18) (encodeSrc a) 9) (encodeSrc b) 1) (flagNat m) 0) = _
  generalize hw : put (put (put (put 0x32000000 d 18) (encodeSrc a) 9) (encodeSrc b) 1) (flagNat m) 0 = wd
  simp only [put] at hw
  rw [decode_32 (by simp only [bits]; omega),
    if_pos (by simp only [bits]; omega),
    show bits wd 23 18 = d from by simp only [bits]; omega,
    decodeSrc_of (x := bits wd 16 9) h2 (by simp only [bits]; omega),
    decodeSrc_of (x := bits wd 8 1) h3 (by simp only [bits]; omega),
    flagBit_of (w := wd) (i := 0) (b := m) (by simp only [bits]; omega)]

theorem RoundTrip.fma (d : Nat) (a : Src) (b : Src) (m : Bool) : RoundTrip.Statement (.fma d a b m) := by
  intro _ hok
  change (decide (d < 64) && a.ok && b.ok) = true at hok
  simp only [Bool.and_eq_true, decide_eq_true_eq] at hok
  obtain ⟨⟨h1, h2⟩, h3⟩ := hok
  have g2 := encodeSrc_lt h2
  have g3 := encodeSrc_lt h3
  have fm := flagNat_lt m
  change decode (put (put (put (put 0x33000000 d 18) (encodeSrc a) 9) (encodeSrc b) 1) (flagNat m) 0) = _
  generalize hw : put (put (put (put 0x33000000 d 18) (encodeSrc a) 9) (encodeSrc b) 1) (flagNat m) 0 = wd
  simp only [put] at hw
  rw [decode_33 (by simp only [bits]; omega),
    if_pos (by simp only [bits]; omega),
    show bits wd 23 18 = d from by simp only [bits]; omega,
    decodeSrc_of (x := bits wd 16 9) h2 (by simp only [bits]; omega),
    decodeSrc_of (x := bits wd 8 1) h3 (by simp only [bits]; omega),
    flagBit_of (w := wd) (i := 0) (b := m) (by simp only [bits]; omega)]

theorem RoundTrip.fmin (d : Nat) (a : Src) (b : Src) : RoundTrip.Statement (.fmin d a b) := by
  intro _ hok
  change (decide (d < 64) && a.ok && b.ok) = true at hok
  simp only [Bool.and_eq_true, decide_eq_true_eq] at hok
  obtain ⟨⟨h1, h2⟩, h3⟩ := hok
  have g2 := encodeSrc_lt h2
  have g3 := encodeSrc_lt h3
  change decode (put (put (put 0x34000000 d 18) (encodeSrc a) 9) (encodeSrc b) 1) = _
  generalize hw : put (put (put 0x34000000 d 18) (encodeSrc a) 9) (encodeSrc b) 1 = wd
  simp only [put] at hw
  rw [decode_34 (by simp only [bits]; omega),
    if_pos (by simp only [bits]; omega),
    show bits wd 23 18 = d from by simp only [bits]; omega,
    decodeSrc_of (x := bits wd 16 9) h2 (by simp only [bits]; omega),
    decodeSrc_of (x := bits wd 8 1) h3 (by simp only [bits]; omega)]

theorem RoundTrip.fmax (d : Nat) (a : Src) (b : Src) : RoundTrip.Statement (.fmax d a b) := by
  intro _ hok
  change (decide (d < 64) && a.ok && b.ok) = true at hok
  simp only [Bool.and_eq_true, decide_eq_true_eq] at hok
  obtain ⟨⟨h1, h2⟩, h3⟩ := hok
  have g2 := encodeSrc_lt h2
  have g3 := encodeSrc_lt h3
  change decode (put (put (put 0x35000000 d 18) (encodeSrc a) 9) (encodeSrc b) 1) = _
  generalize hw : put (put (put 0x35000000 d 18) (encodeSrc a) 9) (encodeSrc b) 1 = wd
  simp only [put] at hw
  rw [decode_35 (by simp only [bits]; omega),
    if_pos (by simp only [bits]; omega),
    show bits wd 23 18 = d from by simp only [bits]; omega,
    decodeSrc_of (x := bits wd 16 9) h2 (by simp only [bits]; omega),
    decodeSrc_of (x := bits wd 8 1) h3 (by simp only [bits]; omega)]

theorem RoundTrip.fcmp (p : Nat) (c : Nat) (a : Src) (b : Src) : RoundTrip.Statement (.fcmp p c a b) := by
  intro _ hok
  change (decide (p < 8) && decide (c < 8) && a.ok && b.ok) = true at hok
  simp only [Bool.and_eq_true, decide_eq_true_eq] at hok
  obtain ⟨⟨⟨h1, h2⟩, h3⟩, h4⟩ := hok
  have g3 := encodeSrc_lt h3
  have g4 := encodeSrc_lt h4
  change decode (put (put (put (put 0x36000000 p 21) c 18) (encodeSrc a) 9) (encodeSrc b) 1) = _
  generalize hw : put (put (put (put 0x36000000 p 21) c 18) (encodeSrc a) 9) (encodeSrc b) 1 = wd
  simp only [put] at hw
  rw [decode_36 (by simp only [bits]; omega),
    if_pos (by simp only [bits]; omega),
    show bits wd 23 21 = p from by simp only [bits]; omega,
    show bits wd 20 18 = c from by simp only [bits]; omega,
    decodeSrc_of (x := bits wd 16 9) h3 (by simp only [bits]; omega),
    decodeSrc_of (x := bits wd 8 1) h4 (by simp only [bits]; omega)]

theorem RoundTrip.fsel (d : Nat) (p : Nat) (a : Src) (b : Nat) (n : Bool) : RoundTrip.Statement (.fsel d p a b n) := by
  intro _ hok
  change (decide (d < 64) && decide (p < 8) && a.ok && decide (b < 64)) = true at hok
  simp only [Bool.and_eq_true, decide_eq_true_eq] at hok
  obtain ⟨⟨⟨h1, h2⟩, h3⟩, h4⟩ := hok
  have g3 := encodeSrc_lt h3
  have fn := flagNat_lt n
  change decode (put (put (put (put (put 0x37000000 d 18) p 15) (encodeSrc a) 7) b 1) (flagNat n) 0) = _
  generalize hw : put (put (put (put (put 0x37000000 d 18) p 15) (encodeSrc a) 7) b 1) (flagNat n) 0 = wd
  simp only [put] at hw
  rw [decode_37 (by simp only [bits]; omega),
    show bits wd 23 18 = d from by simp only [bits]; omega,
    show bits wd 17 15 = p from by simp only [bits]; omega,
    decodeSrc_of (x := bits wd 14 7) h3 (by simp only [bits]; omega),
    show bits wd 6 1 = b from by simp only [bits]; omega,
    flagBit_of (w := wd) (i := 0) (b := n) (by simp only [bits]; omega)]

theorem RoundTrip.frcp (d : Nat) (a : Src) : RoundTrip.Statement (.frcp d a) := by
  intro _ hok
  change (decide (d < 64) && a.ok) = true at hok
  simp only [Bool.and_eq_true, decide_eq_true_eq] at hok
  obtain ⟨h1, h2⟩ := hok
  have g2 := encodeSrc_lt h2
  change decode (put (put 0x38000000 d 18) (encodeSrc a) 9) = _
  generalize hw : put (put 0x38000000 d 18) (encodeSrc a) 9 = wd
  simp only [put] at hw
  rw [decode_38 (by simp only [bits]; omega),
    if_pos (by simp only [bits]; omega),
    show bits wd 23 18 = d from by simp only [bits]; omega,
    decodeSrc_of (x := bits wd 16 9) h2 (by simp only [bits]; omega)]

theorem RoundTrip.frsq (d : Nat) (a : Src) : RoundTrip.Statement (.frsq d a) := by
  intro _ hok
  change (decide (d < 64) && a.ok) = true at hok
  simp only [Bool.and_eq_true, decide_eq_true_eq] at hok
  obtain ⟨h1, h2⟩ := hok
  have g2 := encodeSrc_lt h2
  change decode (put (put 0x39000000 d 18) (encodeSrc a) 9) = _
  generalize hw : put (put 0x39000000 d 18) (encodeSrc a) 9 = wd
  simp only [put] at hw
  rw [decode_39 (by simp only [bits]; omega),
    if_pos (by simp only [bits]; omega),
    show bits wd 23 18 = d from by simp only [bits]; omega,
    decodeSrc_of (x := bits wd 16 9) h2 (by simp only [bits]; omega)]

theorem RoundTrip.fsqrt (d : Nat) (a : Src) : RoundTrip.Statement (.fsqrt d a) := by
  intro _ hok
  change (decide (d < 64) && a.ok) = true at hok
  simp only [Bool.and_eq_true, decide_eq_true_eq] at hok
  obtain ⟨h1, h2⟩ := hok
  have g2 := encodeSrc_lt h2
  change decode (put (put 0x3A000000 d 18) (encodeSrc a) 9) = _
  generalize hw : put (put 0x3A000000 d 18) (encodeSrc a) 9 = wd
  simp only [put] at hw
  rw [decode_3A (by simp only [bits]; omega),
    if_pos (by simp only [bits]; omega),
    show bits wd 23 18 = d from by simp only [bits]; omega,
    decodeSrc_of (x := bits wd 16 9) h2 (by simp only [bits]; omega)]

theorem RoundTrip.fexp2 (d : Nat) (a : Src) : RoundTrip.Statement (.fexp2 d a) := by
  intro _ hok
  change (decide (d < 64) && a.ok) = true at hok
  simp only [Bool.and_eq_true, decide_eq_true_eq] at hok
  obtain ⟨h1, h2⟩ := hok
  have g2 := encodeSrc_lt h2
  change decode (put (put 0x3B000000 d 18) (encodeSrc a) 9) = _
  generalize hw : put (put 0x3B000000 d 18) (encodeSrc a) 9 = wd
  simp only [put] at hw
  rw [decode_3B (by simp only [bits]; omega),
    if_pos (by simp only [bits]; omega),
    show bits wd 23 18 = d from by simp only [bits]; omega,
    decodeSrc_of (x := bits wd 16 9) h2 (by simp only [bits]; omega)]

theorem RoundTrip.flog2 (d : Nat) (a : Src) : RoundTrip.Statement (.flog2 d a) := by
  intro _ hok
  change (decide (d < 64) && a.ok) = true at hok
  simp only [Bool.and_eq_true, decide_eq_true_eq] at hok
  obtain ⟨h1, h2⟩ := hok
  have g2 := encodeSrc_lt h2
  change decode (put (put 0x3C000000 d 18) (encodeSrc a) 9) = _
  generalize hw : put (put 0x3C000000 d 18) (encodeSrc a) 9 = wd
  simp only [put] at hw
  rw [decode_3C (by simp only [bits]; omega),
    if_pos (by simp only [bits]; omega),
    show bits wd 23 18 = d from by simp only [bits]; omega,
    decodeSrc_of (x := bits wd 16 9) h2 (by simp only [bits]; omega)]

theorem RoundTrip.fsin (d : Nat) (a : Src) : RoundTrip.Statement (.fsin d a) := by
  intro _ hok
  change (decide (d < 64) && a.ok) = true at hok
  simp only [Bool.and_eq_true, decide_eq_true_eq] at hok
  obtain ⟨h1, h2⟩ := hok
  have g2 := encodeSrc_lt h2
  change decode (put (put 0x3D000000 d 18) (encodeSrc a) 9) = _
  generalize hw : put (put 0x3D000000 d 18) (encodeSrc a) 9 = wd
  simp only [put] at hw
  rw [decode_3D (by simp only [bits]; omega),
    if_pos (by simp only [bits]; omega),
    show bits wd 23 18 = d from by simp only [bits]; omega,
    decodeSrc_of (x := bits wd 16 9) h2 (by simp only [bits]; omega)]

theorem RoundTrip.fcos (d : Nat) (a : Src) : RoundTrip.Statement (.fcos d a) := by
  intro _ hok
  change (decide (d < 64) && a.ok) = true at hok
  simp only [Bool.and_eq_true, decide_eq_true_eq] at hok
  obtain ⟨h1, h2⟩ := hok
  have g2 := encodeSrc_lt h2
  change decode (put (put 0x3E000000 d 18) (encodeSrc a) 9) = _
  generalize hw : put (put 0x3E000000 d 18) (encodeSrc a) 9 = wd
  simp only [put] at hw
  rw [decode_3E (by simp only [bits]; omega),
    if_pos (by simp only [bits]; omega),
    show bits wd 23 18 = d from by simp only [bits]; omega,
    decodeSrc_of (x := bits wd 16 9) h2 (by simp only [bits]; omega)]

theorem RoundTrip.ffrc (d : Nat) (a : Src) : RoundTrip.Statement (.ffrc d a) := by
  intro _ hok
  change (decide (d < 64) && a.ok) = true at hok
  simp only [Bool.and_eq_true, decide_eq_true_eq] at hok
  obtain ⟨h1, h2⟩ := hok
  have g2 := encodeSrc_lt h2
  change decode (put (put 0x3F000000 d 18) (encodeSrc a) 9) = _
  generalize hw : put (put 0x3F000000 d 18) (encodeSrc a) 9 = wd
  simp only [put] at hw
  rw [decode_3F (by simp only [bits]; omega),
    if_pos (by simp only [bits]; omega),
    show bits wd 23 18 = d from by simp only [bits]; omega,
    decodeSrc_of (x := bits wd 16 9) h2 (by simp only [bits]; omega)]

theorem RoundTrip.frnd (d : Nat) (a : Src) (r : Nat) : RoundTrip.Statement (.frnd d a r) := by
  intro _ hok
  change (decide (d < 64) && a.ok && decide (r < 256)) = true at hok
  simp only [Bool.and_eq_true, decide_eq_true_eq] at hok
  obtain ⟨⟨h1, h2⟩, h3⟩ := hok
  have g2 := encodeSrc_lt h2
  change decode (put (put (put 0x40000000 d 18) (encodeSrc a) 9) r 1) = _
  generalize hw : put (put (put 0x40000000 d 18) (encodeSrc a) 9) r 1 = wd
  simp only [put] at hw
  rw [decode_40 (by simp only [bits]; omega),
    if_pos (by simp only [bits]; omega),
    show bits wd 23 18 = d from by simp only [bits]; omega,
    decodeSrc_of (x := bits wd 16 9) h2 (by simp only [bits]; omega),
    show bits wd 8 1 = r from by simp only [bits]; omega]

theorem RoundTrip.hadd2 (d : Nat) (a : Src) (b : Src) (m : Bool) : RoundTrip.Statement (.hadd2 d a b m) := by
  intro _ hok
  change (decide (d < 64) && a.ok && b.ok) = true at hok
  simp only [Bool.and_eq_true, decide_eq_true_eq] at hok
  obtain ⟨⟨h1, h2⟩, h3⟩ := hok
  have g2 := encodeSrc_lt h2
  have g3 := encodeSrc_lt h3
  have fm := flagNat_lt m
  change decode (put (put (put (put 0x48000000 d 18) (encodeSrc a) 9) (encodeSrc b) 1) (flagNat m) 0) = _
  generalize hw : put (put (put (put 0x48000000 d 18) (encodeSrc a) 9) (encodeSrc b) 1) (flagNat m) 0 = wd
  simp only [put] at hw
  rw [decode_48 (by simp only [bits]; omega),
    if_pos (by simp only [bits]; omega),
    show bits wd 23 18 = d from by simp only [bits]; omega,
    decodeSrc_of (x := bits wd 16 9) h2 (by simp only [bits]; omega),
    decodeSrc_of (x := bits wd 8 1) h3 (by simp only [bits]; omega),
    flagBit_of (w := wd) (i := 0) (b := m) (by simp only [bits]; omega)]

theorem RoundTrip.hmul2 (d : Nat) (a : Src) (b : Src) (m : Bool) : RoundTrip.Statement (.hmul2 d a b m) := by
  intro _ hok
  change (decide (d < 64) && a.ok && b.ok) = true at hok
  simp only [Bool.and_eq_true, decide_eq_true_eq] at hok
  obtain ⟨⟨h1, h2⟩, h3⟩ := hok
  have g2 := encodeSrc_lt h2
  have g3 := encodeSrc_lt h3
  have fm := flagNat_lt m
  change decode (put (put (put (put 0x49000000 d 18) (encodeSrc a) 9) (encodeSrc b) 1) (flagNat m) 0) = _
  generalize hw : put (put (put (put 0x49000000 d 18) (encodeSrc a) 9) (encodeSrc b) 1) (flagNat m) 0 = wd
  simp only [put] at hw
  rw [decode_49 (by simp only [bits]; omega),
    if_pos (by simp only [bits]; omega),
    show bits wd 23 18 = d from by simp only [bits]; omega,
    decodeSrc_of (x := bits wd 16 9) h2 (by simp only [bits]; omega),
    decodeSrc_of (x := bits wd 8 1) h3 (by simp only [bits]; omega),
    flagBit_of (w := wd) (i := 0) (b := m) (by simp only [bits]; omega)]

theorem RoundTrip.hfma2 (d : Nat) (a : Src) (b : Src) (m : Bool) : RoundTrip.Statement (.hfma2 d a b m) := by
  intro _ hok
  change (decide (d < 64) && a.ok && b.ok) = true at hok
  simp only [Bool.and_eq_true, decide_eq_true_eq] at hok
  obtain ⟨⟨h1, h2⟩, h3⟩ := hok
  have g2 := encodeSrc_lt h2
  have g3 := encodeSrc_lt h3
  have fm := flagNat_lt m
  change decode (put (put (put (put 0x4A000000 d 18) (encodeSrc a) 9) (encodeSrc b) 1) (flagNat m) 0) = _
  generalize hw : put (put (put (put 0x4A000000 d 18) (encodeSrc a) 9) (encodeSrc b) 1) (flagNat m) 0 = wd
  simp only [put] at hw
  rw [decode_4A (by simp only [bits]; omega),
    if_pos (by simp only [bits]; omega),
    show bits wd 23 18 = d from by simp only [bits]; omega,
    decodeSrc_of (x := bits wd 16 9) h2 (by simp only [bits]; omega),
    decodeSrc_of (x := bits wd 8 1) h3 (by simp only [bits]; omega),
    flagBit_of (w := wd) (i := 0) (b := m) (by simp only [bits]; omega)]

theorem RoundTrip.hmin2 (d : Nat) (a : Src) (b : Src) (m : Bool) : RoundTrip.Statement (.hmin2 d a b m) := by
  intro _ hok
  change (decide (d < 64) && a.ok && b.ok) = true at hok
  simp only [Bool.and_eq_true, decide_eq_true_eq] at hok
  obtain ⟨⟨h1, h2⟩, h3⟩ := hok
  have g2 := encodeSrc_lt h2
  have g3 := encodeSrc_lt h3
  have fm := flagNat_lt m
  change decode (put (put (put (put 0x4B000000 d 18) (encodeSrc a) 9) (encodeSrc b) 1) (flagNat m) 0) = _
  generalize hw : put (put (put (put 0x4B000000 d 18) (encodeSrc a) 9) (encodeSrc b) 1) (flagNat m) 0 = wd
  simp only [put] at hw
  rw [decode_4B (by simp only [bits]; omega),
    if_pos (by simp only [bits]; omega),
    show bits wd 23 18 = d from by simp only [bits]; omega,
    decodeSrc_of (x := bits wd 16 9) h2 (by simp only [bits]; omega),
    decodeSrc_of (x := bits wd 8 1) h3 (by simp only [bits]; omega),
    flagBit_of (w := wd) (i := 0) (b := m) (by simp only [bits]; omega)]

theorem RoundTrip.hmax2 (d : Nat) (a : Src) (b : Src) (m : Bool) : RoundTrip.Statement (.hmax2 d a b m) := by
  intro _ hok
  change (decide (d < 64) && a.ok && b.ok) = true at hok
  simp only [Bool.and_eq_true, decide_eq_true_eq] at hok
  obtain ⟨⟨h1, h2⟩, h3⟩ := hok
  have g2 := encodeSrc_lt h2
  have g3 := encodeSrc_lt h3
  have fm := flagNat_lt m
  change decode (put (put (put (put 0x4C000000 d 18) (encodeSrc a) 9) (encodeSrc b) 1) (flagNat m) 0) = _
  generalize hw : put (put (put (put 0x4C000000 d 18) (encodeSrc a) 9) (encodeSrc b) 1) (flagNat m) 0 = wd
  simp only [put] at hw
  rw [decode_4C (by simp only [bits]; omega),
    if_pos (by simp only [bits]; omega),
    show bits wd 23 18 = d from by simp only [bits]; omega,
    decodeSrc_of (x := bits wd 16 9) h2 (by simp only [bits]; omega),
    decodeSrc_of (x := bits wd 8 1) h3 (by simp only [bits]; omega),
    flagBit_of (w := wd) (i := 0) (b := m) (by simp only [bits]; omega)]

theorem RoundTrip.sadd (d : Nat) (a : Src) (b : Src) : RoundTrip.Statement (.sadd d a b) := by
  intro _ hok
  change (decide (d < 64) && a.ok && b.ok) = true at hok
  simp only [Bool.and_eq_true, decide_eq_true_eq] at hok
  obtain ⟨⟨h1, h2⟩, h3⟩ := hok
  have g2 := encodeSrc_lt h2
  have g3 := encodeSrc_lt h3
  change decode (put (put (put 0x50020000 d 18) (encodeSrc a) 9) (encodeSrc b) 1) = _
  generalize hw : put (put (put 0x50020000 d 18) (encodeSrc a) 9) (encodeSrc b) 1 = wd
  simp only [put] at hw
  rw [decode_50 (by simp only [bits]; omega),
    if_pos (by simp only [bits]; omega),
    show bits wd 23 18 = d from by simp only [bits]; omega,
    decodeSrc_of (x := bits wd 16 9) h2 (by simp only [bits]; omega),
    decodeSrc_of (x := bits wd 8 1) h3 (by simp only [bits]; omega)]

theorem RoundTrip.ssub (d : Nat) (a : Src) (b : Src) : RoundTrip.Statement (.ssub d a b) := by
  intro _ hok
  change (decide (d < 64) && a.ok && b.ok) = true at hok
  simp only [Bool.and_eq_true, decide_eq_true_eq] at hok
  obtain ⟨⟨h1, h2⟩, h3⟩ := hok
  have g2 := encodeSrc_lt h2
  have g3 := encodeSrc_lt h3
  change decode (put (put (put 0x51020000 d 18) (encodeSrc a) 9) (encodeSrc b) 1) = _
  generalize hw : put (put (put 0x51020000 d 18) (encodeSrc a) 9) (encodeSrc b) 1 = wd
  simp only [put] at hw
  rw [decode_51 (by simp only [bits]; omega),
    if_pos (by simp only [bits]; omega),
    show bits wd 23 18 = d from by simp only [bits]; omega,
    decodeSrc_of (x := bits wd 16 9) h2 (by simp only [bits]; omega),
    decodeSrc_of (x := bits wd 8 1) h3 (by simp only [bits]; omega)]

theorem RoundTrip.smul (d : Nat) (a : Src) (b : Src) : RoundTrip.Statement (.smul d a b) := by
  intro _ hok
  change (decide (d < 64) && a.ok && b.ok) = true at hok
  simp only [Bool.and_eq_true, decide_eq_true_eq] at hok
  obtain ⟨⟨h1, h2⟩, h3⟩ := hok
  have g2 := encodeSrc_lt h2
  have g3 := encodeSrc_lt h3
  change decode (put (put (put 0x52020000 d 18) (encodeSrc a) 9) (encodeSrc b) 1) = _
  generalize hw : put (put (put 0x52020000 d 18) (encodeSrc a) 9) (encodeSrc b) 1 = wd
  simp only [put] at hw
  rw [decode_52 (by simp only [bits]; omega),
    if_pos (by simp only [bits]; omega),
    show bits wd 23 18 = d from by simp only [bits]; omega,
    decodeSrc_of (x := bits wd 16 9) h2 (by simp only [bits]; omega),
    decodeSrc_of (x := bits wd 8 1) h3 (by simp only [bits]; omega)]

theorem RoundTrip.sand (d : Nat) (a : Src) (b : Src) : RoundTrip.Statement (.sand d a b) := by
  intro _ hok
  change (decide (d < 64) && a.ok && b.ok) = true at hok
  simp only [Bool.and_eq_true, decide_eq_true_eq] at hok
  obtain ⟨⟨h1, h2⟩, h3⟩ := hok
  have g2 := encodeSrc_lt h2
  have g3 := encodeSrc_lt h3
  change decode (put (put (put 0x53020000 d 18) (encodeSrc a) 9) (encodeSrc b) 1) = _
  generalize hw : put (put (put 0x53020000 d 18) (encodeSrc a) 9) (encodeSrc b) 1 = wd
  simp only [put] at hw
  rw [decode_53 (by simp only [bits]; omega),
    if_pos (by simp only [bits]; omega),
    show bits wd 23 18 = d from by simp only [bits]; omega,
    decodeSrc_of (x := bits wd 16 9) h2 (by simp only [bits]; omega),
    decodeSrc_of (x := bits wd 8 1) h3 (by simp only [bits]; omega)]

theorem RoundTrip.sor (d : Nat) (a : Src) (b : Src) : RoundTrip.Statement (.sor d a b) := by
  intro _ hok
  change (decide (d < 64) && a.ok && b.ok) = true at hok
  simp only [Bool.and_eq_true, decide_eq_true_eq] at hok
  obtain ⟨⟨h1, h2⟩, h3⟩ := hok
  have g2 := encodeSrc_lt h2
  have g3 := encodeSrc_lt h3
  change decode (put (put (put 0x54020000 d 18) (encodeSrc a) 9) (encodeSrc b) 1) = _
  generalize hw : put (put (put 0x54020000 d 18) (encodeSrc a) 9) (encodeSrc b) 1 = wd
  simp only [put] at hw
  rw [decode_54 (by simp only [bits]; omega),
    if_pos (by simp only [bits]; omega),
    show bits wd 23 18 = d from by simp only [bits]; omega,
    decodeSrc_of (x := bits wd 16 9) h2 (by simp only [bits]; omega),
    decodeSrc_of (x := bits wd 8 1) h3 (by simp only [bits]; omega)]

theorem RoundTrip.sxor (d : Nat) (a : Src) (b : Src) : RoundTrip.Statement (.sxor d a b) := by
  intro _ hok
  change (decide (d < 64) && a.ok && b.ok) = true at hok
  simp only [Bool.and_eq_true, decide_eq_true_eq] at hok
  obtain ⟨⟨h1, h2⟩, h3⟩ := hok
  have g2 := encodeSrc_lt h2
  have g3 := encodeSrc_lt h3
  change decode (put (put (put 0x55020000 d 18) (encodeSrc a) 9) (encodeSrc b) 1) = _
  generalize hw : put (put (put 0x55020000 d 18) (encodeSrc a) 9) (encodeSrc b) 1 = wd
  simp only [put] at hw
  rw [decode_55 (by simp only [bits]; omega),
    if_pos (by simp only [bits]; omega),
    show bits wd 23 18 = d from by simp only [bits]; omega,
    decodeSrc_of (x := bits wd 16 9) h2 (by simp only [bits]; omega),
    decodeSrc_of (x := bits wd 8 1) h3 (by simp only [bits]; omega)]

theorem RoundTrip.sshl (d : Nat) (a : Src) (b : Src) : RoundTrip.Statement (.sshl d a b) := by
  intro _ hok
  change (decide (d < 64) && a.ok && b.ok) = true at hok
  simp only [Bool.and_eq_true, decide_eq_true_eq] at hok
  obtain ⟨⟨h1, h2⟩, h3⟩ := hok
  have g2 := encodeSrc_lt h2
  have g3 := encodeSrc_lt h3
  change decode (put (put (put 0x56020000 d 18) (encodeSrc a) 9) (encodeSrc b) 1) = _
  generalize hw : put (put (put 0x56020000 d 18) (encodeSrc a) 9) (encodeSrc b) 1 = wd
  simp only [put] at hw
  rw [decode_56 (by simp only [bits]; omega),
    if_pos (by simp only [bits]; omega),
    show bits wd 23 18 = d from by simp only [bits]; omega,
    decodeSrc_of (x := bits wd 16 9) h2 (by simp only [bits]; omega),
    decodeSrc_of (x := bits wd 8 1) h3 (by simp only [bits]; omega)]

theorem RoundTrip.sshr (d : Nat) (a : Src) (b : Src) (m : Bool) : RoundTrip.Statement (.sshr d a b m) := by
  intro _ hok
  change (decide (d < 64) && a.ok && b.ok) = true at hok
  simp only [Bool.and_eq_true, decide_eq_true_eq] at hok
  obtain ⟨⟨h1, h2⟩, h3⟩ := hok
  have g2 := encodeSrc_lt h2
  have g3 := encodeSrc_lt h3
  have fm := flagNat_lt m
  change decode (put (put (put (put 0x57020000 d 18) (encodeSrc a) 9) (encodeSrc b) 1) (flagNat m) 0) = _
  generalize hw : put (put (put (put 0x57020000 d 18) (encodeSrc a) 9) (encodeSrc b) 1) (flagNat m) 0 = wd
  simp only [put] at hw
  rw [decode_57 (by simp only [bits]; omega),
    if_pos (by simp only [bits]; omega),
    show bits wd 23 18 = d from by simp only [bits]; omega,
    decodeSrc_of (x := bits wd 16 9) h2 (by simp only [bits]; omega),
    decodeSrc_of (x := bits wd 8 1) h3 (by simp only [bits]; omega),
    flagBit_of (w := wd) (i := 0) (b := m) (by simp only [bits]; omega)]

theorem RoundTrip.scmp (p : Nat) (c : Nat) (a : Src) (b : Src) (m : Bool) : RoundTrip.Statement (.scmp p c a b m) := by
  intro _ hok
  change (decide (p < 8) && decide (c < 8) && a.ok && b.ok) = true at hok
  simp only [Bool.and_eq_true, decide_eq_true_eq] at hok
  obtain ⟨⟨⟨h1, h2⟩, h3⟩, h4⟩ := hok
  have g3 := encodeSrc_lt h3
  have g4 := encodeSrc_lt h4
  have fm := flagNat_lt m
  change decode (put (put (put (put (put 0x58000000 p 21) c 18) (encodeSrc a) 9) (encodeSrc b) 1) (flagNat m) 0) = _
  generalize hw : put (put (put (put (put 0x58000000 p 21) c 18) (encodeSrc a) 9) (encodeSrc b) 1) (flagNat m) 0 = wd
  simp only [put] at hw
  rw [decode_58 (by simp only [bits]; omega),
    if_pos (by simp only [bits]; omega),
    show bits wd 23 21 = p from by simp only [bits]; omega,
    show bits wd 20 18 = c from by simp only [bits]; omega,
    decodeSrc_of (x := bits wd 16 9) h3 (by simp only [bits]; omega),
    decodeSrc_of (x := bits wd 8 1) h4 (by simp only [bits]; omega),
    flagBit_of (w := wd) (i := 0) (b := m) (by simp only [bits]; omega)]

theorem RoundTrip.smov (d : Nat) (a : Src) : RoundTrip.Statement (.smov d a) := by
  intro _ hok
  change (decide (d < 64) && a.ok) = true at hok
  simp only [Bool.and_eq_true, decide_eq_true_eq] at hok
  obtain ⟨h1, h2⟩ := hok
  have g2 := encodeSrc_lt h2
  change decode (put (put 0x59020000 d 18) (encodeSrc a) 9) = _
  generalize hw : put (put 0x59020000 d 18) (encodeSrc a) 9 = wd
  simp only [put] at hw
  rw [decode_59 (by simp only [bits]; omega),
    if_pos (by simp only [bits]; omega),
    show bits wd 23 18 = d from by simp only [bits]; omega,
    decodeSrc_of (x := bits wd 16 9) h2 (by simp only [bits]; omega)]

theorem RoundTrip.sli (s : Nat) (i : Nat) : RoundTrip.Statement (.sli s i) := by
  intro _ hok
  change (decide (s < 128) && decide (i < 131072)) = true at hok
  simp only [Bool.and_eq_true, decide_eq_true_eq] at hok
  obtain ⟨h1, h2⟩ := hok
  change decode (put (put 0x5A000000 s 17) i 0) = _
  generalize hw : put (put 0x5A000000 s 17) i 0 = wd
  simp only [put] at hw
  rw [decode_5A (by simp only [bits]; omega),
    show bits wd 23 17 = s from by simp only [bits]; omega,
    show bits wd 16 0 = i from by simp only [bits]; omega]

theorem RoundTrip.sbra (s : Nat) (i : Nat) : RoundTrip.Statement (.sbra s i) := by
  intro _ hok
  change (decide (s < 128) && decide (i < 131072)) = true at hok
  simp only [Bool.and_eq_true, decide_eq_true_eq] at hok
  obtain ⟨h1, h2⟩ := hok
  change decode (put (put 0x5B000000 s 17) i 0) = _
  generalize hw : put (put 0x5B000000 s 17) i 0 = wd
  simp only [put] at hw
  rw [decode_5B (by simp only [bits]; omega),
    show bits wd 23 17 = s from by simp only [bits]; omega,
    show bits wd 16 0 = i from by simp only [bits]; omega]

theorem RoundTrip.cvt (d : Nat) (s : Nat) (r : Nat) (t : Bool) (u : Nat) (v : Nat) : RoundTrip.Statement (.cvt d s r t u v) := by
  intro _ hok
  change (decide (d < 64) && decide (s < 64) && decide (r < 4) && decide (u < 8) && decide (v < 8)) = true at hok
  simp only [Bool.and_eq_true, decide_eq_true_eq] at hok
  obtain ⟨⟨⟨⟨h1, h2⟩, h3⟩, h4⟩, h5⟩ := hok
  have ft := flagNat_lt t
  change decode (put (put (put (put (put (put 0x5C000000 d 18) s 12) r 10) (flagNat t) 9) u 3) v 0) = _
  generalize hw : put (put (put (put (put (put 0x5C000000 d 18) s 12) r 10) (flagNat t) 9) u 3) v 0 = wd
  simp only [put] at hw
  rw [decode_5C (by simp only [bits]; omega),
    if_pos (by simp only [bits]; omega),
    show bits wd 23 18 = d from by simp only [bits]; omega,
    show bits wd 17 12 = s from by simp only [bits]; omega,
    show bits wd 11 10 = r from by simp only [bits]; omega,
    flagBit_of (w := wd) (i := 9) (b := t) (by simp only [bits]; omega),
    show bits wd 5 3 = u from by simp only [bits]; omega,
    show bits wd 2 0 = v from by simp only [bits]; omega]

theorem RoundTrip.mov (d : Nat) (a : Src) : RoundTrip.Statement (.mov d a) := by
  intro _ hok
  change (decide (d < 64) && a.ok) = true at hok
  simp only [Bool.and_eq_true, decide_eq_true_eq] at hok
  obtain ⟨h1, h2⟩ := hok
  have g2 := encodeSrc_lt h2
  change decode (put (put 0x5D000000 d 18) (encodeSrc a) 9) = _
  generalize hw : put (put 0x5D000000 d 18) (encodeSrc a) 9 = wd
  simp only [put] at hw
  rw [decode_5D (by simp only [bits]; omega),
    if_pos (by simp only [bits]; omega),
    show bits wd 23 18 = d from by simp only [bits]; omega,
    decodeSrc_of (x := bits wd 16 9) h2 (by simp only [bits]; omega)]

theorem RoundTrip.v2s (d : Nat) (s : Nat) (n : Nat) : RoundTrip.Statement (.v2s d s n) := by
  intro _ hok
  change (decide (d < 64) && decide (s < 64) && decide (n < 64)) = true at hok
  simp only [Bool.and_eq_true, decide_eq_true_eq] at hok
  obtain ⟨⟨h1, h2⟩, h3⟩ := hok
  change decode (put (put (put 0x5E000000 d 18) s 12) n 6) = _
  generalize hw : put (put (put 0x5E000000 d 18) s 12) n 6 = wd
  simp only [put] at hw
  rw [decode_5E (by simp only [bits]; omega),
    if_neg (by simp only [bits]; omega),
    if_pos (by simp only [bits]; omega),
    show bits wd 23 18 = d from by simp only [bits]; omega,
    show bits wd 17 12 = s from by simp only [bits]; omega,
    show bits wd 11 6 = n from by simp only [bits]; omega]

theorem RoundTrip.s2v (d : Nat) (s : Nat) : RoundTrip.Statement (.s2v d s) := by
  intro _ hok
  change (decide (d < 64) && decide (s < 64)) = true at hok
  simp only [Bool.and_eq_true, decide_eq_true_eq] at hok
  obtain ⟨h1, h2⟩ := hok
  change decode (put (put 0x5E000001 d 18) s 12) = _
  generalize hw : put (put 0x5E000001 d 18) s 12 = wd
  simp only [put] at hw
  rw [decode_5E (by simp only [bits]; omega),
    if_pos (by simp only [bits]; omega),
    show bits wd 23 18 = d from by simp only [bits]; omega,
    show bits wd 17 12 = s from by simp only [bits]; omega]

theorem RoundTrip.movs (d : Nat) (n : Nat) : RoundTrip.Statement (.movs d n) := by
  intro _ hok
  change (decide (d < 64) && decide (n < 4096)) = true at hok
  simp only [Bool.and_eq_true, decide_eq_true_eq] at hok
  obtain ⟨h1, h2⟩ := hok
  change decode (put (put 0x5E000002 d 18) n 6) = _
  generalize hw : put (put 0x5E000002 d 18) n 6 = wd
  simp only [put] at hw
  rw [decode_5E (by simp only [bits]; omega),
    if_neg (by simp only [bits]; omega),
    if_neg (by simp only [bits]; omega),
    if_pos (by simp only [bits]; omega),
    show bits wd 23 18 = d from by simp only [bits]; omega,
    show bits wd 17 6 = n from by simp only [bits]; omega]

theorem RoundTrip.qpack (d : Nat) (s : Nat) (r : Nat) (t : Bool) (y : Nat) : RoundTrip.Statement (.qpack d s r t y) := by
  intro _ hok
  change (decide (d < 64) && decide (s < 64) && decide (r < 4) && decide (y < 8)) = true at hok
  simp only [Bool.and_eq_true, decide_eq_true_eq] at hok
  obtain ⟨⟨⟨h1, h2⟩, h3⟩, h4⟩ := hok
  have ft := flagNat_lt t
  change decode (put (put (put (put (put 0x5F000000 d 18) s 12) r 10) (flagNat t) 9) y 6) = _
  generalize hw : put (put (put (put (put 0x5F000000 d 18) s 12) r 10) (flagNat t) 9) y 6 = wd
  simp only [put] at hw
  rw [decode_5F (by simp only [bits]; omega),
    if_neg (by simp only [bits]; omega),
    if_pos (by simp only [bits]; omega),
    show bits wd 23 18 = d from by simp only [bits]; omega,
    show bits wd 17 12 = s from by simp only [bits]; omega,
    show bits wd 11 10 = r from by simp only [bits]; omega,
    flagBit_of (w := wd) (i := 9) (b := t) (by simp only [bits]; omega),
    show bits wd 8 6 = y from by simp only [bits]; omega]

theorem RoundTrip.qunpk (d : Nat) (s : Nat) (y : Nat) : RoundTrip.Statement (.qunpk d s y) := by
  intro _ hok
  change (decide (d < 64) && decide (s < 64) && decide (y < 8)) = true at hok
  simp only [Bool.and_eq_true, decide_eq_true_eq] at hok
  obtain ⟨⟨h1, h2⟩, h3⟩ := hok
  change decode (put (put (put 0x5F000001 d 18) s 12) y 6) = _
  generalize hw : put (put (put 0x5F000001 d 18) s 12) y 6 = wd
  simp only [put] at hw
  rw [decode_5F (by simp only [bits]; omega),
    if_pos (by simp only [bits]; omega),
    show bits wd 23 18 = d from by simp only [bits]; omega,
    show bits wd 17 12 = s from by simp only [bits]; omega,
    show bits wd 8 6 = y from by simp only [bits]; omega]

theorem RoundTrip.ld (t : Nat) (a : Nat) (s : Bool) (g : Nat) (o : Nat) : RoundTrip.Statement (.ld t a s g o) := by
  intro _ hok
  change (decide (t < 64) && decide (a < 64) && decide (g < 8) && decide (o < 256)) = true at hok
  simp only [Bool.and_eq_true, decide_eq_true_eq] at hok
  obtain ⟨⟨⟨h1, h2⟩, h3⟩, h4⟩ := hok
  have fs := flagNat_lt s
  change decode (put (put (put (put (put 0x60000000 t 18) a 12) (flagNat s) 11) g 8) o 0) = _
  generalize hw : put (put (put (put (put 0x60000000 t 18) a 12) (flagNat s) 11) g 8) o 0 = wd
  simp only [put] at hw
  rw [decode_60 (by simp only [bits]; omega),
    show bits wd 23 18 = t from by simp only [bits]; omega,
    show bits wd 17 12 = a from by simp only [bits]; omega,
    flagBit_of (w := wd) (i := 11) (b := s) (by simp only [bits]; omega),
    show bits wd 10 8 = g from by simp only [bits]; omega,
    show bits wd 7 0 = o from by simp only [bits]; omega]

theorem RoundTrip.ldB64 (t : Nat) (a : Nat) (s : Bool) (g : Nat) (o : Nat) : RoundTrip.Statement (.ldB64 t a s g o) := by
  intro _ hok
  change (decide (t < 64) && decide (a < 64) && decide (g < 8) && decide (o < 256)) = true at hok
  simp only [Bool.and_eq_true, decide_eq_true_eq] at hok
  obtain ⟨⟨⟨h1, h2⟩, h3⟩, h4⟩ := hok
  have fs := flagNat_lt s
  change decode (put (put (put (put (put 0x61000000 t 18) a 12) (flagNat s) 11) g 8) o 0) = _
  generalize hw : put (put (put (put (put 0x61000000 t 18) a 12) (flagNat s) 11) g 8) o 0 = wd
  simp only [put] at hw
  rw [decode_61 (by simp only [bits]; omega),
    show bits wd 23 18 = t from by simp only [bits]; omega,
    show bits wd 17 12 = a from by simp only [bits]; omega,
    flagBit_of (w := wd) (i := 11) (b := s) (by simp only [bits]; omega),
    show bits wd 10 8 = g from by simp only [bits]; omega,
    show bits wd 7 0 = o from by simp only [bits]; omega]

theorem RoundTrip.ldB128 (t : Nat) (a : Nat) (s : Bool) (g : Nat) (o : Nat) : RoundTrip.Statement (.ldB128 t a s g o) := by
  intro _ hok
  change (decide (t < 64) && decide (a < 64) && decide (g < 8) && decide (o < 256)) = true at hok
  simp only [Bool.and_eq_true, decide_eq_true_eq] at hok
  obtain ⟨⟨⟨h1, h2⟩, h3⟩, h4⟩ := hok
  have fs := flagNat_lt s
  change decode (put (put (put (put (put 0x62000000 t 18) a 12) (flagNat s) 11) g 8) o 0) = _
  generalize hw : put (put (put (put (put 0x62000000 t 18) a 12) (flagNat s) 11) g 8) o 0 = wd
  simp only [put] at hw
  rw [decode_62 (by simp only [bits]; omega),
    show bits wd 23 18 = t from by simp only [bits]; omega,
    show bits wd 17 12 = a from by simp only [bits]; omega,
    flagBit_of (w := wd) (i := 11) (b := s) (by simp only [bits]; omega),
    show bits wd 10 8 = g from by simp only [bits]; omega,
    show bits wd 7 0 = o from by simp only [bits]; omega]

theorem RoundTrip.st (t : Nat) (a : Nat) (s : Bool) (g : Nat) (o : Nat) : RoundTrip.Statement (.st t a s g o) := by
  intro _ hok
  change (decide (t < 64) && decide (a < 64) && decide (g < 8) && decide (o < 256)) = true at hok
  simp only [Bool.and_eq_true, decide_eq_true_eq] at hok
  obtain ⟨⟨⟨h1, h2⟩, h3⟩, h4⟩ := hok
  have fs := flagNat_lt s
  change decode (put (put (put (put (put 0x63000000 t 18) a 12) (flagNat s) 11) g 8) o 0) = _
  generalize hw : put (put (put (put (put 0x63000000 t 18) a 12) (flagNat s) 11) g 8) o 0 = wd
  simp only [put] at hw
  rw [decode_63 (by simp only [bits]; omega),
    show bits wd 23 18 = t from by simp only [bits]; omega,
    show bits wd 17 12 = a from by simp only [bits]; omega,
    flagBit_of (w := wd) (i := 11) (b := s) (by simp only [bits]; omega),
    show bits wd 10 8 = g from by simp only [bits]; omega,
    show bits wd 7 0 = o from by simp only [bits]; omega]

theorem RoundTrip.stB64 (t : Nat) (a : Nat) (s : Bool) (g : Nat) (o : Nat) : RoundTrip.Statement (.stB64 t a s g o) := by
  intro _ hok
  change (decide (t < 64) && decide (a < 64) && decide (g < 8) && decide (o < 256)) = true at hok
  simp only [Bool.and_eq_true, decide_eq_true_eq] at hok
  obtain ⟨⟨⟨h1, h2⟩, h3⟩, h4⟩ := hok
  have fs := flagNat_lt s
  change decode (put (put (put (put (put 0x64000000 t 18) a 12) (flagNat s) 11) g 8) o 0) = _
  generalize hw : put (put (put (put (put 0x64000000 t 18) a 12) (flagNat s) 11) g 8) o 0 = wd
  simp only [put] at hw
  rw [decode_64 (by simp only [bits]; omega),
    show bits wd 23 18 = t from by simp only [bits]; omega,
    show bits wd 17 12 = a from by simp only [bits]; omega,
    flagBit_of (w := wd) (i := 11) (b := s) (by simp only [bits]; omega),
    show bits wd 10 8 = g from by simp only [bits]; omega,
    show bits wd 7 0 = o from by simp only [bits]; omega]

theorem RoundTrip.stB128 (t : Nat) (a : Nat) (s : Bool) (g : Nat) (o : Nat) : RoundTrip.Statement (.stB128 t a s g o) := by
  intro _ hok
  change (decide (t < 64) && decide (a < 64) && decide (g < 8) && decide (o < 256)) = true at hok
  simp only [Bool.and_eq_true, decide_eq_true_eq] at hok
  obtain ⟨⟨⟨h1, h2⟩, h3⟩, h4⟩ := hok
  have fs := flagNat_lt s
  change decode (put (put (put (put (put 0x65000000 t 18) a 12) (flagNat s) 11) g 8) o 0) = _
  generalize hw : put (put (put (put (put 0x65000000 t 18) a 12) (flagNat s) 11) g 8) o 0 = wd
  simp only [put] at hw
  rw [decode_65 (by simp only [bits]; omega),
    show bits wd 23 18 = t from by simp only [bits]; omega,
    show bits wd 17 12 = a from by simp only [bits]; omega,
    flagBit_of (w := wd) (i := 11) (b := s) (by simp only [bits]; omega),
    show bits wd 10 8 = g from by simp only [bits]; omega,
    show bits wd 7 0 = o from by simp only [bits]; omega]

theorem RoundTrip.ldOrdered (t : Nat) (a : Nat) (s : Bool) (g : Nat) (r : Nat) (e : Nat) : RoundTrip.Statement (.ldOrdered t a s g r e) := by
  intro _ hok
  change (decide (t < 64) && decide (a < 64) && decide (g < 8) && decide (r < 4) && decide (e < 8)) = true at hok
  simp only [Bool.and_eq_true, decide_eq_true_eq] at hok
  obtain ⟨⟨⟨⟨h1, h2⟩, h3⟩, h4⟩, h5⟩ := hok
  have fs := flagNat_lt s
  change decode (put (put (put (put (put (put 0x66000000 t 18) a 12) (flagNat s) 11) g 8) r 6) e 3) = _
  generalize hw : put (put (put (put (put (put 0x66000000 t 18) a 12) (flagNat s) 11) g 8) r 6) e 3 = wd
  simp only [put] at hw
  rw [decode_66 (by simp only [bits]; omega),
    if_pos (by simp only [bits]; omega),
    show bits wd 23 18 = t from by simp only [bits]; omega,
    show bits wd 17 12 = a from by simp only [bits]; omega,
    flagBit_of (w := wd) (i := 11) (b := s) (by simp only [bits]; omega),
    show bits wd 10 8 = g from by simp only [bits]; omega,
    show bits wd 7 6 = r from by simp only [bits]; omega,
    show bits wd 5 3 = e from by simp only [bits]; omega]

theorem RoundTrip.stOrdered (t : Nat) (a : Nat) (s : Bool) (g : Nat) (r : Nat) (e : Nat) : RoundTrip.Statement (.stOrdered t a s g r e) := by
  intro _ hok
  change (decide (t < 64) && decide (a < 64) && decide (g < 8) && decide (r < 4) && decide (e < 8)) = true at hok
  simp only [Bool.and_eq_true, decide_eq_true_eq] at hok
  obtain ⟨⟨⟨⟨h1, h2⟩, h3⟩, h4⟩, h5⟩ := hok
  have fs := flagNat_lt s
  change decode (put (put (put (put (put (put 0x67000000 t 18) a 12) (flagNat s) 11) g 8) r 6) e 3) = _
  generalize hw : put (put (put (put (put (put 0x67000000 t 18) a 12) (flagNat s) 11) g 8) r 6) e 3 = wd
  simp only [put] at hw
  rw [decode_67 (by simp only [bits]; omega),
    if_pos (by simp only [bits]; omega),
    show bits wd 23 18 = t from by simp only [bits]; omega,
    show bits wd 17 12 = a from by simp only [bits]; omega,
    flagBit_of (w := wd) (i := 11) (b := s) (by simp only [bits]; omega),
    show bits wd 10 8 = g from by simp only [bits]; omega,
    show bits wd 7 6 = r from by simp only [bits]; omega,
    show bits wd 5 3 = e from by simp only [bits]; omega]

theorem RoundTrip.atom (t : Nat) (a : Nat) (s : Bool) (g : Nat) (r : Nat) (e : Nat) (o : Nat) : RoundTrip.Statement (.atom t a s g r e o) := by
  intro _ hok
  change (decide (t < 64) && decide (a < 64) && decide (g < 8) && decide (r < 4) && decide (e < 8) && decide (o < 8)) = true at hok
  simp only [Bool.and_eq_true, decide_eq_true_eq] at hok
  obtain ⟨⟨⟨⟨⟨h1, h2⟩, h3⟩, h4⟩, h5⟩, h6⟩ := hok
  have fs := flagNat_lt s
  change decode (put (put (put (put (put (put (put 0x68000000 t 18) a 12) (flagNat s) 11) g 8) r 6) e 3) o 0) = _
  generalize hw : put (put (put (put (put (put (put 0x68000000 t 18) a 12) (flagNat s) 11) g 8) r 6) e 3) o 0 = wd
  simp only [put] at hw
  rw [decode_68 (by simp only [bits]; omega),
    show bits wd 23 18 = t from by simp only [bits]; omega,
    show bits wd 17 12 = a from by simp only [bits]; omega,
    flagBit_of (w := wd) (i := 11) (b := s) (by simp only [bits]; omega),
    show bits wd 10 8 = g from by simp only [bits]; omega,
    show bits wd 7 6 = r from by simp only [bits]; omega,
    show bits wd 5 3 = e from by simp only [bits]; omega,
    show bits wd 2 0 = o from by simp only [bits]; omega]

theorem RoundTrip.atomFadd (t : Nat) (a : Nat) (s : Bool) (g : Nat) (r : Nat) (e : Nat) : RoundTrip.Statement (.atomFadd t a s g r e) := by
  intro _ hok
  change (decide (t < 64) && decide (a < 64) && decide (g < 8) && decide (r < 4) && decide (e < 8)) = true at hok
  simp only [Bool.and_eq_true, decide_eq_true_eq] at hok
  obtain ⟨⟨⟨⟨h1, h2⟩, h3⟩, h4⟩, h5⟩ := hok
  have fs := flagNat_lt s
  change decode (put (put (put (put (put (put 0x69000000 t 18) a 12) (flagNat s) 11) g 8) r 6) e 3) = _
  generalize hw : put (put (put (put (put (put 0x69000000 t 18) a 12) (flagNat s) 11) g 8) r 6) e 3 = wd
  simp only [put] at hw
  rw [decode_69 (by simp only [bits]; omega),
    if_pos (by simp only [bits]; omega),
    show bits wd 23 18 = t from by simp only [bits]; omega,
    show bits wd 17 12 = a from by simp only [bits]; omega,
    flagBit_of (w := wd) (i := 11) (b := s) (by simp only [bits]; omega),
    show bits wd 10 8 = g from by simp only [bits]; omega,
    show bits wd 7 6 = r from by simp only [bits]; omega,
    show bits wd 5 3 = e from by simp only [bits]; omega]

theorem RoundTrip.red (t : Nat) (a : Nat) (s : Bool) (g : Nat) (r : Nat) (e : Nat) (o : Nat) : RoundTrip.Statement (.red t a s g r e o) := by
  intro _ hok
  change (decide (t < 64) && decide (a < 64) && decide (g < 8) && decide (r < 4) && decide (e < 8) && decide (o < 8)) = true at hok
  simp only [Bool.and_eq_true, decide_eq_true_eq] at hok
  obtain ⟨⟨⟨⟨⟨h1, h2⟩, h3⟩, h4⟩, h5⟩, h6⟩ := hok
  have fs := flagNat_lt s
  change decode (put (put (put (put (put (put (put 0x6A000000 t 18) a 12) (flagNat s) 11) g 8) r 6) e 3) o 0) = _
  generalize hw : put (put (put (put (put (put (put 0x6A000000 t 18) a 12) (flagNat s) 11) g 8) r 6) e 3) o 0 = wd
  simp only [put] at hw
  rw [decode_6A (by simp only [bits]; omega),
    show bits wd 23 18 = t from by simp only [bits]; omega,
    show bits wd 17 12 = a from by simp only [bits]; omega,
    flagBit_of (w := wd) (i := 11) (b := s) (by simp only [bits]; omega),
    show bits wd 10 8 = g from by simp only [bits]; omega,
    show bits wd 7 6 = r from by simp only [bits]; omega,
    show bits wd 5 3 = e from by simp only [bits]; omega,
    show bits wd 2 0 = o from by simp only [bits]; omega]

theorem RoundTrip.lds (x : Nat) (y : Nat) (z : Nat) (s : Nat) : RoundTrip.Statement (.lds x y z s) := by
  intro _ hok
  change (decide (x < 64) && decide (y < 64) && decide (z < 64) && decide (s < 8)) = true at hok
  simp only [Bool.and_eq_true, decide_eq_true_eq] at hok
  obtain ⟨⟨⟨h1, h2⟩, h3⟩, h4⟩ := hok
  change decode (put (put (put (put 0x6B000000 x 18) y 12) z 6) s 0) = _
  generalize hw : put (put (put (put 0x6B000000 x 18) y 12) z 6) s 0 = wd
  simp only [put] at hw
  rw [decode_6B (by simp only [bits]; omega),
    if_neg (by simp only [bits]; omega),
    if_neg (by simp only [bits]; omega),
    if_neg (by simp only [bits]; omega),
    if_neg (by simp only [bits]; omega),
    if_neg (by simp only [bits]; omega),
    if_pos (by simp only [bits]; omega),
    show bits wd 23 18 = x from by simp only [bits]; omega,
    show bits wd 17 12 = y from by simp only [bits]; omega,
    show bits wd 11 6 = z from by simp only [bits]; omega,
    show bits wd 2 0 = s from by simp only [bits]; omega]

theorem RoundTrip.sts (x : Nat) (y : Nat) (z : Nat) (s : Nat) : RoundTrip.Statement (.sts x y z s) := by
  intro _ hok
  change (decide (x < 64) && decide (y < 64) && decide (z < 64) && decide (s < 8)) = true at hok
  simp only [Bool.and_eq_true, decide_eq_true_eq] at hok
  obtain ⟨⟨⟨h1, h2⟩, h3⟩, h4⟩ := hok
  change decode (put (put (put (put 0x6B000008 x 18) y 12) z 6) s 0) = _
  generalize hw : put (put (put (put 0x6B000008 x 18) y 12) z 6) s 0 = wd
  simp only [put] at hw
  rw [decode_6B (by simp only [bits]; omega),
    if_neg (by simp only [bits]; omega),
    if_neg (by simp only [bits]; omega),
    if_neg (by simp only [bits]; omega),
    if_neg (by simp only [bits]; omega),
    if_neg (by simp only [bits]; omega),
    if_neg (by simp only [bits]; omega),
    if_pos (by simp only [bits]; omega),
    show bits wd 23 18 = x from by simp only [bits]; omega,
    show bits wd 17 12 = y from by simp only [bits]; omega,
    show bits wd 11 6 = z from by simp only [bits]; omega,
    show bits wd 2 0 = s from by simp only [bits]; omega]

theorem RoundTrip.ldx (x : Nat) (y : Nat) (z : Nat) (s : Nat) : RoundTrip.Statement (.ldx x y z s) := by
  intro _ hok
  change (decide (x < 64) && decide (y < 64) && decide (z < 64) && decide (s < 8)) = true at hok
  simp only [Bool.and_eq_true, decide_eq_true_eq] at hok
  obtain ⟨⟨⟨h1, h2⟩, h3⟩, h4⟩ := hok
  change decode (put (put (put (put 0x6B000010 x 18) y 12) z 6) s 0) = _
  generalize hw : put (put (put (put 0x6B000010 x 18) y 12) z 6) s 0 = wd
  simp only [put] at hw
  rw [decode_6B (by simp only [bits]; omega),
    if_neg (by simp only [bits]; omega),
    if_neg (by simp only [bits]; omega),
    if_neg (by simp only [bits]; omega),
    if_neg (by simp only [bits]; omega),
    if_neg (by simp only [bits]; omega),
    if_neg (by simp only [bits]; omega),
    if_neg (by simp only [bits]; omega),
    if_pos (by simp only [bits]; omega),
    show bits wd 23 18 = x from by simp only [bits]; omega,
    show bits wd 17 12 = y from by simp only [bits]; omega,
    show bits wd 11 6 = z from by simp only [bits]; omega,
    show bits wd 2 0 = s from by simp only [bits]; omega]

theorem RoundTrip.stx (x : Nat) (y : Nat) (z : Nat) (s : Nat) : RoundTrip.Statement (.stx x y z s) := by
  intro _ hok
  change (decide (x < 64) && decide (y < 64) && decide (z < 64) && decide (s < 8)) = true at hok
  simp only [Bool.and_eq_true, decide_eq_true_eq] at hok
  obtain ⟨⟨⟨h1, h2⟩, h3⟩, h4⟩ := hok
  change decode (put (put (put (put 0x6B000018 x 18) y 12) z 6) s 0) = _
  generalize hw : put (put (put (put 0x6B000018 x 18) y 12) z 6) s 0 = wd
  simp only [put] at hw
  rw [decode_6B (by simp only [bits]; omega),
    if_neg (by simp only [bits]; omega),
    if_neg (by simp only [bits]; omega),
    if_neg (by simp only [bits]; omega),
    if_neg (by simp only [bits]; omega),
    if_neg (by simp only [bits]; omega),
    if_neg (by simp only [bits]; omega),
    if_neg (by simp only [bits]; omega),
    if_neg (by simp only [bits]; omega),
    if_pos (by simp only [bits]; omega),
    show bits wd 23 18 = x from by simp only [bits]; omega,
    show bits wd 17 12 = y from by simp only [bits]; omega,
    show bits wd 11 6 = z from by simp only [bits]; omega,
    show bits wd 2 0 = s from by simp only [bits]; omega]

theorem RoundTrip.stashMap (x : Nat) (t : Bool) (n : Nat) : RoundTrip.Statement (.stashMap x t n) := by
  intro _ hok
  change (decide (x < 64) && decide (n < 8)) = true at hok
  simp only [Bool.and_eq_true, decide_eq_true_eq] at hok
  obtain ⟨h1, h2⟩ := hok
  have ft := flagNat_lt t
  change decode (put (put (put 0x6B000020 x 18) (flagNat t) 9) n 6) = _
  generalize hw : put (put (put 0x6B000020 x 18) (flagNat t) 9) n 6 = wd
  simp only [put] at hw
  rw [decode_6B (by simp only [bits]; omega),
    if_neg (by simp only [bits]; omega),
    if_neg (by simp only [bits]; omega),
    if_neg (by simp only [bits]; omega),
    if_neg (by simp only [bits]; omega),
    if_pos (by simp only [bits]; omega),
    show bits wd 23 18 = x from by simp only [bits]; omega,
    flagBit_of (w := wd) (i := 9) (b := t) (by simp only [bits]; omega),
    show bits wd 8 6 = n from by simp only [bits]; omega]

theorem RoundTrip.stashMapUnmap (n : Nat) : RoundTrip.Statement (.stashMapUnmap n) := by
  intro _ hok
  change (decide (n < 8)) = true at hok
  simp only [decide_eq_true_eq] at hok
  have h1 := hok
  change decode (put 0x6B000420 n 6) = _
  generalize hw : put 0x6B000420 n 6 = wd
  simp only [put] at hw
  rw [decode_6B (by simp only [bits]; omega),
    if_pos (by simp only [bits]; omega),
    show bits wd 8 6 = n from by simp only [bits]; omega]

theorem RoundTrip.stashFlush (n : Nat) : RoundTrip.Statement (.stashFlush n) := by
  intro _ hok
  change (decide (n < 8)) = true at hok
  simp only [decide_eq_true_eq] at hok
  have h1 := hok
  change decode (put 0x6B000021 n 6) = _
  generalize hw : put 0x6B000021 n 6 = wd
  simp only [put] at hw
  rw [decode_6B (by simp only [bits]; omega),
    if_neg (by simp only [bits]; omega),
    if_pos (by simp only [bits]; omega),
    show bits wd 8 6 = n from by simp only [bits]; omega]

theorem RoundTrip.stashInv (n : Nat) : RoundTrip.Statement (.stashInv n) := by
  intro _ hok
  change (decide (n < 8)) = true at hok
  simp only [decide_eq_true_eq] at hok
  have h1 := hok
  change decode (put 0x6B000022 n 6) = _
  generalize hw : put 0x6B000022 n 6 = wd
  simp only [put] at hw
  rw [decode_6B (by simp only [bits]; omega),
    if_neg (by simp only [bits]; omega),
    if_neg (by simp only [bits]; omega),
    if_pos (by simp only [bits]; omega),
    show bits wd 8 6 = n from by simp only [bits]; omega]

theorem RoundTrip.pref (x : Nat) (l : Nat) : RoundTrip.Statement (.pref x l) := by
  intro _ hok
  change (decide (x < 64) && decide (l < 4)) = true at hok
  simp only [Bool.and_eq_true, decide_eq_true_eq] at hok
  obtain ⟨h1, h2⟩ := hok
  change decode (put (put 0x6B000023 x 18) l 6) = _
  generalize hw : put (put 0x6B000023 x 18) l 6 = wd
  simp only [put] at hw
  rw [decode_6B (by simp only [bits]; omega),
    if_neg (by simp only [bits]; omega),
    if_neg (by simp only [bits]; omega),
    if_neg (by simp only [bits]; omega),
    if_pos (by simp only [bits]; omega),
    show bits wd 23 18 = x from by simp only [bits]; omega,
    show bits wd 7 6 = l from by simp only [bits]; omega]

theorem RoundTrip.lcopy (x : Nat) (y : Nat) (z : Nat) (i : Bool) (b : Bool) : RoundTrip.Statement (.lcopy x y z i b) := by
  intro _ hok
  change (decide (x < 64) && decide (y < 64) && decide (z < 32)) = true at hok
  simp only [Bool.and_eq_true, decide_eq_true_eq] at hok
  obtain ⟨⟨h1, h2⟩, h3⟩ := hok
  have fi := flagNat_lt i
  have fb := flagNat_lt b
  change decode (put (put (put (put (put 0x6C000000 x 18) y 12) z 7) (flagNat i) 6) (flagNat b) 0) = _
  generalize hw : put (put (put (put (put 0x6C000000 x 18) y 12) z 7) (flagNat i) 6) (flagNat b) 0 = wd
  simp only [put] at hw
  rw [decode_6C (by simp only [bits]; omega),
    if_pos (by simp only [bits]; omega),
    show bits wd 23 18 = x from by simp only [bits]; omega,
    show bits wd 17 12 = y from by simp only [bits]; omega,
    show bits wd 11 7 = z from by simp only [bits]; omega,
    flagBit_of (w := wd) (i := 6) (b := i) (by simp only [bits]; omega),
    flagBit_of (w := wd) (i := 0) (b := b) (by simp only [bits]; omega)]

theorem RoundTrip.tcopy (x : Nat) (y : Nat) (h : Nat) (t : Bool) (i : Bool) (b : Bool) : RoundTrip.Statement (.tcopy x y h t i b) := by
  intro _ hok
  change (decide (x < 64) && decide (y < 64) && decide (h < 16)) = true at hok
  simp only [Bool.and_eq_true, decide_eq_true_eq] at hok
  obtain ⟨⟨h1, h2⟩, h3⟩ := hok
  have ft := flagNat_lt t
  have fi := flagNat_lt i
  have fb := flagNat_lt b
  change decode (put (put (put (put (put (put 0x6D000000 x 18) y 12) h 8) (flagNat t) 7) (flagNat i) 6) (flagNat b) 0) = _
  generalize hw : put (put (put (put (put (put 0x6D000000 x 18) y 12) h 8) (flagNat t) 7) (flagNat i) 6) (flagNat b) 0 = wd
  simp only [put] at hw
  rw [decode_6D (by simp only [bits]; omega),
    if_pos (by simp only [bits]; omega),
    show bits wd 23 18 = x from by simp only [bits]; omega,
    show bits wd 17 12 = y from by simp only [bits]; omega,
    show bits wd 11 8 = h from by simp only [bits]; omega,
    flagBit_of (w := wd) (i := 7) (b := t) (by simp only [bits]; omega),
    flagBit_of (w := wd) (i := 6) (b := i) (by simp only [bits]; omega),
    flagBit_of (w := wd) (i := 0) (b := b) (by simp only [bits]; omega)]

theorem RoundTrip.ctrAdd (x : Nat) (y : Nat) (e : Nat) : RoundTrip.Statement (.ctrAdd x y e) := by
  intro _ hok
  change (decide (x < 64) && decide (y < 64) && decide (e < 8)) = true at hok
  simp only [Bool.and_eq_true, decide_eq_true_eq] at hok
  obtain ⟨⟨h1, h2⟩, h3⟩ := hok
  change decode (put (put (put 0x6E000000 x 18) y 12) e 6) = _
  generalize hw : put (put (put 0x6E000000 x 18) y 12) e 6 = wd
  simp only [put] at hw
  rw [decode_6E (by simp only [bits]; omega),
    if_pos (by simp only [bits]; omega),
    show bits wd 23 18 = x from by simp only [bits]; omega,
    show bits wd 17 12 = y from by simp only [bits]; omega,
    show bits wd 8 6 = e from by simp only [bits]; omega]

theorem RoundTrip.ctrWait (x : Nat) (y : Nat) (e : Nat) : RoundTrip.Statement (.ctrWait x y e) := by
  intro _ hok
  change (decide (x < 64) && decide (y < 64) && decide (e < 8)) = true at hok
  simp only [Bool.and_eq_true, decide_eq_true_eq] at hok
  obtain ⟨⟨h1, h2⟩, h3⟩ := hok
  change decode (put (put (put 0x6F000000 x 18) y 12) e 6) = _
  generalize hw : put (put (put 0x6F000000 x 18) y 12) e 6 = wd
  simp only [put] at hw
  rw [decode_6F (by simp only [bits]; omega),
    if_pos (by simp only [bits]; omega),
    show bits wd 23 18 = x from by simp only [bits]; omega,
    show bits wd 17 12 = y from by simp only [bits]; omega,
    show bits wd 8 6 = e from by simp only [bits]; omega]

theorem RoundTrip.pbInit (x : Nat) (y : Nat) : RoundTrip.Statement (.pbInit x y) := by
  intro _ hok
  change (decide (x < 64) && decide (y < 64)) = true at hok
  simp only [Bool.and_eq_true, decide_eq_true_eq] at hok
  obtain ⟨h1, h2⟩ := hok
  change decode (put (put 0x70000000 x 18) y 12) = _
  generalize hw : put (put 0x70000000 x 18) y 12 = wd
  simp only [put] at hw
  rw [decode_70 (by simp only [bits]; omega),
    if_neg (by simp only [bits]; omega),
    if_pos (by simp only [bits]; omega),
    show bits wd 23 18 = x from by simp only [bits]; omega,
    show bits wd 17 12 = y from by simp only [bits]; omega]

theorem RoundTrip.pbArrive (x : Nat) (y : Nat) : RoundTrip.Statement (.pbArrive x y) := by
  intro _ hok
  change (decide (x < 64) && decide (y < 64)) = true at hok
  simp only [Bool.and_eq_true, decide_eq_true_eq] at hok
  obtain ⟨h1, h2⟩ := hok
  change decode (put (put 0x70000001 x 18) y 12) = _
  generalize hw : put (put 0x70000001 x 18) y 12 = wd
  simp only [put] at hw
  rw [decode_70 (by simp only [bits]; omega),
    if_neg (by simp only [bits]; omega),
    if_neg (by simp only [bits]; omega),
    if_pos (by simp only [bits]; omega),
    show bits wd 23 18 = x from by simp only [bits]; omega,
    show bits wd 17 12 = y from by simp only [bits]; omega]

theorem RoundTrip.pbArriveN (x : Nat) (y : Nat) (n : Nat) : RoundTrip.Statement (.pbArriveN x y n) := by
  intro _ hok
  change (decide (x < 64) && decide (y < 64) && decide (n < 32)) = true at hok
  simp only [Bool.and_eq_true, decide_eq_true_eq] at hok
  obtain ⟨⟨h1, h2⟩, h3⟩ := hok
  change decode (put (put (put 0x70000801 x 18) y 12) n 6) = _
  generalize hw : put (put (put 0x70000801 x 18) y 12) n 6 = wd
  simp only [put] at hw
  rw [decode_70 (by simp only [bits]; omega),
    if_neg (by simp only [bits]; omega),
    if_neg (by simp only [bits]; omega),
    if_neg (by simp only [bits]; omega),
    if_neg (by simp only [bits]; omega),
    if_neg (by simp only [bits]; omega),
    if_pos (by simp only [bits]; omega),
    show bits wd 23 18 = x from by simp only [bits]; omega,
    show bits wd 17 12 = y from by simp only [bits]; omega,
    show bits wd 10 6 = n from by simp only [bits]; omega]

theorem RoundTrip.pbExpect (x : Nat) (y : Nat) : RoundTrip.Statement (.pbExpect x y) := by
  intro _ hok
  change (decide (x < 64) && decide (y < 64)) = true at hok
  simp only [Bool.and_eq_true, decide_eq_true_eq] at hok
  obtain ⟨h1, h2⟩ := hok
  change decode (put (put 0x70000002 x 18) y 12) = _
  generalize hw : put (put 0x70000002 x 18) y 12 = wd
  simp only [put] at hw
  rw [decode_70 (by simp only [bits]; omega),
    if_neg (by simp only [bits]; omega),
    if_neg (by simp only [bits]; omega),
    if_neg (by simp only [bits]; omega),
    if_pos (by simp only [bits]; omega),
    show bits wd 23 18 = x from by simp only [bits]; omega,
    show bits wd 17 12 = y from by simp only [bits]; omega]

theorem RoundTrip.pbWait (x : Nat) (y : Nat) (d : Nat) : RoundTrip.Statement (.pbWait x y d) := by
  intro _ hok
  change (decide (x < 64) && decide (y < 64) && decide (d < 8)) = true at hok
  simp only [Bool.and_eq_true, decide_eq_true_eq] at hok
  obtain ⟨⟨h1, h2⟩, h3⟩ := hok
  change decode (put (put (put 0x70000003 x 18) y 12) d 6) = _
  generalize hw : put (put (put 0x70000003 x 18) y 12) d 6 = wd
  simp only [put] at hw
  rw [decode_70 (by simp only [bits]; omega),
    if_neg (by simp only [bits]; omega),
    if_neg (by simp only [bits]; omega),
    if_neg (by simp only [bits]; omega),
    if_neg (by simp only [bits]; omega),
    if_pos (by simp only [bits]; omega),
    show bits wd 23 18 = x from by simp only [bits]; omega,
    show bits wd 17 12 = y from by simp only [bits]; omega,
    show bits wd 8 6 = d from by simp only [bits]; omega]

theorem RoundTrip.pbInval (y : Nat) : RoundTrip.Statement (.pbInval y) := by
  intro _ hok
  change (decide (y < 64)) = true at hok
  simp only [decide_eq_true_eq] at hok
  have h1 := hok
  change decode (put 0x70000004 y 12) = _
  generalize hw : put 0x70000004 y 12 = wd
  simp only [put] at hw
  rw [decode_70 (by simp only [bits]; omega),
    if_pos (by simp only [bits]; omega),
    show bits wd 17 12 = y from by simp only [bits]; omega]

theorem RoundTrip.waitcmp (x : Nat) (y : Nat) (e : Nat) (c : Nat) : RoundTrip.Statement (.waitcmp x y e c) := by
  intro _ hok
  change (decide (x < 64) && decide (y < 64) && decide (e < 8) && decide (c < 4)) = true at hok
  simp only [Bool.and_eq_true, decide_eq_true_eq] at hok
  obtain ⟨⟨⟨h1, h2⟩, h3⟩, h4⟩ := hok
  change decode (put (put (put (put 0x71000000 x 18) y 12) e 6) c 0) = _
  generalize hw : put (put (put (put 0x71000000 x 18) y 12) e 6) c 0 = wd
  simp only [put] at hw
  rw [decode_71 (by simp only [bits]; omega),
    if_neg (by simp only [bits]; omega),
    if_pos (by simp only [bits]; omega),
    show bits wd 23 18 = x from by simp only [bits]; omega,
    show bits wd 17 12 = y from by simp only [bits]; omega,
    show bits wd 8 6 = e from by simp only [bits]; omega,
    show bits wd 1 0 = c from by simp only [bits]; omega]

theorem RoundTrip.wake (x : Nat) (e : Nat) : RoundTrip.Statement (.wake x e) := by
  intro _ hok
  change (decide (x < 64) && decide (e < 8)) = true at hok
  simp only [Bool.and_eq_true, decide_eq_true_eq] at hok
  obtain ⟨h1, h2⟩ := hok
  change decode (put (put 0x71000010 x 18) e 6) = _
  generalize hw : put (put 0x71000010 x 18) e 6 = wd
  simp only [put] at hw
  rw [decode_71 (by simp only [bits]; omega),
    if_pos (by simp only [bits]; omega),
    show bits wd 23 18 = x from by simp only [bits]; omega,
    show bits wd 8 6 = e from by simp only [bits]; omega]

theorem RoundTrip.fence (e : Nat) (r : Nat) : RoundTrip.Statement (.fence e r) := by
  intro _ hok
  change (decide (e < 8) && decide (r < 4)) = true at hok
  simp only [Bool.and_eq_true, decide_eq_true_eq] at hok
  obtain ⟨h1, h2⟩ := hok
  change decode (put (put 0x72000000 e 18) r 12) = _
  generalize hw : put (put 0x72000000 e 18) r 12 = wd
  simp only [put] at hw
  rw [decode_72 (by simp only [bits]; omega),
    if_neg (by simp only [bits]; omega),
    if_pos (by simp only [bits]; omega),
    show bits wd 20 18 = e from by simp only [bits]; omega,
    show bits wd 13 12 = r from by simp only [bits]; omega]

theorem RoundTrip.xfence (e : Nat) (m : Nat) : RoundTrip.Statement (.xfence e m) := by
  intro _ hok
  change (decide (e < 8) && decide (m < 64)) = true at hok
  simp only [Bool.and_eq_true, decide_eq_true_eq] at hok
  obtain ⟨h1, h2⟩ := hok
  change decode (put (put 0x72000001 e 18) m 12) = _
  generalize hw : put (put 0x72000001 e 18) m 12 = wd
  simp only [put] at hw
  rw [decode_72 (by simp only [bits]; omega),
    if_neg (by simp only [bits]; omega),
    if_neg (by simp only [bits]; omega),
    if_pos (by simp only [bits]; omega),
    show bits wd 20 18 = e from by simp only [bits]; omega,
    show bits wd 17 12 = m from by simp only [bits]; omega]

theorem RoundTrip.tfence (e : Nat) : RoundTrip.Statement (.tfence e) := by
  intro _ hok
  change (decide (e < 8)) = true at hok
  simp only [decide_eq_true_eq] at hok
  have h1 := hok
  change decode (put 0x72000002 e 18) = _
  generalize hw : put 0x72000002 e 18 = wd
  simp only [put] at hw
  rw [decode_72 (by simp only [bits]; omega),
    if_pos (by simp only [bits]; omega),
    show bits wd 20 18 = e from by simp only [bits]; omega]

theorem RoundTrip.talloc (h : Nat) (y : Nat) (z : Nat) : RoundTrip.Statement (.talloc h y z) := by
  intro _ hok
  change (decide (h < 16) && decide (y < 64) && decide (z < 64)) = true at hok
  simp only [Bool.and_eq_true, decide_eq_true_eq] at hok
  obtain ⟨⟨h1, h2⟩, h3⟩ := hok
  change decode (put (put (put 0x74000000 h 18) y 12) z 6) = _
  generalize hw : put (put (put 0x74000000 h 18) y 12) z 6 = wd
  simp only [put] at hw
  rw [decode_74 (by simp only [bits]; omega),
    if_neg (by simp only [bits]; omega),
    if_neg (by simp only [bits]; omega),
    if_neg (by simp only [bits]; omega),
    if_neg (by simp only [bits]; omega),
    if_neg (by simp only [bits]; omega),
    if_neg (by simp only [bits]; omega),
    if_neg (by simp only [bits]; omega),
    if_neg (by simp only [bits]; omega),
    if_neg (by simp only [bits]; omega),
    if_neg (by simp only [bits]; omega),
    if_neg (by simp only [bits]; omega),
    if_pos (by simp only [bits]; omega),
    show bits wd 21 18 = h from by simp only [bits]; omega,
    show bits wd 17 12 = y from by simp only [bits]; omega,
    show bits wd 11 6 = z from by simp only [bits]; omega]

theorem RoundTrip.tseal (h : Nat) : RoundTrip.Statement (.tseal h) := by
  intro _ hok
  change (decide (h < 16)) = true at hok
  simp only [decide_eq_true_eq] at hok
  have h1 := hok
  change decode (put 0x74000001 h 18) = _
  generalize hw : put 0x74000001 h 18 = wd
  simp only [put] at hw
  rw [decode_74 (by simp only [bits]; omega),
    if_pos (by simp only [bits]; omega),
    show bits wd 21 18 = h from by simp only [bits]; omega]

theorem RoundTrip.tclaim (h : Nat) : RoundTrip.Statement (.tclaim h) := by
  intro _ hok
  change (decide (h < 16)) = true at hok
  simp only [decide_eq_true_eq] at hok
  have h1 := hok
  change decode (put 0x74000002 h 18) = _
  generalize hw : put 0x74000002 h 18 = wd
  simp only [put] at hw
  rw [decode_74 (by simp only [bits]; omega),
    if_neg (by simp only [bits]; omega),
    if_pos (by simp only [bits]; omega),
    show bits wd 21 18 = h from by simp only [bits]; omega]

theorem RoundTrip.tclaimEach (h : Nat) : RoundTrip.Statement (.tclaimEach h) := by
  intro _ hok
  change (decide (h < 16)) = true at hok
  simp only [decide_eq_true_eq] at hok
  have h1 := hok
  change decode (put 0x74000042 h 18) = _
  generalize hw : put 0x74000042 h 18 = wd
  simp only [put] at hw
  rw [decode_74 (by simp only [bits]; omega),
    if_neg (by simp only [bits]; omega),
    if_neg (by simp only [bits]; omega),
    if_pos (by simp only [bits]; omega),
    show bits wd 21 18 = h from by simp only [bits]; omega]

theorem RoundTrip.tread (x : Nat) (f : Nat) (h : Nat) (z : Nat) : RoundTrip.Statement (.tread x f h z) := by
  intro _ hok
  change (decide (x < 64) && decide (f < 3) && decide (h < 16) && decide (z < 64)) = true at hok
  simp only [Bool.and_eq_true, decide_eq_true_eq] at hok
  obtain ⟨⟨⟨h1, h2⟩, h3⟩, h4⟩ := hok
  change decode (put (put (put (put 0x74000003 x 18) f 16) h 12) z 6) = _
  generalize hw : put (put (put (put 0x74000003 x 18) f 16) h 12) z 6 = wd
  simp only [put] at hw
  rw [decode_74 (by simp only [bits]; omega),
    if_neg (by simp only [bits]; omega),
    if_neg (by simp only [bits]; omega),
    if_neg (by simp only [bits]; omega),
    if_neg (by simp only [bits]; omega),
    if_neg (by simp only [bits]; omega),
    if_neg (by simp only [bits]; omega),
    if_neg (by simp only [bits]; omega),
    if_neg (by simp only [bits]; omega),
    if_neg (by simp only [bits]; omega),
    if_neg (by simp only [bits]; omega),
    if_neg (by simp only [bits]; omega),
    if_neg (by simp only [bits]; omega),
    if_pos (by simp only [bits]; omega),
    show bits wd 23 18 = x from by simp only [bits]; omega,
    show bits wd 17 16 = f from by simp only [bits]; omega,
    show bits wd 15 12 = h from by simp only [bits]; omega,
    show bits wd 11 6 = z from by simp only [bits]; omega]

theorem RoundTrip.treadStash (x : Nat) (h : Nat) (b : Bool) : RoundTrip.Statement (.treadStash x h b) := by
  intro _ hok
  change (decide (x < 64) && decide (h < 16)) = true at hok
  simp only [Bool.and_eq_true, decide_eq_true_eq] at hok
  obtain ⟨h1, h2⟩ := hok
  have fb := flagNat_lt b
  change decode (put (put (put 0x74030003 x 18) h 12) (flagNat b) 6) = _
  generalize hw : put (put (put 0x74030003 x 18) h 12) (flagNat b) 6 = wd
  simp only [put] at hw
  rw [decode_74 (by simp only [bits]; omega),
    if_neg (by simp only [bits]; omega),
    if_neg (by simp only [bits]; omega),
    if_neg (by simp only [bits]; omega),
    if_neg (by simp only [bits]; omega),
    if_neg (by simp only [bits]; omega),
    if_neg (by simp only [bits]; omega),
    if_neg (by simp only [bits]; omega),
    if_neg (by simp only [bits]; omega),
    if_neg (by simp only [bits]; omega),
    if_pos (by simp only [bits]; omega),
    show bits wd 23 18 = x from by simp only [bits]; omega,
    show bits wd 15 12 = h from by simp only [bits]; omega,
    flagBit_of (w := wd) (i := 6) (b := b) (by simp only [bits]; omega)]

theorem RoundTrip.tpeek (x : Nat) (f : Nat) (h : Nat) (z : Nat) : RoundTrip.Statement (.tpeek x f h z) := by
  intro _ hok
  change (decide (x < 64) && decide (f < 3) && decide (h < 16) && decide (z < 64)) = true at hok
  simp only [Bool.and_eq_true, decide_eq_true_eq] at hok
  obtain ⟨⟨⟨h1, h2⟩, h3⟩, h4⟩ := hok
  change decode (put (put (put (put 0x74000004 x 18) f 16) h 12) z 6) = _
  generalize hw : put (put (put (put 0x74000004 x 18) f 16) h 12) z 6 = wd
  simp only [put] at hw
  rw [decode_74 (by simp only [bits]; omega),
    if_neg (by simp only [bits]; omega),
    if_neg (by simp only [bits]; omega),
    if_neg (by simp only [bits]; omega),
    if_neg (by simp only [bits]; omega),
    if_neg (by simp only [bits]; omega),
    if_neg (by simp only [bits]; omega),
    if_neg (by simp only [bits]; omega),
    if_neg (by simp only [bits]; omega),
    if_neg (by simp only [bits]; omega),
    if_neg (by simp only [bits]; omega),
    if_neg (by simp only [bits]; omega),
    if_neg (by simp only [bits]; omega),
    if_neg (by simp only [bits]; omega),
    if_pos (by simp only [bits]; omega),
    show bits wd 23 18 = x from by simp only [bits]; omega,
    show bits wd 17 16 = f from by simp only [bits]; omega,
    show bits wd 15 12 = h from by simp only [bits]; omega,
    show bits wd 11 6 = z from by simp only [bits]; omega]

theorem RoundTrip.tpeekStash (x : Nat) (h : Nat) (b : Bool) : RoundTrip.Statement (.tpeekStash x h b) := by
  intro _ hok
  change (decide (x < 64) && decide (h < 16)) = true at hok
  simp only [Bool.and_eq_true, decide_eq_true_eq] at hok
  obtain ⟨h1, h2⟩ := hok
  have fb := flagNat_lt b
  change decode (put (put (put 0x74030004 x 18) h 12) (flagNat b) 6) = _
  generalize hw : put (put (put 0x74030004 x 18) h 12) (flagNat b) 6 = wd
  simp only [put] at hw
  rw [decode_74 (by simp only [bits]; omega),
    if_neg (by simp only [bits]; omega),
    if_neg (by simp only [bits]; omega),
    if_neg (by simp only [bits]; omega),
    if_neg (by simp only [bits]; omega),
    if_neg (by simp only [bits]; omega),
    if_neg (by simp only [bits]; omega),
    if_neg (by simp only [bits]; omega),
    if_neg (by simp only [bits]; omega),
    if_neg (by simp only [bits]; omega),
    if_neg (by simp only [bits]; omega),
    if_pos (by simp only [bits]; omega),
    show bits wd 23 18 = x from by simp only [bits]; omega,
    show bits wd 15 12 = h from by simp only [bits]; omega,
    flagBit_of (w := wd) (i := 6) (b := b) (by simp only [bits]; omega)]

theorem RoundTrip.tdrop (h : Nat) : RoundTrip.Statement (.tdrop h) := by
  intro _ hok
  change (decide (h < 16)) = true at hok
  simp only [decide_eq_true_eq] at hok
  have h1 := hok
  change decode (put 0x74000005 h 18) = _
  generalize hw : put 0x74000005 h 18 = wd
  simp only [put] at hw
  rw [decode_74 (by simp only [bits]; omega),
    if_neg (by simp only [bits]; omega),
    if_neg (by simp only [bits]; omega),
    if_neg (by simp only [bits]; omega),
    if_pos (by simp only [bits]; omega),
    show bits wd 21 18 = h from by simp only [bits]; omega]

theorem RoundTrip.tstatInfo (x : Nat) (h : Nat) : RoundTrip.Statement (.tstatInfo x h) := by
  intro _ hok
  change (decide (x < 64) && decide (h < 16)) = true at hok
  simp only [Bool.and_eq_true, decide_eq_true_eq] at hok
  obtain ⟨h1, h2⟩ := hok
  change decode (put (put 0x74000006 x 18) h 12) = _
  generalize hw : put (put 0x74000006 x 18) h 12 = wd
  simp only [put] at hw
  rw [decode_74 (by simp only [bits]; omega),
    if_neg (by simp only [bits]; omega),
    if_neg (by simp only [bits]; omega),
    if_neg (by simp only [bits]; omega),
    if_neg (by simp only [bits]; omega),
    if_pos (by simp only [bits]; omega),
    show bits wd 23 18 = x from by simp only [bits]; omega,
    show bits wd 15 12 = h from by simp only [bits]; omega]

theorem RoundTrip.tstatAddr (x : Nat) (h : Nat) : RoundTrip.Statement (.tstatAddr x h) := by
  intro _ hok
  change (decide (x < 64) && decide (h < 16)) = true at hok
  simp only [Bool.and_eq_true, decide_eq_true_eq] at hok
  obtain ⟨h1, h2⟩ := hok
  change decode (put (put 0x74000046 x 18) h 12) = _
  generalize hw : put (put 0x74000046 x 18) h 12 = wd
  simp only [put] at hw
  rw [decode_74 (by simp only [bits]; omega),
    if_neg (by simp only [bits]; omega),
    if_neg (by simp only [bits]; omega),
    if_neg (by simp only [bits]; omega),
    if_neg (by simp only [bits]; omega),
    if_neg (by simp only [bits]; omega),
    if_pos (by simp only [bits]; omega),
    show bits wd 23 18 = x from by simp only [bits]; omega,
    show bits wd 15 12 = h from by simp only [bits]; omega]

theorem RoundTrip.tstatGet (x : Nat) (h : Nat) : RoundTrip.Statement (.tstatGet x h) := by
  intro _ hok
  change (decide (x < 64) && decide (h < 16)) = true at hok
  simp only [Bool.and_eq_true, decide_eq_true_eq] at hok
  obtain ⟨h1, h2⟩ := hok
  change decode (put (put 0x74000086 x 18) h 12) = _
  generalize hw : put (put 0x74000086 x 18) h 12 = wd
  simp only [put] at hw
  rw [decode_74 (by simp only [bits]; omega),
    if_neg (by simp only [bits]; omega),
    if_neg (by simp only [bits]; omega),
    if_neg (by simp only [bits]; omega),
    if_neg (by simp only [bits]; omega),
    if_neg (by simp only [bits]; omega),
    if_neg (by simp only [bits]; omega),
    if_pos (by simp only [bits]; omega),
    show bits wd 23 18 = x from by simp only [bits]; omega,
    show bits wd 15 12 = h from by simp only [bits]; omega]

theorem RoundTrip.tstatPut (h : Nat) (y : Nat) : RoundTrip.Statement (.tstatPut h y) := by
  intro _ hok
  change (decide (h < 16) && decide (y < 64)) = true at hok
  simp only [Bool.and_eq_true, decide_eq_true_eq] at hok
  obtain ⟨h1, h2⟩ := hok
  change decode (put (put 0x740000C6 h 18) y 12) = _
  generalize hw : put (put 0x740000C6 h 18) y 12 = wd
  simp only [put] at hw
  rw [decode_74 (by simp only [bits]; omega),
    if_neg (by simp only [bits]; omega),
    if_neg (by simp only [bits]; omega),
    if_neg (by simp only [bits]; omega),
    if_neg (by simp only [bits]; omega),
    if_neg (by simp only [bits]; omega),
    if_neg (by simp only [bits]; omega),
    if_neg (by simp only [bits]; omega),
    if_pos (by simp only [bits]; omega),
    show bits wd 21 18 = h from by simp only [bits]; omega,
    show bits wd 17 12 = y from by simp only [bits]; omega]

theorem RoundTrip.tstatPart (x : Nat) (p : Nat) : RoundTrip.Statement (.tstatPart x p) := by
  intro _ hok
  change (decide (x < 64) && decide (p < 16)) = true at hok
  simp only [Bool.and_eq_true, decide_eq_true_eq] at hok
  obtain ⟨h1, h2⟩ := hok
  change decode (put (put 0x74000106 x 18) p 12) = _
  generalize hw : put (put 0x74000106 x 18) p 12 = wd
  simp only [put] at hw
  rw [decode_74 (by simp only [bits]; omega),
    if_neg (by simp only [bits]; omega),
    if_neg (by simp only [bits]; omega),
    if_neg (by simp only [bits]; omega),
    if_neg (by simp only [bits]; omega),
    if_neg (by simp only [bits]; omega),
    if_neg (by simp only [bits]; omega),
    if_neg (by simp only [bits]; omega),
    if_neg (by simp only [bits]; omega),
    if_pos (by simp only [bits]; omega),
    show bits wd 23 18 = x from by simp only [bits]; omega,
    show bits wd 15 12 = p from by simp only [bits]; omega]

theorem RoundTrip.link (n : Nat) (i : Bool) : RoundTrip.Statement (.link n i) := by
  intro _ hok
  change (decide (n < 64)) = true at hok
  simp only [decide_eq_true_eq] at hok
  have h1 := hok
  have fi := flagNat_lt i
  change decode (put (put 0x75000000 n 18) (flagNat i) 6) = _
  generalize hw : put (put 0x75000000 n 18) (flagNat i) 6 = wd
  simp only [put] at hw
  rw [decode_75 (by simp only [bits]; omega),
    if_neg (by simp only [bits]; omega),
    if_neg (by simp only [bits]; omega),
    if_pos (by simp only [bits]; omega),
    show bits wd 23 18 = n from by simp only [bits]; omega,
    flagBit_of (w := wd) (i := 6) (b := i) (by simp only [bits]; omega)]

theorem RoundTrip.unlink : RoundTrip.Statement .unlink := by
  intro _ _
  decide

theorem RoundTrip.pair (w : Bool) : RoundTrip.Statement (.pair w) := by
  intro _ _
  have fw := flagNat_lt w
  change decode (put 0x75000002 (flagNat w) 6) = _
  generalize hw : put 0x75000002 (flagNat w) 6 = wd
  simp only [put] at hw
  rw [decode_75 (by simp only [bits]; omega),
    if_neg (by simp only [bits]; omega),
    if_pos (by simp only [bits]; omega),
    flagBit_of (w := wd) (i := 6) (b := w) (by simp only [bits]; omega)]

theorem RoundTrip.tmma (x : Nat) (y : Nat) (b : Bool) (a : Bool) (f : Nat) : RoundTrip.Statement (.tmma x y b a f) := by
  intro _ hok
  change (decide (x < 64) && decide (y < 64) && decide (f < 4)) = true at hok
  simp only [Bool.and_eq_true, decide_eq_true_eq] at hok
  obtain ⟨⟨h1, h2⟩, h3⟩ := hok
  have fb := flagNat_lt b
  have fa := flagNat_lt a
  change decode (put (put (put (put (put 0x76000000 x 18) y 12) (flagNat b) 9) (flagNat a) 8) f 6) = _
  generalize hw : put (put (put (put (put 0x76000000 x 18) y 12) (flagNat b) 9) (flagNat a) 8) f 6 = wd
  simp only [put] at hw
  rw [decode_76 (by simp only [bits]; omega),
    if_pos (by simp only [bits]; omega),
    show bits wd 23 18 = x from by simp only [bits]; omega,
    show bits wd 17 12 = y from by simp only [bits]; omega,
    flagBit_of (w := wd) (i := 9) (b := b) (by simp only [bits]; omega),
    flagBit_of (w := wd) (i := 8) (b := a) (by simp only [bits]; omega),
    show bits wd 7 6 = f from by simp only [bits]; omega]

theorem RoundTrip.tmmaQ (x : Nat) (y : Nat) (b : Bool) (a : Bool) (f : Nat) : RoundTrip.Statement (.tmmaQ x y b a f) := by
  intro _ hok
  change (decide (x < 64) && decide (y < 64) && decide (f < 4)) = true at hok
  simp only [Bool.and_eq_true, decide_eq_true_eq] at hok
  obtain ⟨⟨h1, h2⟩, h3⟩ := hok
  have fb := flagNat_lt b
  have fa := flagNat_lt a
  change decode (put (put (put (put (put 0x76000001 x 18) y 12) (flagNat b) 9) (flagNat a) 8) f 6) = _
  generalize hw : put (put (put (put (put 0x76000001 x 18) y 12) (flagNat b) 9) (flagNat a) 8) f 6 = wd
  simp only [put] at hw
  rw [decode_76 (by simp only [bits]; omega),
    if_neg (by simp only [bits]; omega),
    if_pos (by simp only [bits]; omega),
    show bits wd 23 18 = x from by simp only [bits]; omega,
    show bits wd 17 12 = y from by simp only [bits]; omega,
    flagBit_of (w := wd) (i := 9) (b := b) (by simp only [bits]; omega),
    flagBit_of (w := wd) (i := 8) (b := a) (by simp only [bits]; omega),
    show bits wd 7 6 = f from by simp only [bits]; omega]

theorem RoundTrip.accLd (x : Nat) (y : Nat) (w : Bool) : RoundTrip.Statement (.accLd x y w) := by
  intro _ hok
  change (decide (x < 64) && decide (y < 64)) = true at hok
  simp only [Bool.and_eq_true, decide_eq_true_eq] at hok
  obtain ⟨h1, h2⟩ := hok
  have fw := flagNat_lt w
  change decode (put (put (put 0x77000000 x 18) y 12) (flagNat w) 6) = _
  generalize hw : put (put (put 0x77000000 x 18) y 12) (flagNat w) 6 = wd
  simp only [put] at hw
  rw [decode_77 (by simp only [bits]; omega),
    if_neg (by simp only [bits]; omega),
    if_pos (by simp only [bits]; omega),
    show bits wd 23 18 = x from by simp only [bits]; omega,
    show bits wd 17 12 = y from by simp only [bits]; omega,
    flagBit_of (w := wd) (i := 6) (b := w) (by simp only [bits]; omega)]

theorem RoundTrip.accMov (x : Nat) (y : Nat) (f : Nat) : RoundTrip.Statement (.accMov x y f) := by
  intro _ hok
  change (decide (x < 64) && decide (y < 64) && decide (f < 4)) = true at hok
  simp only [Bool.and_eq_true, decide_eq_true_eq] at hok
  obtain ⟨⟨h1, h2⟩, h3⟩ := hok
  change decode (put (put (put 0x77000001 x 18) y 12) f 6) = _
  generalize hw : put (put (put 0x77000001 x 18) y 12) f 6 = wd
  simp only [put] at hw
  rw [decode_77 (by simp only [bits]; omega),
    if_neg (by simp only [bits]; omega),
    if_neg (by simp only [bits]; omega),
    if_pos (by simp only [bits]; omega),
    show bits wd 23 18 = x from by simp only [bits]; omega,
    show bits wd 17 12 = y from by simp only [bits]; omega,
    show bits wd 7 6 = f from by simp only [bits]; omega]

theorem RoundTrip.accMovRaw (x : Nat) (y : Nat) (f : Nat) : RoundTrip.Statement (.accMovRaw x y f) := by
  intro _ hok
  change (decide (x < 64) && decide (y < 64) && decide (f < 4)) = true at hok
  simp only [Bool.and_eq_true, decide_eq_true_eq] at hok
  obtain ⟨⟨h1, h2⟩, h3⟩ := hok
  change decode (put (put (put 0x77000201 x 18) y 12) f 6) = _
  generalize hw : put (put (put 0x77000201 x 18) y 12) f 6 = wd
  simp only [put] at hw
  rw [decode_77 (by simp only [bits]; omega),
    if_neg (by simp only [bits]; omega),
    if_neg (by simp only [bits]; omega),
    if_neg (by simp only [bits]; omega),
    if_pos (by simp only [bits]; omega),
    show bits wd 23 18 = x from by simp only [bits]; omega,
    show bits wd 17 12 = y from by simp only [bits]; omega,
    show bits wd 7 6 = f from by simp only [bits]; omega]

theorem RoundTrip.accMovTile (x : Nat) (y : Nat) (f : Nat) : RoundTrip.Statement (.accMovTile x y f) := by
  intro _ hok
  change (decide (x < 64) && decide (y < 64) && decide (f < 4)) = true at hok
  simp only [Bool.and_eq_true, decide_eq_true_eq] at hok
  obtain ⟨⟨h1, h2⟩, h3⟩ := hok
  change decode (put (put (put 0x77000101 x 18) y 12) f 6) = _
  generalize hw : put (put (put 0x77000101 x 18) y 12) f 6 = wd
  simp only [put] at hw
  rw [decode_77 (by simp only [bits]; omega),
    if_neg (by simp only [bits]; omega),
    if_neg (by simp only [bits]; omega),
    if_neg (by simp only [bits]; omega),
    if_neg (by simp only [bits]; omega),
    if_pos (by simp only [bits]; omega),
    show bits wd 23 18 = x from by simp only [bits]; omega,
    show bits wd 17 12 = y from by simp only [bits]; omega,
    show bits wd 7 6 = f from by simp only [bits]; omega]

theorem RoundTrip.accZero (x : Nat) (y : Nat) : RoundTrip.Statement (.accZero x y) := by
  intro _ hok
  change (decide (x < 64) && decide (y < 64)) = true at hok
  simp only [Bool.and_eq_true, decide_eq_true_eq] at hok
  obtain ⟨h1, h2⟩ := hok
  change decode (put (put 0x77000002 x 18) y 12) = _
  generalize hw : put (put 0x77000002 x 18) y 12 = wd
  simp only [put] at hw
  rw [decode_77 (by simp only [bits]; omega),
    if_pos (by simp only [bits]; omega),
    show bits wd 23 18 = x from by simp only [bits]; omega,
    show bits wd 17 12 = y from by simp only [bits]; omega]

theorem RoundTrip.fmtset (x : Nat) (y : Nat) (f : Nat) : RoundTrip.Statement (.fmtset x y f) := by
  intro _ hok
  change (decide (x < 64) && decide (y < 32) && decide (f < 4)) = true at hok
  simp only [Bool.and_eq_true, decide_eq_true_eq] at hok
  obtain ⟨⟨h1, h2⟩, h3⟩ := hok
  change decode (put (put (put 0x78000000 x 18) y 12) f 6) = _
  generalize hw : put (put (put 0x78000000 x 18) y 12) f 6 = wd
  simp only [put] at hw
  rw [decode_78 (by simp only [bits]; omega),
    if_neg (by simp only [bits]; omega),
    if_neg (by simp only [bits]; omega),
    if_neg (by simp only [bits]; omega),
    if_pos (by simp only [bits]; omega),
    show bits wd 23 18 = x from by simp only [bits]; omega,
    show bits wd 16 12 = y from by simp only [bits]; omega,
    show bits wd 7 6 = f from by simp only [bits]; omega]

theorem RoundTrip.fmtsetGet (x : Nat) (y : Nat) (f : Nat) : RoundTrip.Statement (.fmtsetGet x y f) := by
  intro _ hok
  change (decide (x < 64) && decide (y < 32) && decide (f < 4)) = true at hok
  simp only [Bool.and_eq_true, decide_eq_true_eq] at hok
  obtain ⟨⟨h1, h2⟩, h3⟩ := hok
  change decode (put (put (put 0x78020000 x 18) y 12) f 6) = _
  generalize hw : put (put (put 0x78020000 x 18) y 12) f 6 = wd
  simp only [put] at hw
  rw [decode_78 (by simp only [bits]; omega),
    if_neg (by simp only [bits]; omega),
    if_neg (by simp only [bits]; omega),
    if_neg (by simp only [bits]; omega),
    if_neg (by simp only [bits]; omega),
    if_pos (by simp only [bits]; omega),
    show bits wd 23 18 = x from by simp only [bits]; omega,
    show bits wd 16 12 = y from by simp only [bits]; omega,
    show bits wd 7 6 = f from by simp only [bits]; omega]

theorem RoundTrip.fmtsetLd (x : Nat) (f : Nat) : RoundTrip.Statement (.fmtsetLd x f) := by
  intro _ hok
  change (decide (x < 64) && decide (f < 4)) = true at hok
  simp only [Bool.and_eq_true, decide_eq_true_eq] at hok
  obtain ⟨h1, h2⟩ := hok
  change decode (put (put 0x78000100 x 18) f 6) = _
  generalize hw : put (put 0x78000100 x 18) f 6 = wd
  simp only [put] at hw
  rw [decode_78 (by simp only [bits]; omega),
    if_neg (by simp only [bits]; omega),
    if_pos (by simp only [bits]; omega),
    show bits wd 23 18 = x from by simp only [bits]; omega,
    show bits wd 7 6 = f from by simp only [bits]; omega]

theorem RoundTrip.fmtsetSt (x : Nat) (f : Nat) : RoundTrip.Statement (.fmtsetSt x f) := by
  intro _ hok
  change (decide (x < 64) && decide (f < 4)) = true at hok
  simp only [Bool.and_eq_true, decide_eq_true_eq] at hok
  obtain ⟨h1, h2⟩ := hok
  change decode (put (put 0x78000200 x 18) f 6) = _
  generalize hw : put (put 0x78000200 x 18) f 6 = wd
  simp only [put] at hw
  rw [decode_78 (by simp only [bits]; omega),
    if_neg (by simp only [bits]; omega),
    if_neg (by simp only [bits]; omega),
    if_pos (by simp only [bits]; omega),
    show bits wd 23 18 = x from by simp only [bits]; omega,
    show bits wd 7 6 = f from by simp only [bits]; omega]

theorem RoundTrip.scaleObs (x : Nat) (y : Nat) (f : Nat) : RoundTrip.Statement (.scaleObs x y f) := by
  intro _ hok
  change (decide (x < 64) && decide (y < 64) && decide (f < 4)) = true at hok
  simp only [Bool.and_eq_true, decide_eq_true_eq] at hok
  obtain ⟨⟨h1, h2⟩, h3⟩ := hok
  change decode (put (put (put 0x78000001 x 18) y 12) f 6) = _
  generalize hw : put (put (put 0x78000001 x 18) y 12) f 6 = wd
  simp only [put] at hw
  rw [decode_78 (by simp only [bits]; omega),
    if_neg (by simp only [bits]; omega),
    if_neg (by simp only [bits]; omega),
    if_neg (by simp only [bits]; omega),
    if_neg (by simp only [bits]; omega),
    if_neg (by simp only [bits]; omega),
    if_pos (by simp only [bits]; omega),
    show bits wd 23 18 = x from by simp only [bits]; omega,
    show bits wd 17 12 = y from by simp only [bits]; omega,
    show bits wd 7 6 = f from by simp only [bits]; omega]

theorem RoundTrip.scaleNext (f : Nat) : RoundTrip.Statement (.scaleNext f) := by
  intro _ hok
  change (decide (f < 4)) = true at hok
  simp only [decide_eq_true_eq] at hok
  have h1 := hok
  change decode (put 0x78000002 f 6) = _
  generalize hw : put 0x78000002 f 6 = wd
  simp only [put] at hw
  rw [decode_78 (by simp only [bits]; omega),
    if_pos (by simp only [bits]; omega),
    show bits wd 7 6 = f from by simp only [bits]; omega]

theorem RoundTrip.leashTake : RoundTrip.Statement .leashTake := by
  intro _ _
  decide

theorem RoundTrip.leashPass : RoundTrip.Statement .leashPass := by
  intro _ _
  decide

theorem RoundTrip.burst (n : Nat) : RoundTrip.Statement (.burst n) := by
  intro _ hok
  change (decide (n < 64)) = true at hok
  simp only [decide_eq_true_eq] at hok
  have h1 := hok
  change decode (put 0x79000002 n 18) = _
  generalize hw : put 0x79000002 n 18 = wd
  simp only [put] at hw
  rw [decode_79 (by simp only [bits]; omega),
    if_neg (by simp only [bits]; omega),
    if_neg (by simp only [bits]; omega),
    if_pos (by simp only [bits]; omega),
    show bits wd 23 18 = n from by simp only [bits]; omega]

theorem RoundTrip.rbox (x : Nat) (y : Nat) (z : Nat) : RoundTrip.Statement (.rbox x y z) := by
  intro _ hok
  change (decide (x < 64) && decide (y < 64) && decide (z < 64)) = true at hok
  simp only [Bool.and_eq_true, decide_eq_true_eq] at hok
  obtain ⟨⟨h1, h2⟩, h3⟩ := hok
  change decode (put (put (put 0x79000003 x 18) y 12) z 6) = _
  generalize hw : put (put (put 0x79000003 x 18) y 12) z 6 = wd
  simp only [put] at hw
  rw [decode_79 (by simp only [bits]; omega),
    if_neg (by simp only [bits]; omega),
    if_neg (by simp only [bits]; omega),
    if_neg (by simp only [bits]; omega),
    if_pos (by simp only [bits]; omega),
    show bits wd 23 18 = x from by simp only [bits]; omega,
    show bits wd 17 12 = y from by simp only [bits]; omega,
    show bits wd 11 6 = z from by simp only [bits]; omega]

theorem RoundTrip.texSmp (x : Nat) (y : Nat) (z : Nat) : RoundTrip.Statement (.texSmp x y z) := by
  intro _ hok
  change (decide (x < 64) && decide (y < 64) && decide (z < 64)) = true at hok
  simp only [Bool.and_eq_true, decide_eq_true_eq] at hok
  obtain ⟨⟨h1, h2⟩, h3⟩ := hok
  change decode (put (put (put 0x7A000000 x 18) y 12) z 6) = _
  generalize hw : put (put (put 0x7A000000 x 18) y 12) z 6 = wd
  simp only [put] at hw
  rw [decode_7A (by simp only [bits]; omega),
    if_pos (by simp only [bits]; omega),
    show bits wd 23 18 = x from by simp only [bits]; omega,
    show bits wd 17 12 = y from by simp only [bits]; omega,
    show bits wd 11 6 = z from by simp only [bits]; omega]

theorem RoundTrip.texLoad (x : Nat) (y : Nat) (z : Nat) : RoundTrip.Statement (.texLoad x y z) := by
  intro _ hok
  change (decide (x < 64) && decide (y < 64) && decide (z < 64)) = true at hok
  simp only [Bool.and_eq_true, decide_eq_true_eq] at hok
  obtain ⟨⟨h1, h2⟩, h3⟩ := hok
  change decode (put (put (put 0x7A000001 x 18) y 12) z 6) = _
  generalize hw : put (put (put 0x7A000001 x 18) y 12) z 6 = wd
  simp only [put] at hw
  rw [decode_7A (by simp only [bits]; omega),
    if_neg (by simp only [bits]; omega),
    if_pos (by simp only [bits]; omega),
    show bits wd 23 18 = x from by simp only [bits]; omega,
    show bits wd 17 12 = y from by simp only [bits]; omega,
    show bits wd 11 6 = z from by simp only [bits]; omega]

theorem RoundTrip.texGather (x : Nat) (y : Nat) (z : Nat) : RoundTrip.Statement (.texGather x y z) := by
  intro _ hok
  change (decide (x < 64) && decide (y < 64) && decide (z < 64)) = true at hok
  simp only [Bool.and_eq_true, decide_eq_true_eq] at hok
  obtain ⟨⟨h1, h2⟩, h3⟩ := hok
  change decode (put (put (put 0x7A000002 x 18) y 12) z 6) = _
  generalize hw : put (put (put 0x7A000002 x 18) y 12) z 6 = wd
  simp only [put] at hw
  rw [decode_7A (by simp only [bits]; omega),
    if_neg (by simp only [bits]; omega),
    if_neg (by simp only [bits]; omega),
    if_pos (by simp only [bits]; omega),
    show bits wd 23 18 = x from by simp only [bits]; omega,
    show bits wd 17 12 = y from by simp only [bits]; omega,
    show bits wd 11 6 = z from by simp only [bits]; omega]

theorem RoundTrip.cover (x : Nat) (y : Nat) (w : Nat) : RoundTrip.Statement (.cover x y w) := by
  intro _ hok
  change (decide (x < 64) && decide (y < 64) && decide (w < 4)) = true at hok
  simp only [Bool.and_eq_true, decide_eq_true_eq] at hok
  obtain ⟨⟨h1, h2⟩, h3⟩ := hok
  change decode (put (put (put 0x7B000000 x 18) y 12) w 6) = _
  generalize hw : put (put (put 0x7B000000 x 18) y 12) w 6 = wd
  simp only [put] at hw
  rw [decode_7B (by simp only [bits]; omega),
    if_pos (by simp only [bits]; omega),
    show bits wd 23 18 = x from by simp only [bits]; omega,
    show bits wd 17 12 = y from by simp only [bits]; omega,
    show bits wd 7 6 = w from by simp only [bits]; omega]

theorem RoundTrip.rtst (x : Nat) (y : Nat) (z : Nat) : RoundTrip.Statement (.rtst x y z) := by
  intro _ hok
  change (decide (x < 64) && decide (y < 64) && decide (z < 64)) = true at hok
  simp only [Bool.and_eq_true, decide_eq_true_eq] at hok
  obtain ⟨⟨h1, h2⟩, h3⟩ := hok
  change decode (put (put (put 0x7C000000 x 18) y 12) z 6) = _
  generalize hw : put (put (put 0x7C000000 x 18) y 12) z 6 = wd
  simp only [put] at hw
  rw [decode_7C (by simp only [bits]; omega),
    if_neg (by simp only [bits]; omega),
    if_neg (by simp only [bits]; omega),
    if_pos (by simp only [bits]; omega),
    show bits wd 23 18 = x from by simp only [bits]; omega,
    show bits wd 17 12 = y from by simp only [bits]; omega,
    show bits wd 11 6 = z from by simp only [bits]; omega]

theorem RoundTrip.rtclr (z : Nat) : RoundTrip.Statement (.rtclr z) := by
  intro _ hok
  change (decide (z < 64)) = true at hok
  simp only [decide_eq_true_eq] at hok
  have h1 := hok
  change decode (put 0x7C000001 z 6) = _
  generalize hw : put 0x7C000001 z 6 = wd
  simp only [put] at hw
  rw [decode_7C (by simp only [bits]; omega),
    if_pos (by simp only [bits]; omega),
    show bits wd 11 6 = z from by simp only [bits]; omega]

theorem RoundTrip.rtdc (z : Nat) : RoundTrip.Statement (.rtdc z) := by
  intro _ hok
  change (decide (z < 64)) = true at hok
  simp only [decide_eq_true_eq] at hok
  have h1 := hok
  change decode (put 0x7C000002 z 6) = _
  generalize hw : put 0x7C000002 z 6 = wd
  simp only [put] at hw
  rw [decode_7C (by simp only [bits]; omega),
    if_neg (by simp only [bits]; omega),
    if_pos (by simp only [bits]; omega),
    show bits wd 11 6 = z from by simp only [bits]; omega]

theorem RoundTrip.csrr (n : Nat) (s : Nat) : RoundTrip.Statement (.csrr n s) := by
  intro _ hok
  change (decide (n < 4096) && decide (s < 64)) = true at hok
  simp only [Bool.and_eq_true, decide_eq_true_eq] at hok
  obtain ⟨h1, h2⟩ := hok
  change decode (put (put 0x7D000000 n 12) s 0) = _
  generalize hw : put (put 0x7D000000 n 12) s 0 = wd
  simp only [put] at hw
  rw [decode_7D (by simp only [bits]; omega),
    if_pos (by simp only [bits]; omega),
    show bits wd 23 12 = n from by simp only [bits]; omega,
    show bits wd 5 0 = s from by simp only [bits]; omega]

theorem RoundTrip.csrw (n : Nat) (s : Nat) : RoundTrip.Statement (.csrw n s) := by
  intro _ hok
  change (decide (n < 4096) && decide (s < 64)) = true at hok
  simp only [Bool.and_eq_true, decide_eq_true_eq] at hok
  obtain ⟨h1, h2⟩ := hok
  change decode (put (put 0x7D000800 n 12) s 0) = _
  generalize hw : put (put 0x7D000800 n 12) s 0 = wd
  simp only [put] at hw
  rw [decode_7D (by simp only [bits]; omega),
    if_neg (by simp only [bits]; omega),
    if_pos (by simp only [bits]; omega),
    show bits wd 23 12 = n from by simp only [bits]; omega,
    show bits wd 5 0 = s from by simp only [bits]; omega]

theorem RoundTrip.eret : RoundTrip.Statement .eret := by
  intro _ _
  decide

theorem RoundTrip.tlbi (x : Nat) (t : Nat) : RoundTrip.Statement (.tlbi x t) := by
  intro _ hok
  change (decide (x < 64) && decide (t < 8)) = true at hok
  simp only [Bool.and_eq_true, decide_eq_true_eq] at hok
  obtain ⟨h1, h2⟩ := hok
  change decode (put (put 0x7E001000 x 6) t 3) = _
  generalize hw : put (put 0x7E001000 x 6) t 3 = wd
  simp only [put] at hw
  rw [decode_7E (by simp only [bits]; omega),
    if_neg (by simp only [bits]; omega),
    if_neg (by simp only [bits]; omega),
    if_neg (by simp only [bits]; omega),
    if_pos (by simp only [bits]; omega),
    show bits wd 11 6 = x from by simp only [bits]; omega,
    show bits wd 5 3 = t from by simp only [bits]; omega]

theorem RoundTrip.snap (t : Nat) : RoundTrip.Statement (.snap t) := by
  intro _ hok
  change (decide (t < 256)) = true at hok
  simp only [decide_eq_true_eq] at hok
  have h1 := hok
  change decode (put 0x7E002000 t 0) = _
  generalize hw : put 0x7E002000 t 0 = wd
  simp only [put] at hw
  rw [decode_7E (by simp only [bits]; omega),
    if_neg (by simp only [bits]; omega),
    if_neg (by simp only [bits]; omega),
    if_pos (by simp only [bits]; omega),
    show bits wd 7 0 = t from by simp only [bits]; omega]

theorem RoundTrip.sleep (s : Nat) : RoundTrip.Statement (.sleep s) := by
  intro _ hok
  change (decide (s < 64)) = true at hok
  simp only [decide_eq_true_eq] at hok
  have h1 := hok
  change decode (put 0x7E003000 s 6) = _
  generalize hw : put 0x7E003000 s 6 = wd
  simp only [put] at hw
  rw [decode_7E (by simp only [bits]; omega),
    if_neg (by simp only [bits]; omega),
    if_pos (by simp only [bits]; omega),
    show bits wd 11 6 = s from by simp only [bits]; omega]

theorem RoundTrip.lit (p : Nat) : RoundTrip.Statement (.lit p) := by
  intro _ hok
  change (decide (p < 16777216)) = true at hok
  simp only [decide_eq_true_eq] at hok
  have h1 := hok
  change decode (put 0x7F000000 p 0) = _
  generalize hw : put 0x7F000000 p 0 = wd
  simp only [put] at hw
  rw [decode_7F (by simp only [bits]; omega),
    show bits wd 23 0 = p from by simp only [bits]; omega]

theorem RoundTrip.illegalEncoding (i : Nat) : RoundTrip.Statement (.illegalEncoding i) := by
  intro h
  exact absurd (show false = true from h) (by decide)

theorem RoundTrip.yieldHoldExpiry (g : Nat) : RoundTrip.Statement (.yieldHoldExpiry g) := by
  intro h
  exact absurd (show false = true from h) (by decide)

theorem RoundTrip.tileAutoSeal (t : Nat) : RoundTrip.Statement (.tileAutoSeal t) := by
  intro h
  exact absurd (show false = true from h) (by decide)

theorem RoundTrip.teamEndRelease (t : Nat) : RoundTrip.Statement (.teamEndRelease t) := by
  intro h
  exact absurd (show false = true from h) (by decide)

theorem RoundTrip.taskRequeue (k : Nat) : RoundTrip.Statement (.taskRequeue k) := by
  intro h
  exact absurd (show false = true from h) (by decide)

theorem RoundTrip.launch : RoundTrip.Statement .launch := by
  intro h
  exact absurd (show false = true from h) (by decide)

theorem RoundTrip.teamPlacement (cls : Nat) : RoundTrip.Statement (.teamPlacement cls) := by
  intro h
  exact absurd (show false = true from h) (by decide)

theorem RoundTrip.taskGroupForm (r : Nat) : RoundTrip.Statement (.taskGroupForm r) := by
  intro h
  exact absurd (show false = true from h) (by decide)

theorem RoundTrip.batchTimeout (r : Nat) (n : Nat) : RoundTrip.Statement (.batchTimeout r n) := by
  intro h
  exact absurd (show false = true from h) (by decide)

theorem RoundTrip.batchLaunch (r : Nat) (n : Nat) : RoundTrip.Statement (.batchLaunch r n) := by
  intro h
  exact absurd (show false = true from h) (by decide)

theorem RoundTrip.dependantLaunch : RoundTrip.Statement .dependantLaunch := by
  intro h
  exact absurd (show false = true from h) (by decide)

theorem RoundTrip.gridRetire (r : Nat) : RoundTrip.Statement (.gridRetire r) := by
  intro h
  exact absurd (show false = true from h) (by decide)

theorem RoundTrip.eviction (t : Nat) : RoundTrip.Statement (.eviction t) := by
  intro h
  exact absurd (show false = true from h) (by decide)

theorem RoundTrip.relaunch (t : Nat) : RoundTrip.Statement (.relaunch t) := by
  intro h
  exact absurd (show false = true from h) (by decide)

theorem RoundTrip.preemptRequest : RoundTrip.Statement .preemptRequest := by
  intro h
  exact absurd (show false = true from h) (by decide)

theorem RoundTrip.forcedSafePoint (g : Nat) : RoundTrip.Statement (.forcedSafePoint g) := by
  intro h
  exact absurd (show false = true from h) (by decide)

theorem RoundTrip.copyCancel (g : Nat) : RoundTrip.Statement (.copyCancel g) := by
  intro h
  exact absurd (show false = true from h) (by decide)

theorem RoundTrip.teamSave (t : Nat) : RoundTrip.Statement (.teamSave t) := by
  intro h
  exact absurd (show false = true from h) (by decide)

theorem RoundTrip.teamRestore (t : Nat) : RoundTrip.Statement (.teamRestore t) := by
  intro h
  exact absurd (show false = true from h) (by decide)

theorem RoundTrip.kennelDetectorFire (mire : Bool) (c : Nat) (p : Nat) (r : Nat) : RoundTrip.Statement (.kennelDetectorFire mire c p r) := by
  intro h
  exact absurd (show false = true from h) (by decide)

theorem RoundTrip.tallocGrant (g : Nat) : RoundTrip.Statement (.tallocGrant g) := by
  intro h
  exact absurd (show false = true from h) (by decide)

theorem RoundTrip.rsvGrant (g : Nat) : RoundTrip.Statement (.rsvGrant g) := by
  intro h
  exact absurd (show false = true from h) (by decide)

theorem RoundTrip.spawnGrant (g : Nat) : RoundTrip.Statement (.spawnGrant g) := by
  intro h
  exact absurd (show false = true from h) (by decide)

theorem RoundTrip.linkGrant (c : Nat) (p : Nat) : RoundTrip.Statement (.linkGrant c p) := by
  intro h
  exact absurd (show false = true from h) (by decide)

theorem RoundTrip.pairMatch (c : Nat) (p : Nat) : RoundTrip.Statement (.pairMatch c p) := by
  intro h
  exact absurd (show false = true from h) (by decide)

theorem RoundTrip.stepStart (c : Nat) (p : Nat) : RoundTrip.Statement (.stepStart c p) := by
  intro h
  exact absurd (show false = true from h) (by decide)

theorem RoundTrip.stepCommit (c : Nat) (p : Nat) : RoundTrip.Statement (.stepCommit c p) := by
  intro h
  exact absurd (show false = true from h) (by decide)

theorem RoundTrip.stepFault (g : Nat) : RoundTrip.Statement (.stepFault g) := by
  intro h
  exact absurd (show false = true from h) (by decide)

theorem RoundTrip.rboxPassComplete (c : Nat) (p : Nat) : RoundTrip.Statement (.rboxPassComplete c p) := by
  intro h
  exact absurd (show false = true from h) (by decide)

theorem RoundTrip.rampUpEnd (c : Nat) (p : Nat) : RoundTrip.Statement (.rampUpEnd c p) := by
  intro h
  exact absurd (show false = true from h) (by decide)

theorem RoundTrip.rampDownStart (c : Nat) (p : Nat) : RoundTrip.Statement (.rampDownStart c p) := by
  intro h
  exact absurd (show false = true from h) (by decide)

theorem RoundTrip.burstExpiry (c : Nat) (p : Nat) : RoundTrip.Statement (.burstExpiry c p) := by
  intro h
  exact absurd (show false = true from h) (by decide)

theorem RoundTrip.rampDownEnd (c : Nat) (p : Nat) : RoundTrip.Statement (.rampDownEnd c p) := by
  intro h
  exact absurd (show false = true from h) (by decide)

theorem RoundTrip.sleepTimeout (g : Nat) (k : Nat) : RoundTrip.Statement (.sleepTimeout g k) := by
  intro h
  exact absurd (show false = true from h) (by decide)

theorem RoundTrip.userInterruptDelivery (g : Nat) : RoundTrip.Statement (.userInterruptDelivery g) := by
  intro h
  exact absurd (show false = true from h) (by decide)

theorem RoundTrip.copyErrorDelivery (g : Nat) : RoundTrip.Statement (.copyErrorDelivery g) := by
  intro h
  exact absurd (show false = true from h) (by decide)

theorem RoundTrip.copyChunkCounted (c : Nat) (k : Nat) : RoundTrip.Statement (.copyChunkCounted c k) := by
  intro h
  exact absurd (show false = true from h) (by decide)

theorem RoundTrip.stashLineFill (t : Nat) (n : Nat) (l : Nat) : RoundTrip.Statement (.stashLineFill t n l) := by
  intro h
  exact absurd (show false = true from h) (by decide)

theorem RoundTrip.ownershipRegistration (c : Nat) (w : Nat) : RoundTrip.Statement (.ownershipRegistration c w) := by
  intro h
  exact absurd (show false = true from h) (by decide)

theorem RoundTrip.recall (c : Nat) (w : Nat) : RoundTrip.Statement (.recall c w) := by
  intro h
  exact absurd (show false = true from h) (by decide)

theorem RoundTrip.forwardedRead (c : Nat) (w : Nat) : RoundTrip.Statement (.forwardedRead c w) := by
  intro h
  exact absurd (show false = true from h) (by decide)

theorem RoundTrip.readMiss (c : Nat) (x : Nat) : RoundTrip.Statement (.readMiss c x) := by
  intro h
  exact absurd (show false = true from h) (by decide)

theorem RoundTrip.sectorWriteBack (c : Nat) (x : Nat) : RoundTrip.Statement (.sectorWriteBack c x) := by
  intro h
  exact absurd (show false = true from h) (by decide)

theorem RoundTrip.l1Eviction (c : Nat) (l : Nat) : RoundTrip.Statement (.l1Eviction c l) := by
  intro h
  exact absurd (show false = true from h) (by decide)

theorem RoundTrip.hostRead (a : Nat) (n : Nat) : RoundTrip.Statement (.hostRead a n) := by
  intro h
  exact absurd (show false = true from h) (by decide)

theorem RoundTrip.hostWrite (a : Nat) (d : List (BitVec 8)) : RoundTrip.Statement (.hostWrite a d) := by
  intro h
  exact absurd (show false = true from h) (by decide)

theorem RoundTrip.notifyEvaluate (l : Nat) : RoundTrip.Statement (.notifyEvaluate l) := by
  intro h
  exact absurd (show false = true from h) (by decide)

theorem RoundTrip.waitcmpPoll (g : Nat) (k : Nat) : RoundTrip.Statement (.waitcmpPoll g k) := by
  intro h
  exact absurd (show false = true from h) (by decide)

theorem RoundTrip.prqHeadPoll (k : Nat) : RoundTrip.Statement (.prqHeadPoll k) := by
  intro h
  exact absurd (show false = true from h) (by decide)

theorem RoundTrip.pageRequestResolved (k : Nat) : RoundTrip.Statement (.pageRequestResolved k) := by
  intro h
  exact absurd (show false = true from h) (by decide)

theorem RoundTrip.peatFillStart : RoundTrip.Statement .peatFillStart := by
  intro h
  exact absurd (show false = true from h) (by decide)

theorem RoundTrip.peatFillComplete (k : Nat) (ok : Bool) (d : List (BitVec 8)) : RoundTrip.Statement (.peatFillComplete k ok d) := by
  intro h
  exact absurd (show false = true from h) (by decide)

theorem RoundTrip.doorbellWrite (o : Nat) (n : Nat) (v : Nat) : RoundTrip.Statement (.doorbellWrite o n v) := by
  intro h
  exact absurd (show false = true from h) (by decide)

theorem RoundTrip.packetRead : RoundTrip.Statement .packetRead := by
  intro h
  exact absurd (show false = true from h) (by decide)

theorem RoundTrip.dresWrite (v : Nat) : RoundTrip.Statement (.dresWrite v) := by
  intro h
  exact absurd (show false = true from h) (by decide)

theorem RoundTrip.registerWrite (o : Nat) (n : Nat) (v : Nat) : RoundTrip.Statement (.registerWrite o n v) := by
  intro h
  exact absurd (show false = true from h) (by decide)

theorem RoundTrip.warmRestart : RoundTrip.Statement .warmRestart := by
  intro h
  exact absurd (show false = true from h) (by decide)

theorem RoundTrip.hotReset : RoundTrip.Statement .hotReset := by
  intro h
  exact absurd (show false = true from h) (by decide)

theorem RoundTrip.kcfg : RoundTrip.Statement .kcfg := by
  intro h
  exact absurd (show false = true from h) (by decide)

theorem RoundTrip.mcfg : RoundTrip.Statement .mcfg := by
  intro h
  exact absurd (show false = true from h) (by decide)

theorem RoundTrip.qopen : RoundTrip.Statement .qopen := by
  intro h
  exact absurd (show false = true from h) (by decide)

theorem RoundTrip.qclose : RoundTrip.Statement .qclose := by
  intro h
  exact absurd (show false = true from h) (by decide)

theorem RoundTrip.revoke : RoundTrip.Statement .revoke := by
  intro h
  exact absurd (show false = true from h) (by decide)

theorem RoundTrip.inval : RoundTrip.Statement .inval := by
  intro h
  exact absurd (show false = true from h) (by decide)

theorem RoundTrip.uipost : RoundTrip.Statement .uipost := by
  intro h
  exact absurd (show false = true from h) (by decide)

theorem RoundTrip.preempt : RoundTrip.Statement .preempt := by
  intro h
  exact absurd (show false = true from h) (by decide)

theorem RoundTrip.teardown : RoundTrip.Statement .teardown := by
  intro h
  exact absurd (show false = true from h) (by decide)

theorem RoundTrip.iogrant : RoundTrip.Statement .iogrant := by
  intro h
  exact absurd (show false = true from h) (by decide)

theorem RoundTrip.unknownCommand (o : Nat) : RoundTrip.Statement (.unknownCommand o) := by
  intro h
  exact absurd (show false = true from h) (by decide)

theorem RoundTrip.cmdstRead : RoundTrip.Statement .cmdstRead := by
  intro h
  exact absurd (show false = true from h) (by decide)

theorem RoundTrip.hostWaitPost (v : Nat) : RoundTrip.Statement (.hostWaitPost v) := by
  intro h
  exact absurd (show false = true from h) (by decide)

theorem RoundTrip.carve : RoundTrip.Statement .carve := by
  intro h
  exact absurd (show false = true from h) (by decide)

theorem RoundTrip.uncarve : RoundTrip.Statement .uncarve := by
  intro h
  exact absurd (show false = true from h) (by decide)

theorem RoundTrip.confkey : RoundTrip.Statement .confkey := by
  intro h
  exact absurd (show false = true from h) (by decide)

theorem RoundTrip.copyin : RoundTrip.Statement .copyin := by
  intro h
  exact absurd (show false = true from h) (by decide)

theorem RoundTrip.copyout : RoundTrip.Statement .copyout := by
  intro h
  exact absurd (show false = true from h) (by decide)

theorem RoundTrip.attest : RoundTrip.Statement .attest := by
  intro h
  exact absurd (show false = true from h) (by decide)

theorem RoundTrip.unknownServiceRequest : RoundTrip.Statement .unknownServiceRequest := by
  intro h
  exact absurd (show false = true from h) (by decide)

theorem RoundTrip.fatalFault : RoundTrip.Statement .fatalFault := by
  intro h
  exact absurd (show false = true from h) (by decide)

theorem RoundTrip.lockstepMismatch : RoundTrip.Statement .lockstepMismatch := by
  intro h
  exact absurd (show false = true from h) (by decide)

theorem RoundTrip.pwrTargetRun (v : Nat) : RoundTrip.Statement (.pwrTargetRun v) := by
  intro h
  exact absurd (show false = true from h) (by decide)

theorem RoundTrip.pwrTargetListen (v : Nat) : RoundTrip.Statement (.pwrTargetListen v) := by
  intro h
  exact absurd (show false = true from h) (by decide)

theorem RoundTrip.pwrTargetRetain (v : Nat) : RoundTrip.Statement (.pwrTargetRetain v) := by
  intro h
  exact absurd (show false = true from h) (by decide)

theorem RoundTrip.pwrEnvelope (v : Nat) : RoundTrip.Statement (.pwrEnvelope v) := by
  intro h
  exact absurd (show false = true from h) (by decide)

theorem RoundTrip.powerTransitionDone : RoundTrip.Statement .powerTransitionDone := by
  intro h
  exact absurd (show false = true from h) (by decide)

theorem RoundTrip.listenWake : RoundTrip.Statement .listenWake := by
  intro h
  exact absurd (show false = true from h) (by decide)

theorem RoundTrip.channelSelfRefresh (c : Nat) : RoundTrip.Statement (.channelSelfRefresh c) := by
  intro h
  exact absurd (show false = true from h) (by decide)

theorem RoundTrip.thermalThrottle : RoundTrip.Statement .thermalThrottle := by
  intro h
  exact absurd (show false = true from h) (by decide)

theorem RoundTrip.thermalShutdown : RoundTrip.Statement .thermalShutdown := by
  intro h
  exact absurd (show false = true from h) (by decide)

theorem RoundTrip.coreClockStop (c : Nat) : RoundTrip.Statement (.coreClockStop c) := by
  intro h
  exact absurd (show false = true from h) (by decide)

theorem RoundTrip.coreClockRestart (c : Nat) : RoundTrip.Statement (.coreClockRestart c) := by
  intro h
  exact absurd (show false = true from h) (by decide)

theorem RoundTrip.coldReset : RoundTrip.Statement .coldReset := by
  intro h
  exact absurd (show false = true from h) (by decide)

theorem RoundTrip.snaptrigWrite (v : Nat) : RoundTrip.Statement (.snaptrigWrite v) := by
  intro h
  exact absurd (show false = true from h) (by decide)

theorem RoundTrip.snapinPin : RoundTrip.Statement .snapinPin := by
  intro h
  exact absurd (show false = true from h) (by decide)

theorem RoundTrip.snapstWrite (v : Nat) : RoundTrip.Statement (.snapstWrite v) := by
  intro h
  exact absurd (show false = true from h) (by decide)

theorem RoundTrip.sdoorWriteDiscard : RoundTrip.Statement .sdoorWriteDiscard := by
  intro h
  exact absurd (show false = true from h) (by decide)

theorem RoundTrip.kennelRemoteOperation (k : Nat) : RoundTrip.Statement (.kennelRemoteOperation k) := by
  intro h
  exact absurd (show false = true from h) (by decide)

theorem RoundTrip.remoteStashAccess (k : Nat) : RoundTrip.Statement (.remoteStashAccess k) := by
  intro h
  exact absurd (show false = true from h) (by decide)

theorem RoundTrip.commandCompletion : RoundTrip.Statement .commandCompletion := by
  intro h
  exact absurd (show false = true from h) (by decide)

theorem RoundTrip.serviceRequestCompletion : RoundTrip.Statement .serviceRequestCompletion := by
  intro h
  exact absurd (show false = true from h) (by decide)

theorem RoundTrip.warmRestartEnd : RoundTrip.Statement .warmRestartEnd := by
  intro h
  exact absurd (show false = true from h) (by decide)

theorem RoundTrip.recoveryEnd : RoundTrip.Statement .recoveryEnd := by
  intro h
  exact absurd (show false = true from h) (by decide)

theorem RoundTrip.classDBudgetExhausted (r : Nat) : RoundTrip.Statement (.classDBudgetExhausted r) := by
  intro h
  exact absurd (show false = true from h) (by decide)

end Sys2Proof.Laws
end

