-- ==== Sys2Proof/Laws/Vector.lean ====
section
/-! SUPPORT. What the shapes of vector, compare and scalar words leave, once the operands read (R101, R102, R112,
R121): one lemma per shape, which a claim about an instruction cites instead of unfolding it. -/

namespace Sys2Proof.Machine

variable {s : State} {c : Cur} {g : Group} {k : LitKind} {d : Nat} {a b : Src} {x y : Nat → Word}

theorem src1_ok (ha : s.src c g k a = .ok x) (f : (Nat → Word) → Regs) : s.src1 c g k a f = .ok (f x) := by
  simp only [State.src1, ha]

theorem src2_ok (ha : s.src c g k a = .ok x) (hb : s.src c g k b = .ok y) (f : (Nat → Word) → (Nat → Word) → Regs) :
    s.src2 c g k a b f = .ok (f x y) := by
  simp only [State.src2, ha, hb]

theorem regs_leaves {f : Cur → Group → State → Except Stop Regs} {r : Regs} {p : Regs → Prop} (h : s.issuing c g)
    (hf : f c g s = .ok r) (hp : p r) : ∃ t r, issueRegs s f = .next t ∧ s.passed c g r t ∧ p r :=
  let ⟨t, h1, h2⟩ := issueRegs_passed h hf
  ⟨t, r, h1, h2, hp⟩

theorem vec1_leaves (h : s.issuing c g) (hd : d < 64) (ha : s.src c g k a = .ok x) (f : Word → Word) :
    ∃ t r, vec1 s k d a f = .next t ∧ s.passed c g r t ∧ g.regs.onlyV d (c.runs g) (fun t => f (x t)) r :=
  regs_leaves h (src1_ok ha _) (Regs.writeLanes_onlyV c g d _ hd)

theorem vec2_leaves (h : s.issuing c g) (hd : d < 64) (ha : s.src c g k a = .ok x) (hb : s.src c g k b = .ok y)
    (f : Word → Word → Word) :
    ∃ t r, vec2 s k d a b f = .next t ∧ s.passed c g r t ∧ g.regs.onlyV d (c.runs g) (fun t => f (x t) (y t)) r :=
  regs_leaves h (src2_ok ha hb _) (Regs.writeLanes_onlyV c g d _ hd)

theorem vec3_leaves (h : s.issuing c g) (hd : d < 64) (ha : s.src c g k a = .ok x) (hb : s.src c g k b = .ok y)
    (f : Word → Word → Word → Word) :
    ∃ t r, vec3 s k d a b f = .next t ∧ s.passed c g r t ∧
      g.regs.onlyV d (c.runs g) (fun t => f (x t) (y t) (g.regs.getV t d)) r :=
  regs_leaves h (src2_ok ha hb _) (Regs.writeLanes_onlyV c g d _ hd)

theorem stat1_leaves (h : s.issuing c g) (hd : d < 64) (ha : s.src c g k a = .ok x) (f : Word → Word × Stat) :
    ∃ t r, stat1 s k d a f = .next t ∧ s.passed c g r t ∧
      g.regs.onlyStat d (c.runs g) g.width (fun t => f (x t)) r :=
  regs_leaves h (src1_ok ha _) (Regs.writeStat_onlyStat c g d _ hd)

theorem stat2_leaves (h : s.issuing c g) (hd : d < 64) (ha : s.src c g k a = .ok x) (hb : s.src c g k b = .ok y)
    (f : Word → Word → Word × Stat) :
    ∃ t r, stat2 s k d a b f = .next t ∧ s.passed c g r t ∧
      g.regs.onlyStat d (c.runs g) g.width (fun t => f (x t) (y t)) r :=
  regs_leaves h (src2_ok ha hb _) (Regs.writeStat_onlyStat c g d _ hd)

theorem stat3_leaves (h : s.issuing c g) (hd : d < 64) (ha : s.src c g k a = .ok x) (hb : s.src c g k b = .ok y)
    (f : Word → Word → Word → Word × Stat) :
    ∃ t r, stat3 s k d a b f = .next t ∧ s.passed c g r t ∧
      g.regs.onlyStat d (c.runs g) g.width (fun t => f (x t) (y t) (g.regs.getV t d)) r :=
  regs_leaves h (src2_ok ha hb _) (Regs.writeStat_onlyStat c g d _ hd)

theorem Lanes.one_getLsbD (x t : Nat) (ht : t < 64) : (Lanes.one x).getLsbD t = decide (t = x) := by
  unfold Lanes.one
  rw [BitVec.getLsbD_shiftLeft]
  by_cases h : t = x
  · subst h
    simp [ht]
  · by_cases h2 : t < x
    · simp [h2, h]
    · have : t - x ≠ 0 := by omega
      simp [ht, h2, h, this]

theorem Lanes.of_getLsbD (l : List Nat) (t : Nat) (ht : t < 64) : (Lanes.of l).getLsbD t = decide (t ∈ l) := by
  have gen : ∀ (m : Lanes), (l.foldl (fun m i => m ||| Lanes.one i) m).getLsbD t = (m.getLsbD t || decide (t ∈ l)) := by
    induction l with
    | nil => simp
    | cons x xs ih =>
      intro m
      rw [List.foldl_cons, ih, BitVec.getLsbD_or, Lanes.one_getLsbD x t ht, Bool.or_assoc]
      congr 1
      simp [Bool.decide_or]
  unfold Lanes.of
  rw [gen]
  simp

theorem Lanes.where_getLsbD (f : Nat → Bool) (l : List Nat) (t : Nat) (ht : t < 64) :
    (Lanes.where f l).getLsbD t = (decide (t ∈ l) && f t) := by
  unfold Lanes.where
  rw [Lanes.of_getLsbD _ _ ht]
  simp [Bool.decide_and]

/-- A predicate write is a write of pD in the issue set (R112). -/
theorem Regs.setP_onlyP (c : Cur) (g : Group) (d : Nat) (v : Lanes) (f : Nat → Bool)
    (hf : ∀ t, t < 64 → c.runs g t = true → v.getLsbD t = f t) :
    g.regs.onlyP d (c.runs g) g.width f (g.regs.setP d c.map v) := by
  refine ⟨fun n t ht => ?_, Regs.setP_eta _ _ _ _⟩
  have hr : c.runs g t = c.map.getLsbD t := by simp [Cur.runs, ht]
  rw [Regs.getP_setP, hr]
  by_cases h : n = d ∧ d ≠ 0 ∧ c.map.getLsbD t = true
  · rw [if_pos h, if_pos h]
    by_cases h64 : t < 64
    · exact hf t h64 (by rw [hr]; exact h.2.2)
    · have := h.2.2
      rw [BitVec.getLsbD_of_ge _ _ (by omega)] at this
      cases this
  · rw [if_neg h, if_neg h]

theorem cmp2_leaves (h : s.issuing c g) (ha : s.src c g k a = .ok x) (hb : s.src c g k b = .ok y)
    (f : Word → Word → Bool) :
    ∃ t r, cmp2 s k d a b f = .next t ∧ s.passed c g r t ∧
      g.regs.onlyP d (c.runs g) g.width (fun t => f (x t) (y t)) r := by
  refine regs_leaves h (src2_ok ha hb _) (Regs.setP_onlyP c g d _ _ fun t ht hr => ?_)
  rw [Lanes.where_getLsbD _ _ _ ht]
  simp [Cur.mem_lanes, hr]

theorem sca2_leaves (h : s.issuing c g) (ha : s.src c g .int a = .ok x) (hb : s.src c g .int b = .ok y)
    (f : Word → Word → Word) :
    ∃ t r, sca2 s d a b f = .next t ∧ s.passed c g r t ∧ g.regs.onlyS d (f (x 0) (y 0)) r :=
  regs_leaves h (src2_ok ha hb _) ⟨fun _ => Regs.getS_setS _ _ _ _, rfl⟩

end Sys2Proof.Machine
end

