-- ==== Sys2Proof/Tests/Slice0.lean ====
section
/-! SUPPORT. Tests of the model, on fixed values: words of every family written out from the spec's encoding tables decode
to their instructions; a term that breaks a check is ill-formed; single words on a small state give the values of the
spec's worked examples; and for each statement of Certificates/Slice0 a concrete state and operands that meet its
hypotheses, clause by clause where the clauses exclude each other. -/

namespace Sys2Proof.Tests

open Sys2Proof Sys2Proof.Machine

set_option Elab.async false

/-! ## A small state -/

/-- The issue set of the tests: lane 0 of group 3, at packet 0x10000, slot 0, behind a literal of payload 5. -/
def cur0 : Cur := ⟨3, 1, 0x10000, 0, 5, false⟩
/-- A group of 8 lanes of which lane 0 is live, in supervisor mode, running the packet of `cur0`. -/
def group0 : Group := { placeGroup 0 with
  width := 8, vcount := 64, live := 1, bbt := [], blk := some ⟨1, 0x10000, 0, [0, 0, 0], true⟩, firsts := [] }
/-- The part of the placed program with that group, its word being issued. -/
def with_ (g : Group) : State := { State.reset.place 0 with cur := some cur0, groups := [(3, g)] }
def state0 : State := with_ group0
/-- Lane 0's registers of a word's next state; a group with given registers. -/
def regs (r : Regs) : State := with_ { group0 with regs := r }
def after (i : Instr) (s : State) : Group :=
  match exec i s with
  | .next t => (SMap.find t.groups 3).getD group0
  | _ => group0
def v0 (i : Instr) (s : State) (n : Nat) : Nat := ((after i s).regs.getV 0 n).toNat

/-! ## Decoding

The words of the spec's worked examples (R37, R102 to R131, R148 to R157, R98 to R100), and words written out field by
field from R29, R35 and R36. -/

theorem test_decode_packet : decode 0x7F000064 = some (.lit 100) ∧ decode 0x900C03FE = some (.iadd 3 (.v 1) (.lit 63) false)
    ∧ decode 0x50128982 = some (.sadd 4 (.s 4) (.lit 1)) := by decide
theorem test_decode_integer : decode 0x100403FD = some (.iadd 1 (.v 1) (.lit 62) true)
    ∧ decode 0x27280588 = some (.icmp 1 2 (.v 2) (.lit 4) false) ∧ decode 0x2A0420C2 = some (.pand 1 2 3 2) := by decide
theorem test_decode_float : decode 0x3715618C = some (.fsel 5 2 (.lit 3) 6 false)
    ∧ decode 0x33100406 = some (.fma 4 (.v 2) (.v 3) false) := by decide
theorem test_decode_convert : decode 0x5C209618 = some (.cvt 8 9 1 true 3 0) ∧ decode 0x5F204280 = some (.qpack 8 4 0 true 2)
    ∧ decode 0x5F308081 = some (.qunpk 12 8 2) := by decide
/-- SLI s70, −2: [23:17] SD, [16:0] the immediate; SBRA s5, 3 (format I, R29). -/
theorem test_decode_scalar : decode 0x5A8DFFFE = some (.sli 70 0x1FFFE) ∧ decode 0x5B0A0003 = some (.sbra 5 3)
    ∧ decode 0x5E0C0442 = some (.movs 3 17) := by decide
theorem test_decode_barriers : decode 0x702CA000 = some (.pbInit 11 10) ∧ decode 0x7030A002 = some (.pbExpect 12 10)
    ∧ decode 0x7038A801 = some (.pbArriveN 14 10 0) ∧ decode 0x7038A043 = some (.pbWait 14 10 1) := by decide
theorem test_decode_copy : decode 0x6C106281 = some (.lcopy 4 6 5 false true) := by decide
theorem test_decode_graph : decode 0x0F303001 = some (.rsv 12 3 0) ∧ decode 0x0F38D041 = some (.rsv 14 13 1)
    ∧ decode 0x0F30C002 = some (.rcommit 12 12) ∧ decode 0x0F100003 = some (.rget 4) := by decide
theorem test_decode_memory : decode 0x62204900 = some (.ldB128 8 4 true 1 0) ∧ decode 0x6520E200 = some (.stB128 8 14 false 2 0)
    ∧ decode 0x601048FF = some (.ld 4 4 true 0 255) := by decide
/-- ATOM.cas: T 6, ADDR 4, AS 1, G 2, ORD 01, SCOPE 011, AOP 111 (format O, R34). -/
theorem test_decode_ordered : decode 0x68184A5F = some (.atom 6 4 true 2 1 3 7) ∧ decode 0x66184843 = none
    ∧ decode 0x66184858 = some (.ldOrdered 6 4 true 0 1 3) := by decide
theorem test_decode_groups : decode 0x0D102046 = some (.redgScalar 4 2 6) ∧ decode 0x0D0C2020 = some (.scangExcl 3 2 0)
    ∧ decode 0x0E0C5002 = some (.cwin 3 5 0) ∧ decode 0x0E000001 = some .barT := by decide
theorem test_decode_control : decode 0x0120000A = some (.bra 1 false 10) ∧ decode 0x013FFFFF = some (.bra 1 true 0xFFFFF)
    ∧ decode 0x0B000012 = some (.trap 18) ∧ decode 0x06000000 = some .exit := by decide
theorem test_decode_waits : decode 0x711060C0 = some (.waitcmp 4 6 3 0) ∧ decode 0x6F5160C0 = some (.ctrWait 20 22 3) := by decide
theorem test_decode_kennel : decode 0x74088240 = some (.talloc 2 8 9) ∧ decode 0x74080042 = some (.tclaimEach 2) := by decide
theorem test_decode_linked : decode 0x76010001 = some (.tmmaQ 0 16 false false 0) ∧ decode 0x78786000 = some (.fmtset 30 6 0)
    ∧ decode 0x79000001 = some .leashPass := by decide
theorem test_decode_picture : decode 0x7A404500 = some (.texSmp 16 4 20) ∧ decode 0x7B282000 = some (.cover 10 2 0)
    ∧ decode 0x7C209600 = some (.rtst 8 9 24) := by decide
/-- CSRW of 0x111 from s5: [23:12] the number, [11] 1, [5:0] the register; TLBI.va s12 (R36). -/
theorem test_decode_system : decode 0x7D111805 = some (.csrw 0x111 5) ∧ decode 0x7D005005 = some (.csrr 5 5)
    ∧ decode 0x7E001310 = some (.tlbi 12 2) := by decide
/-- Unassigned opcodes and sub-codes decode to none (R35, R36). -/
theorem test_decode_unassigned : decode 0x2D000000 = none ∧ decode 0x41000000 = none ∧ decode 0x73000000 = none
    ∧ decode 0x0E000004 = none ∧ decode 0x7E004000 = none := by decide

/-! ## Ill-formed terms are refused -/

theorem test_wf_holds : (Instr.iadd 63 (.v 63) (.lit 63) true).wellFormed = true ∧ (Instr.tcopy 56 62 15 true false true).wellFormed = true := by
  decide
theorem test_wf_widths : (Instr.iadd 64 (.v 0) (.v 0) false).wellFormed = false ∧ (Instr.iadd 0 (.s 64) (.v 0) false).wellFormed = false
    ∧ (Instr.bra 8 false 0).wellFormed = false ∧ (Instr.bra 0 false 1048576).wellFormed = false ∧ (Instr.sli 128 0).wellFormed = false
    ∧ (Instr.lit 16777216).wellFormed = false := by decide
theorem test_wf_kinds : (Instr.ret (.lit 0)).wellFormed = false ∧ (Instr.jmpx (.lit 0) (.v 0)).wellFormed = false
    ∧ (Instr.sadd 0 (.v 0) (.s 0)).wellFormed = false ∧ (Instr.smov 0 (.v 1)).wellFormed = false
    ∧ (Instr.scmp 1 0 (.s 0) (.v 0) false).wellFormed = false := by decide
theorem test_wf_codes : (Instr.icmp 1 6 (.v 0) (.v 0) false).wellFormed = false ∧ (Instr.frnd 0 (.v 0) 4).wellFormed = false
    ∧ (Instr.redg 0 0 9).wellFormed = false ∧ (Instr.cvt 0 0 0 false 3 3).wellFormed = false ∧ (Instr.movs 0 25).wellFormed = false
    ∧ (Instr.fence 5 1).wellFormed = false ∧ (Instr.fence 0 0).wellFormed = false ∧ (Instr.xfence 0 8).wellFormed = false
    ∧ (Instr.tlbi 4 5).wellFormed = false ∧ (Instr.tlbi 4 0).wellFormed = false ∧ (Instr.cover 0 0 3).wellFormed = false
    ∧ (Instr.csrr 6 0).wellFormed = false ∧ (Instr.csrw 5 0).wellFormed = false ∧ (Instr.fmtset 0 19 0).wellFormed = false := by decide
theorem test_wf_pairs : (Instr.iadd64 1 (.v 0) (.v 0)).wellFormed = false ∧ (Instr.iadd64 0 (.s 1) (.v 0)).wellFormed = false
    ∧ (Instr.lea 0 (.c 3) (.v 0)).wellFormed = false ∧ (Instr.voteBallot 3 0).wellFormed = false ∧ (Instr.rget 5).wellFormed = false
    ∧ (Instr.fmtset 1 12 0).wellFormed = false ∧ (Instr.tstatPut 0 1).wellFormed = false := by decide
theorem test_wf_memory : (Instr.ld 0 3 false 0 0).wellFormed = false ∧ (Instr.ldB64 3 0 false 0 0).wellFormed = false
    ∧ (Instr.stB128 6 0 false 0 0).wellFormed = false ∧ (Instr.ldOrdered 0 0 false 0 2 0).wellFormed = false
    ∧ (Instr.stOrdered 0 0 false 0 1 0).wellFormed = false ∧ (Instr.atom 0 0 false 0 0 5 0).wellFormed = false
    ∧ (Instr.red 0 0 false 0 0 0 7).wellFormed = false ∧ (Instr.lds 0 0 0 7).wellFormed = false ∧ (Instr.sts 0 0 0 5).wellFormed = false
    ∧ (Instr.lds 1 0 0 3).wellFormed = false ∧ (Instr.qpack 0 2 0 false 2).wellFormed = false
    ∧ (Instr.stashMap 60 false 0).wellFormed = false ∧ (Instr.tcopy 0 0 0 true true false).wellFormed = false
    ∧ (Instr.tcopy 0 0 1 false false false).wellFormed = false := by decide

/-! ## Single words: the values of the spec's worked examples -/

/-- The four rows of the encodings example: 0x7FFFFFFE without SF, p1 true, 1.0, code 0x58 with NX. -/
theorem test_iadd_sat : let g := after (.iadd 1 (.v 1) (.lit 62) true) (regs { v := [(1, 0x7FFFFFFF)] })
    g.regs.getV 0 1 = 0x7FFFFFFE ∧ g.regs.fstat = 0 := by decide +kernel
theorem test_iadd_sat_clamps : let g := after (.iadd 1 (.v 1) (.lit 1) true) (regs { v := [(1, 0x7FFFFFFF)] })
    g.regs.getV 0 1 = 0x7FFFFFFF ∧ g.regs.fstat = 0x20 := by decide +kernel
theorem test_icmp_lt : ((after (.icmp 1 2 (.v 2) (.lit 4) false) (regs { v := [(2, 3)] })).regs.getP 1).getLsbD 0 = true := by decide +kernel
theorem test_fsel : v0 (.fsel 5 2 (.lit 3) 6 false) (regs { v := [(6, 0x40400000)], p := [(2, 1)] }) 5 = 0x3F800000
    ∧ v0 (.fsel 5 2 (.lit 3) 6 false) (regs { v := [(6, 0x40400000)] }) 5 = 0x40400000 := by decide +kernel
theorem test_cvt_rz : let g := after (.cvt 8 9 1 true 3 0) (regs { v := [(9, 0x418C0000)] })
    g.regs.getV 0 8 = 0x58 ∧ g.regs.fstat = 0x01 := by decide +kernel
/-- Four values quantised to E4M3: codes and NX, OF, SF (R131's example), and back. -/
theorem test_qpack : let g := after (.qpack 8 4 0 true 2) (regs { v := [(4, 0x402CCCCD), (5, 0xBE99999A), (6, 0x43FA0000), (7, 0x7FC00000)] })
    g.regs.getV 0 8 = 0x7F7EAA43 ∧ g.regs.fstat = 0x25 := by decide +kernel
theorem test_qunpk : let g := after (.qunpk 12 8 2) (regs { v := [(8, 0x7F7EAA43)] })
    (List.range 4).map (fun i => g.regs.getV 0 (12 + i)) = [0x40300000, 0xBEA00000, 0x43E00000, 0x7FC00000] := by decide +kernel
/-- Rounding into E4M3: 17 and 19 tie to even, 464 ties to 448, 465 saturates (R66's example). -/
theorem test_round_e4m3 : (Fmt.e4m3.deliver 0 false (.fin false 17 0)) = (0x58, 1) ∧ (Fmt.e4m3.deliver 0 false (.fin false 19 0)) = (0x5A, 1)
    ∧ (Fmt.e4m3.deliver 0 false (.fin false 464 0)) = (0x7E, 1) ∧ (Fmt.e4m3.deliver 0 false (.fin false 465 0)) = (0x7E, 0x25) := by decide +kernel
/-- Rounding into E2M1: 2.5 to 2, 5 to 4, 0.25 to 0 with UF, −7 to −6 (R66's example). -/
theorem test_round_e2m1 : (Fmt.e2m1.deliver 0 false (.fin false 5 (-1))) = (4, 1) ∧ (Fmt.e2m1.deliver 0 false (.fin false 5 0)) = (6, 1)
    ∧ (Fmt.e2m1.deliver 0 false (.fin false 1 (-2))) = (0, 3) ∧ (Fmt.e2m1.deliver 0 false (.fin true 7 0)) = (0xF, 0x25) := by decide +kernel
/-- The packet example: v1 + 100 from the literal before it, s4 + 1. -/
theorem test_literal : v0 (.iadd 3 (.v 1) (.lit 63) false) (regs { v := [(1, 7)] }) 3 = 12 := by decide +kernel
theorem test_sadd : (after (.sadd 4 (.s 4) (.lit 1)) (regs { s := [(4, 0xFFFFFFFF)] })).regs.getS 4 = 0 := by decide +kernel
/-- A shift of the full width (R107), and SAR's copies of bit 31. -/
theorem test_shifts : v0 (.shl 3 (.v 1) (.lit 32)) (regs { v := [(1, 0x80000001)] }) 3 = 0
    ∧ v0 (.sar 3 (.v 1) (.lit 40)) (regs { v := [(1, 0x80000001)] }) 3 = 0xFFFFFFFF := by decide +kernel
/-- A source that is also the destination: v2:v3 + v2:v3 (R105). -/
theorem test_iadd64 : let g := after (.iadd64 2 (.v 2) (.v 2)) (regs { v := [(2, 0x80000000), (3, 1)] })
    g.regs.getV 0 2 = 0 ∧ g.regs.getV 0 3 = 3 := by decide +kernel
/-- FADD of 1.5 and 2.25; ∞ − ∞ is the canonical NaN with NV (R115). -/
theorem test_fadd : v0 (.fadd 3 (.v 1) (.v 2) false) (regs { v := [(1, 0x3FC00000), (2, 0x40100000)] }) 3 = 0x40700000
    ∧ (let g := after (.fsub 3 (.v 1) (.v 1) false) (regs { v := [(1, 0x7F800000)] })
       g.regs.getV 0 3 = 0x7FC00000 ∧ g.regs.fstat = 0x10) := by decide +kernel
/-- The reduction example: 2^24 and seven 1.0 give 16,777,222 by the tree, with NX (R72). -/
theorem test_redg : let g : Group := { group0 with live := 0xFF, regs := { v := (0, 0x4B800000) :: (List.range 7).map (fun i => (64 * (i + 1), 0x3F800000)) } }
    let t : State := { with_ g with cur := some { cur0 with map := 0xFF } }
    (after (.redg 1 0 6) t).regs.getV 5 1 = 0x4B800003 ∧ (after (.redg 1 0 6) t).regs.fstat = 1 := by decide +kernel
/-- T1 of the two triangles, and T1 under .neg (R210 to R213's example). -/
theorem test_cover : let r : Regs := { v := [(2, 128), (3, 128), (4, 1152), (5, 128), (6, 128), (7, 1152)] }
    v0 (.cover 10 2 0) (regs r) 10 = 0x0103070F ∧ v0 (.cover 10 2 0) (regs r) 11 = 0 ∧ v0 (.cover 10 2 2) (regs r) 10 = 0 := by decide +kernel
theorem test_cover_diagonal : v0 (.cover 10 2 0) (regs { v := [(2, 1152), (3, 128), (4, 1152), (5, 1152), (6, 128), (7, 1152)] }) 10 = 0x0E0C0800 := by
  decide +kernel
/-- OV4: 0x0E is −2, 0; 0x28 is 0, 32; 0x8F is −1024, 0; 0x88 is 0, 0 (R60's example, before the scale). -/
theorem test_ov4 : ov4Pair 0x73 = (3, 7) ∧ ov4Pair 0x0E = (-2, 0) ∧ ov4Pair 0x28 = (0, 32) ∧ ov4Pair 0x8F = (-1024, 0)
    ∧ ov4Pair 0x88 = (0, 0) := by decide

/-! ## Memory, control, traps, the Kennel, host and events -/

/-- The address example (R382 to R387): indices 36, 209, 179, 393, a 4 KiB leaf with U and W. -/
def leafState : State :=
  let m := Memory.write [] 0x100120 (bytesOf 8 0x101001)
  let m := Memory.write m 0x101688 (bytesOf 8 0x102001)
  let m := Memory.write m 0x102598 (bytesOf 8 0x103001)
  let m := Memory.write m 0x103C48 (bytesOf 8 0x0060000400055002)
  { State.reset with mem := { State.reset.mem with cells := m }, ctxs := [(7, { bound := true, tag := 7, s1root := 0x100000 })] }
theorem test_translate : (match leafState.translate ⟨.core 0, 7, false, .read⟩ 0x123456789ABC with
    | .ok pa e => pa == 0x400055ABC && e.bits == 12 && e.w && e.u && !e.x
    | _ => false) = true ∧ leafState.translate ⟨.core 0, 7, false, .fetch⟩ 0x123456789ABC = .denied
    ∧ leafState.translate ⟨.core 0, 7, false, .read⟩ 0x12345678AABC = .absent := by decide +kernel
/-- A store and the load of its bytes, little-endian, at a scaled negative offset (R4, R32). -/
def stored : State := match exec (.st 6 4 false 0 0xFF) (regs { v := [(4, 0x18004), (6, 0x11223344)] }) with
  | .next t => { t with cur := some cur0 }
  | _ => state0
theorem test_store : stored.mem.coreWord 0 (0x18000 / 4) = 0x11223344 ∧ stored.mem.coreByte 0 0x18000 = 0x44
    ∧ stored.mem.coreByte 0 0x18003 = 0x11 ∧ v0 (.ld 7 4 false 0 0xFF) stored 7 = 0x11223344 := by decide +kernel
/-- A misaligned 64-bit load takes cause 0x04 at level S (R33, R363, R365). -/
theorem test_misaligned : let g := after (.ldB64 6 4 false 0 0) (regs { v := [(4, 0x18004)] })
    g.trap.causeS = 0x04 ∧ g.trap.level = .super ∧ g.bbt = [⟨1, 0x30000, 0, .runnable, 0, 0⟩] := by decide +kernel
/-- ATOM add at scope dev writes the old value back; cas that differs stores nothing (R34, R134). -/
theorem test_atom : let s := { stored with groups := [(3, { group0 with regs := { v := [(4, 0x18000), (6, 2)] } })] }
    v0 (.atom 6 4 false 0 0 3 0) s 6 = 0x11223344 ∧ (match exec (.atom 6 4 false 0 0 3 0) s with
      | .next t => t.mem.coreWord 0 (0x18000 / 4)
      | _ => 0) = 0x11223346 := by decide +kernel
theorem test_atom_cas : let s := { stored with groups := [(3, { group0 with regs := { v := [(4, 0x18000), (6, 2), (7, 9)] } })] }
    (match exec (.atom 6 4 false 0 0 3 7) s with
      | .next t => t.mem.coreWord 0 (0x18000 / 4)
      | _ => 0) = 0x11223344 := by decide +kernel
/-- STS of a byte and LDS.b8 sign-extended (R141). -/
theorem test_stash : let s := regs { v := [(2, 0x10), (3, 0x180)] }
    (match exec (.sts 3 2 1 0) s with
      | .next t => v0 (.lds 4 2 1 5) { t with cur := some cur0 } 4
      | _ => 0) = 0xFFFFFF80 := by decide +kernel
/-- A branch backwards by −1 packet and one not taken (R31, R78). -/
theorem test_bra : (after (.bra 1 true 0xFFFFF) state0).bbt.map (fun e => e.pc) = [0xFFF4]
    ∧ (after (.bra 1 false 0xFFFFF) state0).bbt.map (fun e => e.pc) = [0x1000C] := by decide +kernel
/-- CALL writes v0 with the return offset; RET with it goes on behind the CALL (R79). -/
theorem test_call : v0 (.call 0 false 4) state0 0 = 12 ∧ (after (.ret (.lit 24)) state0).bbt.map (fun e => e.pc) = [0x10018] := by decide +kernel
/-- A JMPX target that is no multiple of 12 from the base raises 0x04 (R23, R79). -/
theorem test_jmpx : (after (.jmpx (.s 1) (.lit 1)) state0).trap.causeS = 0x04 := by decide +kernel
/-- TRAP 18: cause 0x0F, frame of the next packet, at SHVEC (R85, R365). -/
theorem test_trap : let g := after (.trap 18) state0
    g.trap.causeS = 0x0F ∧ g.trap.level = .super ∧ g.bbt = [⟨1, 0x30000, 0, .runnable, 0, 0⟩] := by decide +kernel
/-- SLEEP in user mode raises 0x02 and in supervisor mode parks (R224). -/
theorem test_sleep : (after (.sleep 2) (with_ { group0 with trap := { group0.trap with mode := false } })).trap.causeS = 0x02
    ∧ (after (.sleep 2) (regs { s := [(2, 3)] })).parked = [⟨1, 0x10000, 0, .sleep 4200, 0, 0⟩] := by decide +kernel
/-- ERET with no frame active raises 0x01 (R374). -/
theorem test_eret : (after .eret state0).trap.causeS = 0x01 := by decide +kernel
/-- A collective of a partial issue set raises 0x03 (R74). -/
theorem test_vote : (after (.voteAll 1 2) (with_ { group0 with live := 3 })).trap.causeS = 0x03
    ∧ ((after (.voteAll 1 2) state0).regs.getP 1).getLsbD 0 = false := by decide +kernel
/-- CSRW refuses a UHVEC that is no multiple of 12 (R220); SAFECNT reads back. -/
theorem test_csr : (after (.csrw 0x001 2) (regs { s := [(2, 13)] })).trap.causeS = 0x01
    ∧ (after (.csrw 0x001 2) (regs { s := [(2, 24)] })).trap.uhvec = 24 ∧ (after (.csrr 5 2) state0).regs.getS 2 = 65535 := by decide +kernel
/-- PB.INIT of 1, then the one arrival advances the phase (R155, R156). -/
theorem test_barrier : (match exec (.pbInit 2 4) (regs { s := [(2, 1), (4, 0x40)] }) with
    | .next t => (match exec (.pbArriveN 3 4 0) { t with cur := some cur0 } with
      | .next u => (List.range 4).map (((SMap.find u.teams 2).getD placeTeam).pb 0x40)
      | _ => [])
    | _ => []) = [1, 0, 1, 0] := by decide +kernel
/-- A registration takes the word from its last owner, whose copy goes (R282, R283). -/
theorem test_registration : let s : State := { State.reset with mem := { State.reset.mem with
      l1 := [(l1Key 1 5, ⟨7, true⟩), (l1Key 2 5, ⟨8, true⟩)], registry := [(5, ⟨1, false⟩)], regq := [(2, 5)] } }
    (match exec (.ownershipRegistration 2 5) s with
      | .next t => SMap.find t.mem.registry 5 == some ⟨2, false⟩ && (SMap.find t.mem.l1 (l1Key 1 5)).isNone
        && SMap.find t.mem.l1 (l1Key 2 5) == some ⟨8, true⟩
      | _ => false) = true := by decide +kernel
/-- A command with an unknown opcode is refused with 0x01; with one running it is lost (R445, R452). -/
theorem test_command : let s : State := { State.reset with host := { State.reset.host with ready := true } }
    (match exec (.unknownCommand 11) s with
      | .next t => t.cmdst
      | _ => 0) = 0x103 ∧ (match exec (.unknownCommand 11) { s with host := { s.host with cmdState := 1 } } with
      | .next t => t.cmdst
      | _ => 0) = 0x10001 := by decide +kernel
/-- A fatal fault counts and sets RSTAT; the part that has stopped does nothing but a cold reset (R464, R467). -/
theorem test_fatal : (match exec .fatalFault State.reset with
    | .next t => (t.svc.uecnt, t.svc.rstat)
    | _ => (0, 0)) = (1, 1) ∧ (match step { State.reset with agenda := [.event .fatalFault], svc := { State.reset.svc with stopped := true } } with
      | .fault f => decide (f = .partStopped)
      | _ => false) = true := by decide +kernel
/-- The next step after withFetchWord runs the word: IADD v1, 1, 2. -/
theorem test_fetch : (match step (State.reset.withFetchWord 32 0x10058384) with
    | .next t => ((SMap.find t.groups 3).map (fun g => (g.regs.getV 0 1, g.regs.getV 63 1)))
    | _ => none) = some (3, 3) := by decide +kernel

/-! ## The hypotheses of the statements are met -/

theorem issuing0 (g : Group) : (with_ g).issuing cur0 g := ⟨rfl, rfl⟩
theorem lane0 {g : Group} {t : Nat} (h : cur0.runs g t = true) : t = 0 := by
  simp [Cur.runs, cur0] at h
  exact h.2
theorem guard0 {g : Group} {p t : Nat} (h : cur0.on g p t = true) : t = 0 := by
  simp only [Cur.on, Bool.and_eq_true] at h
  exact lane0 h.1

theorem witness_OperandForms : 47 < 48 ∧ 48 ≤ 62 ∧ 62 < 63 ∧ cur0.lit < 2 ^ 16 ∧ (61, 0x3F3504F3).1 ≠ (0 : Nat)
    ∧ (1, 0x3F000000) ∈ [((0 : Nat), (0x00000000 : Nat)), (1, 0x3F000000)] := by decide
/-- Sources of every kind: a vector register, a scalar, an inline literal and the literal word. -/
theorem witness_IntegerWords : state0.issuing cur0 group0 ∧ 63 < 64 ∧ state0.src cur0 group0 .int (.v 63) = .ok (fun t => group0.regs.getV t 63)
    ∧ state0.src cur0 group0 .int (.lit 63) = .ok (fun _ => 5) := ⟨issuing0 _, by decide, rfl, rfl⟩
theorem witness_ShiftAndFieldWords : state0.issuing cur0 group0 ∧ 0 < 64 ∧ state0.src cur0 group0 .int (.s 0) = .ok (fun _ => group0.regs.getS 0)
    ∧ state0.src cur0 group0 .int (.lit 62) = .ok (fun _ => -1) := ⟨issuing0 _, by decide, rfl, rfl⟩
theorem witness_WideWords : state0.issuing cur0 group0 ∧ 62 + 1 < 64 ∧ 63 < 64 ∧ 60 + packCount 2 ≤ 64
    ∧ state0.src64 cur0 group0 (.lit 63) = .ok (fun _ => 5) ∧ state0.src64 cur0 group0 (.lit 48) = .ok (fun _ => -15)
    ∧ state0.src cur0 group0 .int (.lit 48) = .ok (fun _ => -15) := ⟨issuing0 _, by decide, by decide, by decide, rfl, rfl, rfl⟩
theorem witness_ComparesAndPredicates : state0.issuing cur0 group0 ∧ 0 < 64 ∧ state0.src cur0 group0 .int (.lit 1) = .ok (fun _ => 1)
    ∧ state0.src cur0 group0 .flt (.lit 1) = .ok (fun _ => 0x3F000000) := ⟨issuing0 _, by decide, rfl, rfl⟩
theorem witness_ScalarWords : state0.issuing cur0 group0 ∧ 0x1FFFF < 2 ^ 17 ∧ state0.src cur0 group0 .int (.s 63) = .ok (fun _ => group0.regs.getS 63)
    ∧ state0.src cur0 group0 .int (.lit 47) = .ok (fun _ => 47) := ⟨issuing0 _, by decide, rfl, rfl⟩
theorem witness_MovesAndNop : state0.issuing cur0 group0 ∧ state0.src cur0 group0 .int (.v 0) = .ok (fun t => group0.regs.getV t 0)
    ∧ 7 < group0.width ∧ group0.width ≤ 8 ∧ 0x018 < 0x019 := ⟨issuing0 _, rfl, by decide, by decide, by decide⟩
/-- A block at slot 0, and at slot 2 with nothing at the next packet, with an entry there, and with pre-emption asked. -/
theorem witness_MovesAndNop_blocks : group0.blk = some ⟨1, 0x10000, 0, [0, 0, 0], true⟩ ∧ cur0.map &&& group0.live ≠ 0 ∧ cur0.slot < 2
    ∧ (let g := { group0 with blk := some ⟨1, 0x10000, 2, [0, 0, 0], true⟩ }
       ({ with_ g with cur := some { cur0 with slot := 2 } }).issuing { cur0 with slot := 2 } g ∧ g.trap.preempt = false ∧ g.bbt = []
       ∧ ({ g with trap := { g.trap with preempt := true } }).trap.preempt = true
       ∧ ∃ e ∈ ({ g with bbt := [⟨2, 0x1000C, 0, .runnable, 0, 0⟩] }).bbt, e.pc = cur0.pc + 12) :=
  ⟨rfl, by decide, by decide, ⟨rfl, rfl⟩, rfl, rfl, rfl, _, List.mem_singleton.2 rfl, rfl⟩
theorem witness_FloatWords : state0.issuing cur0 group0 ∧ 63 < 64 ∧ state0.src cur0 group0 .flt (.lit 63) = .ok (fun _ => 0x500)
    ∧ state0.src cur0 group0 (.half true) (.lit 3) = .ok (fun _ => 0x3F803F80)
    ∧ state0.src cur0 group0 (.half false) (.lit 3) = .ok (fun _ => 0x3C003C00) := ⟨issuing0 _, by decide, rfl, rfl, rfl⟩
/-- The largest finite code of E2M1 and a subnormal of FP32 are finite; two codes are NaN and one is not. -/
theorem witness_RoundingAndSpecialValues : 15 < 2 ^ Fmt.e2m1.width ∧ (∃ m e, Fmt.e2m1.decode 15 = .fin true m e)
    ∧ (∃ m e, Fmt.fp32.decode 1 = .fin false m e) ∧ Fmt.fp32.decode 0x7F800001 = .nan ∧ Fmt.fp32.decode 0xFFC00000 = .nan
    ∧ Fmt.fp32.decode 0 ≠ .nan := ⟨by decide, ⟨_, _, rfl⟩, ⟨_, _, rfl⟩, by decide, by decide, by decide⟩
theorem witness_FloatFunctions : state0.issuing cur0 group0 ∧ 0 < 64 ∧ state0.src cur0 group0 .flt (.v 1) = .ok (fun t => group0.regs.getV t 1)
    ∧ Fmt.fp32.decode 0x7FC00000 = .nan ∧ (∃ m e, m ≠ 0 ∧ Fmt.fp32.decode 0x80000001 = .fin true m e) :=
  ⟨issuing0 _, by decide, rfl, by decide, _, _, by decide, rfl⟩
theorem witness_Conversions : state0.issuing cur0 group0 ∧ 63 < 64 ∧ 7 < 8 := ⟨issuing0 _, by decide, by decide⟩
/-- One packet back and the longest jump forward of a 17-bit displacement. -/
theorem witness_Branches : state0.issuing cur0 group0 ∧ 0xFFFFF < 2 ^ 20 ∧ 0xFFFF < 2 ^ 17 ∧ 0xFFF4 < 2 ^ 48
    ∧ ((0xFFF4 : Nat) : Int) = cur0.pc + 12 * (BitVec.ofNat 20 0xFFFFF).toInt
    ∧ ((0x10000 + 12 * 65535 : Nat) : Int) = cur0.pc + 12 * (BitVec.ofNat 17 0xFFFF).toInt :=
  ⟨issuing0 _, by decide, by decide, by decide, by decide, by decide⟩
theorem witness_Jumps : state0.issuing cur0 group0 ∧ state0.src cur0 group0 .int (.lit 24) = .ok (fun _ => 24)
    ∧ state0.src cur0 group0 .int (.lit 1) = .ok (fun _ => 1) ∧ group0.width ≤ 64 ∧ (24 : Word).toNat % 12 = 0
    ∧ cur0.runs group0 0 = true ∧ (1 : Word).toNat % 12 ≠ 0 := ⟨issuing0 _, rfl, rfl, by decide, by decide, by decide, by decide⟩
theorem witness_Collectives : state0.issuing cur0 group0 ∧ 62 + 1 < 64 ∧ group0.width ∈ [8, 16, 32, 64] ∧ cur0.map = group0.live
    ∧ (with_ { group0 with live := 3 }).issuing cur0 { group0 with live := 3 } ∧ cur0.map ≠ ({ group0 with live := 3 }).live :=
  ⟨issuing0 _, by decide, by decide, by decide, issuing0 _, by decide⟩
/-- The last arrival of the group and of its team, and one thread runnable elsewhere. -/
theorem witness_Convergence : state0.issuing cur0 group0 ∧ group0.life = .resident ∧ cur0.map ≠ 0 ∧ cur0.map = group0.live ∧ group0.bbt = []
    ∧ group0.parked = [] ∧ state0.groups.filter (fun e => e.2.team == group0.team) = [(cur0.gid, group0)] :=
  ⟨issuing0 _, by decide, by decide, by decide, by decide, by decide, rfl⟩
def pair0 : Group := { group0 with live := 3, bbt := [⟨2, 0x20000, 0, .runnable, 0, 0⟩] }
theorem witness_Convergence_others : (with_ pair0).issuing cur0 pair0 ∧ pair0.stands 1 0x20000 0 .runnable ∧ pair0.live.getLsbD 1 = true
    ∧ cur0.map.getLsbD 1 = false ∧ ∀ pc' slot' w, w ≠ .runnable → ¬ pair0.stands 1 pc' slot' w := by
  refine ⟨issuing0 _, ⟨_, List.mem_singleton.2 rfl, by decide, rfl, rfl, rfl⟩, by decide, by decide, ?_⟩
  rintro pc' slot' w hw ⟨e, he, -, -, -, h⟩
  rw [List.mem_singleton.1 he] at h
  exact hw h.symm
/-- A task's end with nothing held up, and a leader whose follower has ended and runs out its steps. -/
theorem witness_EndsAndHolds_more : (let g := { group0 with isTask := true, tasks := [(0, ⟨0, [], true, 0, []⟩)] }
      (with_ g).issuing cur0 g ∧ g.tasksIn cur0.map = true ∧ (with_ g).stashStuck cur0.gid = false)
    ∧ group0.tasksIn cur0.map = false ∧ (∀ o ∈ state0.mesh, o.stashOf cur0.gid = false) ∧ (with_ { group0 with trap := { group0.trap with preempt := true } }).runsOut group0 = false
    ∧ (let g := { group0 with tile := some { n := 2, int := false, pairNo := 0, paired := true, leader := true, partner := 4 }, trap := { group0.trap with preempt := true } }
       let s := { with_ g with groups := [(3, g), (4, { group0 with live := 0 })] }
       s.issuing cur0 g ∧ g.trap.preempt = true ∧ s.runsOut g = true) :=
  ⟨⟨issuing0 _, by decide, by decide⟩, by decide, by decide, by decide, ⟨rfl, rfl⟩, by decide, by decide⟩
theorem witness_EndsAndHolds : state0.issuing cur0 group0 ∧ SMap.rises state0.groups ∧ cur0.map ≠ 0 ∧ group0.live &&& ~~~cur0.map = 0 ∧ pair0.stands 1 0x20000 0 .runnable
    ∧ cur0.map.getLsbD 1 = false ∧ group0.trap.preempt = false ∧ group0.trap.stopped = false ∧ group0.trap.mode = true ∧ group0.firsts = []
    ∧ group0.isTask = false ∧ group0.batch = none ∧ state0.stashStuck cur0.gid = false ∧ (∀ e ∈ group0.bbt, e.pc ≠ cur0.pc + 12)
    ∧ (let g := { group0 with batch := some (0, [0x1000]) }
       (with_ g).issuing cur0 g ∧ g.batch.isSome = true ∧ (with_ g).stashStuck cur0.gid = false)
    ∧ (let g := { group0 with trap := { group0.trap with mode := false, preempt := true } }
       (with_ g).issuing cur0 g ∧ g.trap.mode = false ∧ g.trap.preempt = true) :=
  ⟨issuing0 _, List.pairwise_singleton _ _, by decide, by decide, ⟨_, List.mem_singleton.2 rfl, by decide, rfl, rfl, rfl⟩, by decide, by decide, by decide, by decide, by decide,
    by decide, by decide, by decide, by decide, ⟨issuing0 _, by decide, by decide⟩, issuing0 _, by decide, by decide⟩
/-- A supervisor group at level none, and a user group with a handler at 24. -/
def user0 : Group := { group0 with trap := { group0.trap with mode := false, uhvec := 24 } }
theorem witness_TakingATrap : state0.issuing cur0 group0 ∧ group0.blk = some ⟨1, 0x10000, 0, [0, 0, 0], true⟩ ∧ group0.isTask = false
    ∧ group0.tile = none ∧ group0.trap.level ≠ .super ∧ cur0.map ≠ 0 ∧ cur0.slot < 3 ∧ 0xFFF < 2 ^ 12 ∧ 0x3F < 64
    ∧ (state0.ctx group0.ctx).shvec % 256 = 0 ∧ group0.images.length ≤ 64
    ∧ ([0x43000, 0x44000] ++ [0x40000]).Pairwise (fun p q => p + 4096 ≤ q ∨ q + 4096 ≤ p)
    ∧ state0.pagesOf group0 .write (group0.trap.gcb + 0x3000) 2 = .ok [0x43000, 0x44000]
    ∧ state0.pagesOf group0 .write group0.trap.gcb 1 = .ok [0x40000] := by
  refine ⟨issuing0 _, rfl, ?_⟩; decide +kernel
theorem witness_TakingATrap_user : (with_ user0).issuing cur0 user0 ∧ user0.trap.level ≠ .super ∧ user0.trap.mode = false
    ∧ user0.trap.uhvec ≠ 0xFFFFFFFF ∧ ([0x41000, 0x42000] ++ [0x40000]).Pairwise (fun p q => p + 4096 ≤ q ∨ q + 4096 ≤ p)
    ∧ (with_ user0).pagesOf user0 .write (user0.trap.gcb + 0x1000) 2 = .ok [0x41000, 0x42000]
    ∧ (with_ user0).pagesOf user0 .write user0.trap.gcb 1 = .ok [0x40000] := by
  refine ⟨issuing0 _, ?_⟩; decide +kernel
/-- Bytes placed in memory. -/
def State.keep (s : State) (a n x : Nat) : State := { s with mem := { s.mem with cells := Memory.write s.mem.cells a (bytesOf n x) } }
/-- A handler about to return: the frame's header has one image, of lane 0 at offset 12. -/
def handler0 : Group := { group0 with trap := { group0.trap with level := .super, causeS := 0x0F, liveS := 1 } }
def trapped0 : State := State.keep (State.keep (with_ handler0) 0x43000 64 (0x0F * 2 ^ 256 + 2 ^ 269 + 2 ^ 275 + 2 ^ 448)) 0x43300 16 (12 * 2 ^ 32 + 2 ^ 64)
theorem witness_ReturningFromATrap : trapped0.issuing cur0 handler0 ∧ cur0.map ≠ 0
    ∧ handler0.trap.level ≠ .none ∧ handler0.frameCause ≠ 0x14 ∧ trapped0.pagesOf handler0 .read handler0.frame 2 = .ok [0x43000, 0x44000]
    ∧ handler0.tile = none ∧ handler0.live ≠ 0 ∧ handler0.life = .resident ∧ handler0.width ≤ 64
    ∧ (let ws := trapped0.readPages handler0.core [0x43000, 0x44000]
       let f := headerOf (wordsNat (ws.take 16))
       let gone := handler0.trap.liveS &&& ~~~handler0.live
       let l := (imagesOf handler0.code gone (ws.drop 192) f.nent).getD []
       frameZeros ws = true ∧ (∀ e ∈ handler0.tasks, e.2.replay = false) ∧ (∀ pa ∈ [0x43000, 0x44000], poisoned trapped0.mem.poison pa 4096 = false)
       ∧ f.nent = 1 ∧ f.nstep = 0 ∧ imagesOf handler0.code gone (ws.drop 192) f.nent = some l ∧ l.length = 1
       ∧ (∀ e ∈ l, e.wait = .runnable ∧ e.map &&& ~~~handler0.trap.liveS = 0) ∧ l.Pairwise (fun e e' => e.map &&& e'.map = 0)
       ∧ ∀ t, t < 64 → handler0.live.getLsbD t = true → ∃ e ∈ l, e.map.getLsbD t = true) := by
  refine ⟨⟨rfl, rfl⟩, ?_⟩; decide +kernel
/-- A handler's frame at a page not present, one in another context's carve-out, none active, and one of cause 0x14. -/
theorem witness_ReturningFromATrap_none : (let g := { handler0 with trap := { handler0.trap with gcb := 0x1FD000 } }
      (with_ g).issuing cur0 g ∧ g.trap.level ≠ .none ∧ g.frameCause ≠ 0x14 ∧ (with_ g).pagesOf g .read g.frame 2 = .error (0x200000, .absent))
    ∧ (let s := { with_ handler0 with svc := { State.reset.svc with carves := [(2, ⟨true, 0x40000, 0x10000, 5⟩)] } }
       s.issuing cur0 handler0 ∧ s.pagesOf handler0 .read handler0.frame 2 = .error (0x43000, .denied))
    ∧ group0.trap.level = .none
    ∧ (let g := { group0 with trap := { group0.trap with level := .super, causeS := 0x14 } }
       (with_ g).issuing cur0 g ∧ SMap.rises (with_ g).groups ∧ g.trap.level ≠ .none ∧ g.frameCause = 0x14) :=
  ⟨⟨issuing0 _, by decide, by decide, by decide +kernel⟩, ⟨⟨rfl, rfl⟩, by decide +kernel⟩, rfl, issuing0 _, List.pairwise_singleton _ _, by decide, by decide⟩
theorem witness_SystemWords : state0.issuing cur0 group0 ∧ group0.trap.level = .none ∧ group0.trap.mode = true ∧ 24 % 12 = 0 ∧ 13 % 12 ≠ 0
    ∧ (0xFFFFFFFF : Word).toNat % 12 ≠ 0 ∧ state0.snap.held = false ∧ handler0.trap.level = .super
    ∧ (with_ user0).issuing cur0 user0 ∧ user0.trap.mode = false ∧ 0x100 ≤ 0x100 ∧ (with_ user0).snap.snapctl % 2 = 0
    ∧ (let s := { state0 with snap := { state0.snap with held := true, snapctl := 1 } }
       s.issuing cur0 group0 ∧ s.snap.held = true ∧ s.snap.snapctl % 2 = 1)
    ∧ ({ user0 with trap := { user0.trap with level := .user } }).trap.level = .user := by
  refine ⟨issuing0 _, rfl, rfl, by decide, by decide, by decide, rfl, by decide +kernel, issuing0 _, rfl, by decide, rfl, ⟨⟨rfl, rfl⟩, rfl, rfl⟩, rfl⟩

/-- A part with a Kennel and a Mire configured, a node and a task entry in its grid, and given tiles. -/
def full (g : Group) (tl : List Tile) : State := { with_ g with
  ctxs := [(1, { (State.reset.place 0).ctx 1 with
    kab := 2 ^ 32, kcfg := { size := 1024, parts := [⟨true, true, 1024, 0⟩] }
    mcfg := { base := 0x80000, size := 16384, parts := [⟨true, true, 1024, 0⟩] } })]
  grids := [(1, { placeGrid with
    lpb := { placeLpb with tceil := 2 }, taskTable := [⟨0, 16⟩], nodes := [⟨0, 8, 0, 1, 32, 0, 4⟩] })]
  kennel := { tiles := tl } }
def tile0 (sealed : Bool) : Tile := ⟨1, 0, 0, 4, 0, none, 2, 3, sealed, 2, 2, 0, 0, [], []⟩
/-- A group with lane 0's registers given. -/
def lane (v : SMap Word) : Group := { group0 with regs := { v := v } }
def risenB (m : MemSys) : Bool := Memory.wf m.cells && decide (m.l1.Pairwise (fun a b => a.1 < b.1))
  && decide (m.l2.Pairwise (fun a b => a.1 < b.1)) && decide (m.registry.Pairwise (fun a b => a.1 < b.1))
  && m.registry.all (fun e => decide (e.1 < 2 ^ 46)) && m.l2.all (fun e => e.2.data.length == 32 && (e.2.dirty || e.2.data == m.slcSector e.1))
theorem risen_of {m : MemSys} (h : risenB m = true) : m.risen := by
  simp only [risenB, Bool.and_eq_true, decide_eq_true_eq, List.all_eq_true, Bool.or_eq_true, beq_iff_eq] at h
  exact ⟨h.1.1.1.1.1, h.1.1.1.1.2, h.1.1.1.2, h.1.1.2, h.1.2, fun e he => ⟨(h.2 e he).1, fun hd => (h.2 e he).2.resolve_left (by simp [hd])⟩⟩
theorem quiet_of {m : MemSys} (h : m.regq = []) (w : Nat) : m.quiet w := by
  intro e he
  rw [h] at he
  exact absurd he List.not_mem_nil
theorem own_of {m : MemSys} (h : m.regq = []) (c w : Nat) : m.ownOnly c w := by
  intro e he
  rw [h] at he
  exact absurd he List.not_mem_nil
/-- A team with one window line, present or not. -/
def windowed (present : Bool) : State := { full group0 [] with
  teams := [(2, { placeTeam with windows := [(0, ⟨false, 0x20000, 0, 256, none, [], []⟩)], lines := [(0, ⟨present, 0x18000, false, true, 21, 0⟩)] })] }
/-- The first page table entry of level 2 without W, U and X, and a stage 2 with nothing mapped. -/
def closed0 : State := { state0 with
  mem := { state0.mem with cells := Memory.write state0.mem.cells 0x3000 (bytesOf 8 2) } }
def staged0 : State := { state0 with ctxs := [(1, { state0.ctx 1 with s2en := true, s2root := 0x5000 })] }
theorem witness_AddressFaults : 0x18001 % 4 ≠ 0 ∧ 2 ^ 48 % 4 = 0
    ∧ (SMap.find (windowed true).teams 2).map (fun t => t.windowOf 0x200FC) = some (some (0, 0))
    ∧ (SMap.find (windowed true).teams 2).map (fun t => t.windowOf 0x20100) = some none
    ∧ ((SMap.find (windowed false).teams 2).bind (fun t => SMap.find t.lines 0)).map (fun e => e.present) = some false
    ∧ ((full group0 [tile0 true]).ctx 1).inAperture (2 ^ 32) = true ∧ (full group0 []).apertureTile 1 (2 ^ 32) = none
    ∧ (full group0 [tile0 true]).apertureTile 1 (2 ^ 32 + 1020) = some (tile0 true, 1020)
    ∧ (full group0 [tile0 false]).apertureTile 1 (2 ^ 32) = some (tile0 false, 0)
    ∧ (state0.ctx 1).inAperture 0x18000 = false ∧ state0.translate (group0.req (.core 0) .read) 0x200000 = .absent
    ∧ closed0.translate (group0.req (.core 0) .write) 0x18000 = .denied
    ∧ (match staged0.translate (group0.req (.core 0) .read) 0x18000 with
      | .stage2 _ => true
      | _ => false) = true
    ∧ (match state0.translate (group0.req (.core 0) .read) 0x1FFFFC with
      | .ok pa _ => decide (pa = 0x1FFFFC)
      | _ => false) = true := by decide +kernel
/-- A line whose fill has failed, a tile line that a pending copy keeps absent, and a poisoned word of memory and of a tile. -/
theorem witness_AddressFaults_more :
    (let e : WinLine := ⟨false, 0, false, false, 12, 0x06⟩
     e.present = false ∧ e.cause ≠ 0)
    ∧ (let s := { full group0 [tile0 false] with copies := [(0, newCopy cur0 group0 true false (.run 0x18000 512) (.tile 0 0 0 0) (.ctr 0x1A000) [] 0)] }
       s.apertureTile 1 (2 ^ 32) = some (tile0 false, 0) ∧ s.tileAbsent 0 0 0 4 = true)
    ∧ (full group0 [tile0 false]).tileAbsent 0 0 0 4 = false
    ∧ poisoned [0x18000 / 8] 0x18004 4 = true ∧ poisoned [] 0x18004 4 = false
    ∧ poisoned ({ tile0 false with poison := [0] } : Tile).poison 4 4 = true := by decide +kernel
/-- Lane 0 reaches the last aligned bytes of the mapped page, or a filling tile. -/
theorem witness_LoadsRead : let g := lane [(4, 0x1FFFF0)]
    (full g []).issuing cur0 g ∧ 60 + 4 ≤ 64 ∧ (full g []).lanesReach cur0 g 0 .read false 16 (laneAddr g 4 false 0) (fun _ => 0x1FFFF0)
    ∧ (full g []).mem.risen ∧ (∀ l i, cur0.on g 0 l = true → i < 4 → (full g []).mem.quiet (0x1FFFF0 / 4 + i)) ∧ cur0.on g 0 0 = true := by
  refine ⟨⟨rfl, rfl⟩, by decide, ?_, risen_of (by decide +kernel), fun _ i _ _ => quiet_of rfl _, by decide⟩
  intro t h
  rw [guard0 h]; decide +kernel
theorem witness_LoadsRead_tile : let g := lane [(4, 1008), (5, 1)]
    (full g [tile0 false]).issuing cur0 g ∧ ∀ l, cur0.on g 0 l = true →
      (full g [tile0 false]).spot g (laneAddr g 4 false 0 l) 16 .read false = .tile 0 0 1008 := by
  refine ⟨⟨rfl, rfl⟩, ?_⟩
  intro t h
  rw [guard0 h]; decide +kernel
theorem witness_StoresWrite : let g := lane [(4, 0x1FFFF0)]
    (full g []).issuing cur0 g ∧ 60 + 4 ≤ 64 ∧ (full g []).lanesReach cur0 g 0 .write false 16 (laneAddr g 4 false 0) (fun _ => 0x1FFFF0)
    ∧ (∀ l, cur0.on g 0 l = true → ∀ q, SMap.find g.tasks l = some q → q.replay = false) ∧ (full g []).mem.risen
    ∧ (∀ l i, cur0.on g 0 l = true → i < 4 → (full g []).mem.ownOnly 0 (0x1FFFF0 / 4 + i)) ∧ ∀ k, cur0.on g 0 k = true ↔ k = 0 := by
  refine ⟨⟨rfl, rfl⟩, by decide, ?_, fun _ _ q h => absurd h (by simp [lane, group0, placeGroup]), risen_of (by decide +kernel),
    fun _ i _ _ => own_of rfl _ _, fun k => ⟨guard0, ?_⟩⟩
  · intro t h
    rw [guard0 h]; decide +kernel
  · intro h
    rw [h]; decide
theorem witness_StoresWrite_tile : let g := lane [(4, 1008), (5, 1)]
    (full g [tile0 false]).issuing cur0 g ∧ (full g [tile0 false]).spot g (laneAddr g 4 false 0 0) 16 .write false = .tile 0 0 1008
    ∧ (full g [tile0 false]).kennel.tileAt 0 0 = some (tile0 false) := by
  refine ⟨⟨rfl, rfl⟩, ?_⟩; decide +kernel
theorem witness_StoresWrite_task : let g := { lane [(4, 0x18000)] with isTask := true, tasks := [(0, ⟨0, [], true, 0, []⟩)] }
    (full g []).issuing cur0 g ∧ SMap.find g.tasks 0 = some ⟨0, [], true, 0, []⟩ ∧ g.granules < 256 ∧ (full g []).mem.risen
    ∧ (full g []).lanesReach cur0 g 0 .write false 4 (laneAddr g 4 false 0) (fun _ => 0x18000) := by
  refine ⟨⟨rfl, rfl⟩, by decide, by decide, risen_of (by decide +kernel), ?_⟩
  intro t h
  rw [guard0 h]; decide +kernel
theorem witness_OrderedAccesses : let g := lane [(4, 0x1FFFFC)]
    let s := full g []
    s.issuing cur0 g ∧ 63 < 64 ∧ 4 < 5 ∧ s.lanesReach cur0 g 0 .read false 4 (laneAddr g 4 false 0) (fun _ => 0x1FFFFC)
    ∧ s.lanesReach cur0 g 0 .write false 4 (laneAddr g 4 false 0) (fun _ => 0x1FFFFC)
    ∧ s.mem.quiet (0x1FFFFC / 4) ∧ s.mem.risen ∧ s.stashStuck 3 = false ∧ (∀ q ∈ g.tasks, q.2.replay = false)
    ∧ (let v := (s.commitTasks 3 1).releaseBy 3 4
       SMap.find v.groups 3 = some g ∧ v.mem.risen ∧ v.mem.ownOnly 0 (0x1FFFFC / 4)) := by
  refine ⟨⟨rfl, rfl⟩, by decide, by decide, ?_, ?_, quiet_of rfl _, risen_of (by decide +kernel), by decide, by decide, by decide +kernel,
    risen_of (by decide +kernel), own_of (by decide +kernel) _ _⟩ <;>
  · intro t h
    rw [guard0 h]; decide +kernel
theorem witness_AtomicAccesses : let g := lane [(4, 0x1FFFFC)]
    let s := full g []
    s.issuing cur0 g ∧ 62 + 1 < 64 ∧ s.stashStuck 3 = false ∧ s.lanesReach cur0 g 0 .write true 4 (laneAddr g 4 false 0) (fun _ => 0x1FFFFC)
    ∧ (∀ k l, cur0.on g 0 k = true → cur0.on g 0 l = true → k = l)
    ∧ (let v := s.commitTasks 3 (cur0.onMap g 0)
       SMap.find v.groups 3 = some g ∧ SMap.find v.teams 2 = some placeTeam ∧ v.mem.risen ∧ v.mem.quiet (0x1FFFFC / 4)) := by
  refine ⟨⟨rfl, rfl⟩, by decide, by decide, ?_, fun k l hk hl => (guard0 hk).trans (guard0 hl).symm, by decide +kernel, by decide +kernel,
    risen_of (by decide +kernel), quiet_of (by decide +kernel) _⟩
  intro t h
  rw [guard0 h]; decide +kernel
theorem witness_AccessStops : let g := lane [(4, 0x18001)]
    (full g []).issuing cur0 g ∧ (full g []).stashStuck 3 = false ∧ cur0.on g 0 0 = true
    ∧ (full g []).spot g (laneAddr g 4 false 0 0) 4 .read false = .fail 0x04
    ∧ [0x15, 0x04, 0x07, 0x08, 0x06, 0x05].takeWhile (fun x => x != 0x04) = [0x15]
    ∧ (∀ q j, cur0.on g 0 j = true → (full g []).spot g (laneAddr g 4 false 0 j) 4 .read false = .fail q → q ∈ [0x15, 0x04, 0x07, 0x08, 0x06, 0x05]) := by
  refine ⟨⟨rfl, rfl⟩, by decide, by decide, by decide +kernel, by decide, ?_⟩
  intro q j h hq
  rw [guard0 h] at hq
  have he : (full (lane [(4, 0x18001)]) []).spot (lane [(4, 0x18001)]) (laneAddr (lane [(4, 0x18001)]) 4 false 0 0) 4 .read false = .fail 0x04 := by
    decide +kernel
  rw [he] at hq
  injection hq with hq
  rw [← hq]; decide
/-- A poisoned word, whose cause comes first, and a page not present. -/
theorem witness_AccessStops_other : let g := lane [(4, 0x18000)]
    let s : State := { full g [] with mem := { (full g []).mem with poison := [0x18000 / 8] } }
    s.spot g (laneAddr g 4 false 0 0) 4 .read false = .fail 0x15 ∧ s.spot g 0x200000 4 .read false = .fail 0x05
    ∧ [0x15, 0x04, 0x07, 0x08, 0x06, 0x05].takeWhile (fun x => x != 0x15) = [] := by decide +kernel
theorem witness_AccessStops_park : let g := lane [(4, 0x20000)]
    let s := { windowed false with groups := [(3, g)] }
    s.issuing cur0 g ∧ cur0.onMap g 0 ≠ 0 ∧ ∀ l, cur0.on g 0 l = true → s.spot g (laneAddr g 4 false 0 l) 4 .read false = .park (.window 2 0 0) := by
  refine ⟨⟨rfl, rfl⟩, by decide, ?_⟩
  intro t h
  rw [guard0 h]; decide +kernel
theorem witness_BatchRecords : let g := { group0 with batch := some (0, [0x80000]) }
    (full g []).issuing cur0 g ∧ 62 + 1 < 64 ∧ 63 < 64
    ∧ (∃ r d, SMap.find (full g []).grids g.grid = some r ∧ r.nodes[0]? = some d ∧ 16 ≤ d.recsz ∧ d.recsz % 16 = 0)
    ∧ (full g []).stepsDue g = false ∧ ((full g []).ctx 1).mcfg.base ≤ 0x80000 :=
  ⟨⟨rfl, rfl⟩, by decide, by decide, ⟨_, _, rfl, rfl, by decide, by decide⟩, rfl, by decide⟩
/-- A count of 65 is too large, 9 beyond the ceiling, 8 granted, and 8 refused room where the partition is full. -/
theorem witness_Reservations : let g := fun (n : Word) => lane [(2, n)]
    let s := fun n => full (g n) []
    (s 8).issuing cur0 (g 8) ∧ cur0.map = (g 8).live ∧ (s 8).mireMay (g 8) (some 0) 16 0 = true ∧ (s 8).mireFit 1 (some 0) 16 = some 0
    ∧ (full (g 8) []).grids.map (fun e => e.2.nodes.map (fun d => (d.ceil, d.recsz))) = [[(8, 32)]]
    ∧ (let t := { s 8 with mire := [⟨1, 1, none, 0, 0, 1020⟩] }
       t.issuing cur0 (g 8) ∧ t.mireMay (g 8) (some 0) 16 0 = false)
    ∧ (state0.issuing cur0 group0 ∧ (SMap.find state0.grids 1).bind (fun r => r.nodes[0]?) = none) := by
  refine ⟨⟨rfl, rfl⟩, by decide, by decide +kernel, by decide +kernel, by decide +kernel, ⟨⟨rfl, rfl⟩, by decide +kernel⟩, ⟨rfl, rfl⟩, by decide +kernel⟩
/-- An offer of one lane with room, one where the partition is full, and none; a commit of one record of a reservation. -/
theorem witness_SpawnAndCommit : let g := { lane [(2, 0x80000), (4, 2)] with resvs := [⟨0, 0, 0x80000, 2⟩] }
    let s := full g []
    let u := (s.commitTasks 3 1).releaseBy 3 3
    s.issuing cur0 g ∧ s.stashStuck 3 = false ∧ cur0.map = g.live ∧ SMap.find u.groups 3 = some g ∧ SMap.find u.teams 2 = some placeTeam
    ∧ u.mireMay g none (1 * 1) 0 = true ∧ (u.taskRuns g 1 1).2 = [0]
    ∧ ({ u with mire := [⟨1, 1, none, 0, 0, 1024⟩] }).mireMay g none 1 0 = false
    ∧ s.coverRecords g g.resvs 0 0x80000 2 = some ([(0, 0x80000), (0, 0x80020)], [])
    ∧ s.coverRecords g g.resvs 0 0x80000 3 = none ∧ (∀ o ∈ g.resvs, o.lane = 0 → o = ⟨0, 0, 0x80000, 2⟩) ∧ s.recSize g 0 = 32 := by
  refine ⟨⟨rfl, rfl⟩, ?_⟩; decide +kernel
/-- The last bytes of the storage, one byte beyond it, a misaligned offset; an absent line; an evicted rank. -/
theorem witness_TeamStorage : let s := full group0 []
    s.issuing cur0 group0 ∧ 4 < 7 ∧ s.stashSpot group0 false true 4080 0 16 = .inl (2, 4080) ∧ s.stashSpot group0 false true 4096 0 16 = .inr (0x07, 4096)
    ∧ s.stashSpot group0 false true 4081 0 16 = .inr (0x04, 4081) ∧ s.lineAbsent 2 4080 16 = false
    ∧ ({ s with copies := [(0, newCopy cur0 group0 false false (.run 0x18000 512) (.tls 2 0) (.ctr 0x1A000) [] 0)] }).lineAbsent 2 496 16 = true ∧ (∀ o ∈ s.mesh, o.stashOf 3 = false)
    ∧ SMap.find (s.commitTasks 3 1).groups 3 = some group0 ∧ Memory.wf placeTeam.tls = true
    ∧ s.barriers 2 = [] ∧ [0x15, 0x04, 0x07].takeWhile (fun q => q != 0x07) = [0x15, 0x04]
    ∧ ({ s with teams := [(2, { placeTeam with poison := [510] })] } : State).stashSpot group0 false true 4080 0 16 = .inr (0x15, 4080)
    ∧ (let t := { s with teams := [(2, placeTeam), (5, { placeTeam with rank := 1, life := .saved })] }
       t.issuing cur0 group0 ∧ t.stashSpot group0 true true 0x01000000 0 4 = .inl (5, 0)) := by
  refine ⟨⟨rfl, rfl⟩, by decide, by decide +kernel, by decide +kernel, by decide +kernel, by decide +kernel, by decide +kernel, by decide,
    by decide +kernel, by decide, by decide, by decide, by decide +kernel, ⟨rfl, rfl⟩, by decide +kernel⟩
/-- A window that fits, one beyond the window space, and misaligned ones; the slot's present line. -/
theorem witness_StashWindows : let s := windowed true
    let tm : Team := { placeTeam with windows := [(0, ⟨false, 0x20000, 0, 256, none, [], []⟩)], lines := [(0, ⟨true, 0x18000, false, true, 21, 0⟩)] }
    let v := s.commitTasks 3 1
    s.issuing cur0 group0 ∧ 7 < 8 ∧ SMap.find s.teams 2 = some tm ∧ SMap.rises tm.windows
    ∧ s.windowFits group0 tm 1 ⟨false, 0x30000, 256, 256, none, [], []⟩ = true
    ∧ s.windowFits group0 tm 1 ⟨false, 0x30000, 0, 256, none, [], []⟩ = false
    ∧ v.mem.risen ∧ (0x30000 : Nat) < 2 ^ 48 ∧ (full group0 []).lineHere 0 0x180 = false ∧ s.lineHere 0 0x180 = true
    ∧ SMap.rises v.mem.dirty ∧ SMap.rises v.mem.l1 ∧ (∀ q ∈ tm.present 0, 64 * q + 64 ≤ 2 ^ 46) ∧ tm.present 0 = [0x180] := by
  refine ⟨⟨rfl, rfl⟩, by decide, rfl, ?_, by decide +kernel, by decide +kernel, risen_of (by decide +kernel), by decide, by decide +kernel,
    by decide +kernel, ?_, ?_, by decide +kernel, by decide +kernel⟩ <;>
    unfold SMap.rises <;> decide +kernel
/-- Lane 0's group with scalars given. -/
def scalars (r : SMap Word) : Group := { group0 with regs := { s := r } }
/-- LCOPY of 256 bytes to the end of the storage, and of 4096 bytes beyond it; TCOPY of 16 words; a chunk of a copy in flight. -/
theorem witness_Copies : let g := { group0 with regs := { v := [(4, 0x18000), (6, 0x10000F00)], s := [(10, 0x1A000)] } }
    let s := full g []
    s.issuing cur0 g ∧ 5 < 32 ∧ SMap.find s.teams 2 = some placeTeam ∧ s.completionAt g false 10 = (.ctr 0x1A000, [])
    ∧ 16 * bits (g.regs.getV 0 6).toNat 31 24 = 256 ∧ bits (g.regs.getV 0 6).toNat 22 0 + 256 = placeTeam.tlsSize
    ∧ flagBit (g.regs.getV 0 6).toNat 23 = false ∧ SMap.find (s.commitTasks 3 1).groups 3 = some g
    ∧ placeTeam.tlsSize < 0xF00 + 16 * bits 0x11000F00 31 24 := by
  refine ⟨⟨rfl, rfl⟩, ?_⟩; decide +kernel
def boxed : Group := { scalars [(0, 0x18000), (3, 15), (8, 0x1A000)] with regs := { s := [(0, 0x18000), (3, 15), (8, 0x1A000)], h := [(2, mkHandle 0 0 0 0)] } }
def boxState : State := State.keep (full boxed [tile0 false]) 0x18000 64
  (0x19000 + 2 * 2 ^ 64 + 16 * 2 ^ 96 + 2 ^ 128 + 2 ^ 160 + 2 ^ 192)
def rec0 : TensorRec := ⟨0x19000, 2, 1, [16, 1, 1, 1], [0, 0, 0]⟩
theorem witness_Copies_box : boxState.issuing cur0 boxed ∧ SMap.find boxState.teams 2 = some placeTeam
    ∧ (boxed.regs.pairS 0).toNat % 64 = 0 ∧ boxState.completionAt boxed false 8 = (.ctr 0x1A000, [])
    ∧ (match boxState.tensorAt cur0 boxed 0x18000 with
      | .ok r => decide (r = rec0)
      | _ => false) = true
    ∧ (match boxCheck cur0 rec0 0x18000 (boxOrigin boxed 0) (boxExtents boxed 0) with
      | .ok _ => true
      | _ => false) = true
    ∧ boxBytes rec0 (boxExtents boxed 0) ≤ placeTeam.tlsSize ∧ boxState.currentTile boxed (boxed.regs.getH 2) = some (tile0 false)
    ∧ boxState.currentTile boxed (boxed.regs.getH 3) = none ∧ (tile0 false).core = placeTeam.home
    ∧ boxed.regs.getS 2 = 0
    ∧ SMap.find ((boxState.afterRead boxed boxed.aheadCache 0x18000).commitTasks 3 1).groups 3 = some boxed := by
  refine ⟨⟨rfl, rfl⟩, ?_⟩; decide +kernel
def copy0 : Copy := newCopy cur0 group0 false false (.run 0x18000 256) (.tls 2 0) (.ctr 0x1A000) [] 0
def copying : State := { full group0 [] with copies := [(0, copy0)] }
theorem witness_Copies_chunk : SMap.find copying.copies 0 = some copy0 ∧ SMap.find copying.groups 3 = some group0
    ∧ SMap.find copying.teams 2 = some placeTeam ∧ copy0.shape = .run 0x18000 256 ∧ 0 ∈ copy0.left ∧ copying.mem.risen
    ∧ Memory.wf placeTeam.tls = true ∧ copy0.covered = [] ∧ copying.barriers 2 = [] ∧ 0x1A000 % 8 = 0 ∧ 256 * 0 < 256
    ∧ copying.mem.poison = []
    ∧ (∀ b, (0x18000 + 256 * 0) / 256 ≤ b → b ≤ (0x18000 + 256 * 0 + 256 - 1) / 256 →
      copying.engineSpot group0 (copy0.cache group0) (256 * b) .read = .mem (256 * b))
    ∧ copying.counterSpot group0 0x1A000 = .mem 0x1A000 ∧ copying.mem.quiet (0x1A000 / 4) := by
  refine ⟨rfl, rfl, rfl, rfl, by decide, risen_of (by decide +kernel), by decide, rfl, by decide, by decide, by decide, rfl, ?_,
    by decide +kernel, quiet_of rfl _⟩
  intro b h1 h2
  have : b = 0x180 := by omega
  subst this
  decide +kernel
/-- A counter of 0 with targets 0 and 1, compared with 0 and 1; a misaligned counter. -/
def counting : Group := scalars [(4, 0x1A000), (6, 0), (8, 1), (10, 0x1A004)]
theorem witness_CountersAndWaits_calm : cur0.map ≠ 0 ∧ (full counting []).mem.risen ∧ ∀ i, i < 2 → (full counting []).mem.quiet (0x1A000 / 4 + i) :=
  ⟨by decide, risen_of (by decide +kernel), fun _ _ => quiet_of rfl _⟩
theorem witness_CountersAndWaits : let s := full counting []
    let v := (s.commitTasks 3 1).releaseBy 3 4
    s.issuing cur0 counting ∧ 4 < 5 ∧ s.stashStuck 3 = false ∧ s.spot counting 0x1A000 8 .write true = .mem 0x1A000
    ∧ s.spot counting 0x1A000 8 .read true = .mem 0x1A000 ∧ s.spot counting 0x1A000 4 .read true = .mem 0x1A000
    ∧ s.spot counting 0x1A000 1 .read true = .mem 0x1A000 ∧ s.spot counting 0x1A004 8 .write true = .fail 0x04
    ∧ SMap.find v.groups 3 = some counting ∧ v.mem.risen ∧ v.mem.quiet (0x1A000 / 4) ∧ SMap.rises v.mem.dirty
    ∧ (counting.regs.pairS 6).toNat ≤ (s.mem.counter 0 0x1A000).toNat ∧ (s.mem.counter 0 0x1A000).toNat < (counting.regs.pairS 8).toNat
    ∧ s.mem.waitWord 0 (0x1A000 / 4) = counting.regs.getS 6 ∧ s.mem.waitWord 0 (0x1A000 / 4) ≠ counting.regs.getS 8 := by
  refine ⟨⟨rfl, rfl⟩, by decide, by decide, by decide +kernel, by decide +kernel, by decide +kernel, by decide +kernel, by decide +kernel,
    by decide +kernel, risen_of (by decide +kernel), quiet_of (by decide +kernel) _, ?_, by decide +kernel, by decide +kernel,
    by decide +kernel, by decide +kernel⟩
  unfold SMap.rises; decide +kernel
/-- A fresh barrier, one that expects two arrivals, and one whose phase is due. -/
def armed (ws : List Nat) : State := { full (scalars [(10, 0x100), (11, 1)]) [] with
  teams := [(2, { placeTeam with tls := Memory.write [] 0x100 (ws.flatMap (bytesOf 4)) })] }
theorem witness_PhaseBarriers : let g := scalars [(10, 0x100), (11, 1)]
    (armed []).issuing cur0 g ∧ cur0.map ≠ 0 ∧ 31 < 32 ∧ (armed []).stashStuck 3 = false ∧ (armed []).barrierSpot g 0x100 = .inl (2, 0x100)
    ∧ Memory.wf ((SMap.find (armed [1, 1, 2, 0]).teams 2).map (fun t => t.tls)).get! = true
    ∧ (∀ q ∈ (armed []).mesh, q.stashOf 3 = false) ∧ (armed []).pbPending 2 0x100 = false ∧ g.regs.getS 11 ≠ 0 ∧ g.regs.getS 12 = 0
    ∧ (SMap.find (armed [1, 1, 2, 0]).teams 2).map (fun t => (List.range 4).map (t.pb 0x100)) = some [1, 1, 2, 0]
    ∧ (armed []).waiters (fun _ w => match w with
      | .pbWait u p _ _ => u == 2 && p == 0x100
      | _ => false) = []
    ∧ (({ armed [] with copies := [(0, newCopy cur0 g false false (.run 0x18000 256) (.tls 2 0) (.pb 2 0x100) [] 0)] }).pbPending 2 0x100) = true := by
  refine ⟨⟨rfl, rfl⟩, ?_⟩; decide +kernel
theorem witness_Fences : let s := full group0 []
    s.issuing cur0 group0 ∧ 1 < 5 ∧ 4 < 5 ∧ s.stashStuck 3 = false ∧ group0.core < 64 ∧ s.mem.risen ∧ SMap.rises s.mem.dirty ∧ 9 % 2 = 1
    ∧ flagBit 9 3 = true := by
  refine ⟨⟨rfl, rfl⟩, by decide, by decide, by decide, by decide, risen_of (by decide +kernel), ?_, by decide, by decide⟩
  unfold SMap.rises; decide
/-- A good request with room and behind the ceiling, a bad one; a claim beyond the reads; a stale handle. -/
def holder (m : Lanes) : Group := { group0 with
  regs := { s := [(8, 1024), (9, 2)], h := [(2, mkHandle 0 0 0 0)], claims := [(2, (m, mkHandle 0 0 0 0))] } }
theorem witness_TilesAllocated : let g := holder 0
    let s := full g [tile0 false]
    let v := s.commitTasks 3 1
    s.issuing cur0 g ∧ cur0.map ≠ 0 ∧ s.stashStuck 3 = false ∧ 4 ≤ s.kennelCeiling 1 (s.homeCore g) 0
    ∧ v.kennelMay g 4 0 (g.firstAge cur0.map cur0.pc cur0.slot s.clock) = some 4 ∧ (g.regs.getS 9).toNat / 2 ^ 20 = 0
    ∧ (let t := full g [{ tile0 false with units := 1022 }]
       (t.commitTasks 3 1).kennelMay g 4 0 (g.firstAge cur0.map cur0.pc cur0.slot t.clock) = none)
    ∧ s.currentTile g (g.regs.getH 2) = some (tile0 false) ∧ s.currentTile g (g.regs.getH 3) = none
    ∧ (full g [tile0 true]).currentTile g (g.regs.getH 2) = some (tile0 true)
    ∧ s.kennel.tiles.Pairwise (fun a b => ¬ (a.core = b.core ∧ a.slot = b.slot))
    ∧ (tile0 false).taken + cur0.map.count ≤ (tile0 false).reads ∧ (g.regs.claim 2).1 &&& cur0.map = 0
    ∧ (s.mesh = [] ∧ g.parked = []) := by
  refine ⟨⟨rfl, rfl⟩, ?_⟩; decide +kernel
theorem witness_TilesAllocated_drop : let g := holder 1
    let s := full g [tile0 true]
    s.issuing cur0 g ∧ hValid (g.regs.getH 2) = true ∧ (g.regs.claim 2).1 &&& cur0.map ≠ 0 ∧ SMap.find (s.commitTasks 3 1).groups 3 = some g
    ∧ s.calm 3 0 0 ∧ hValid (g.regs.getH 3) = false ∧ (g.regs.claim 3).1 &&& cur0.map = 0
    ∧ s.kennel.tileAt 0 0 = some (tile0 true) ∧ s.kennel.gen 0 0 = 0 := by
  refine ⟨⟨rfl, rfl⟩, by decide, by decide, by decide +kernel, ⟨fun o h => absurd h List.not_mem_nil, ?_⟩, by decide, by decide, by decide +kernel,
    by decide +kernel⟩
  intro e he p hp
  rw [List.mem_singleton.1 he] at hp
  exact absurd hp List.not_mem_nil
/-- A tile that a copy still fills, and one of another core. -/
theorem witness_TilesAllocated_seal : let g := holder 0
    let s := { full g [tile0 false] with copies := [(0, newCopy cur0 g true false (.run 0x18000 512) (.tile 0 0 0 0) (.ctr 0x1A000) [] 0)] }
    let far := { g with core := 1 }
    s.issuing cur0 g ∧ s.currentTile g (g.regs.getH 2) = some (tile0 false) ∧ (s.copies.map (fun e => e.2.near)) = [.tile 0 0 (hGen (g.regs.getH 2)) 0]
    ∧ (full g [tile0 false]).copies = [] ∧ (tile0 false).remain ≠ 0 ∧ ({ tile0 false with remain := 0 } : Tile).remain = 0
    ∧ (full far [tile0 false]).issuing cur0 far ∧ (full far [tile0 false]).currentTile far (far.regs.getH 2) = some (tile0 false) ∧ (tile0 false).core ≠ far.core := by
  refine ⟨⟨rfl, rfl⟩, by decide +kernel, by decide +kernel, rfl, by decide, by decide, ⟨rfl, rfl⟩, by decide +kernel, by decide⟩
/-- A parked request that has room, a remote operation in flight, and an ended team. -/
theorem witness_TilesAllocated_events : let g := { holder 0 with parked := [⟨1, 0x10000, 0, .talloc 2 4 2 0, 0, 0⟩] }
    let s := { full g [tile0 false] with mesh := [.seal 3 0 0 0], teams := [(2, { placeTeam with life := .ended })] }
    SMap.find s.groups 3 = some g ∧ s.kennelMay g 4 0 0 = some 4
    ∧ g.wait (fun w => match w with
      | .talloc _ _ _ _ => true
      | _ => false) = some ⟨1, 0x10000, 0, .talloc 2 4 2 0, 0, 0⟩
    ∧ s.mesh[0]? = some (.seal 3 0 0 0) ∧ s.mesh.take 0 = []
    ∧ (SMap.find s.teams 2).map (fun t => t.life) = some .ended ∧ s.copies = [] := by decide +kernel
/-- A sealed and a filling tile of four units with a claim of lane 0: the last aligned 16 bytes, one beyond. -/
def reader : Group := { holder 1 with regs := { (holder 1).regs with v := [(9, 1008), (10, 1024), (11, 4)], s := [(16, 0), (17, 256), (18, 0), (20, 0x1A000)] } }
theorem witness_TilesRead : let s := full reader [tile0 true]
    s.issuing cur0 reader ∧ cur0.map ≠ 0 ∧ 60 + 2 ^ 2 ≤ 64 ∧ 16 + 8 ≤ 128 ∧ 2 < 3 ∧ SMap.find (s.commitTasks 3 1).groups 3 = some reader
    ∧ s.calm 3 0 0 ∧ hValid (reader.regs.getH 2) = true ∧ hValid (reader.regs.getH 5) = false ∧ (reader.regs.claim 2).1 &&& cur0.map ≠ 0
    ∧ (reader.regs.claim 5).1 = 0 ∧ s.kennel.tileAt 0 0 = some (tile0 true) ∧ (full reader [tile0 false]).kennel.tileAt 0 0 = some (tile0 false)
    ∧ (reader.regs.getV 0 9).toNat % 16 = 0 ∧ (reader.regs.getV 0 9).toNat + 16 ≤ 256 * 4 ∧ 256 * 4 < (reader.regs.getV 0 10).toNat + 16
    ∧ (reader.regs.getV 0 11).toNat % 16 ≠ 0 ∧ s.completionAt reader false 20 = (.ctr 0x1A000, []) ∧ SMap.find s.teams 2 = some placeTeam
    ∧ s.currentTile reader (reader.regs.getH 2) = some (tile0 true) ∧ s.currentTile reader (reader.regs.getH 5) = none
    ∧ s.kennelCeiling 1 0 1 = 0 ∧ poisoned (tile0 true).poison 1008 16 = false ∧ poisoned ({ tile0 true with poison := [127] } : Tile).poison 1008 16 = true
    ∧ (let b := 256 * (tile0 true).units - (reader.regs.getS 16).toNat
       (reader.regs.getS 17).toNat = 256 ∧ (reader.regs.getS 18).toNat + 256 ≤ placeTeam.tlsSize ∧ b = 1024) := by
  refine ⟨⟨rfl, rfl⟩, by decide, by decide, by decide, by decide, by decide +kernel, ⟨fun o h => absurd h List.not_mem_nil, ?_⟩, ?_⟩
  · intro e he p hp
    rw [List.mem_singleton.1 he] at hp
    exact absurd hp List.not_mem_nil
  · decide +kernel
/-- A linked group, its pair's controller, and queued steps. -/
def linkTile0 : LinkTile := { n := 2, int := false, pairNo := 0 }
def linked (t : LinkTile) : Group := { group0 with tile := some t }
def paired (g : Group) (p : PairCtl) : State := { full g [tile0 false] with pairs := [(0, p)] }
def step0 (k : StepKind) (frag : Bool) : QStep :=
  ⟨k, 0x10000, 0, 0, frag, frag, 0, 0, List.replicate 8 0, {}, List.replicate 256 0, List.replicate 256 0, 1, 0, false, [], none, none⟩
theorem witness_LinkingTiles : let s := paired group0 { reserve := 13312 }
    let v := s.commitTasks 3 1
    s.issuing cur0 group0 ∧ cur0.map ≠ 0 ∧ cur0.map = group0.live ∧ SMap.find v.groups 3 = some group0 ∧ group0.tile = none
    ∧ linkNeed 2 ≤ 13312 ∧ 13312 < linkNeed 3 ∧ (!v.olderWaits (linkWaits 0 0) 0 0 && (v.regrant 0 0).isNone && v.linkFits 0 0 2 && !v.frozen) = true
    ∧ ((paired group0 { reserve := 13312, tiles := [3] }).linkFits 0 0 2 = true) ∧ group0.leash.state ≠ 1
    ∧ (s.pairCtl 0 0).leashOwner = none ∧ ((paired group0 { leashOwner := some 9 }).pairCtl 0 0).leashOwner ≠ none
    ∧ ({ group0 with leash := ⟨1, 0, 0, 0, false⟩ } : Group).leash.state = 1 ∧ (with_ pair0).issuing cur0 pair0 ∧ cur0.map ≠ pair0.live := by
  refine ⟨⟨rfl, rfl⟩, by decide, by decide, by decide +kernel, by decide, by decide, by decide, by decide +kernel, by decide +kernel, by decide,
    by decide, by decide, by decide, ⟨rfl, rfl⟩, by decide⟩
/-- A tile with and without a queued step, at the west edge of the mesh, and a full pair. -/
theorem witness_LinkingTiles_linked : let s := paired (linked linkTile0) { reserve := 20000, tiles := [3] }
    s.issuing cur0 (linked linkTile0) ∧ (linked linkTile0).tile = some linkTile0 ∧ s.feeder linkTile0 = []
    ∧ s.feeder { linkTile0 with queue := [step0 .tmma true] } ≠ [] ∧ group0.core % 8 = 0 ∧ group0.core % 8 ≠ 7
    ∧ s.linkFits 0 0 2 = false ∧ SMap.rises s.groups := by
  refine ⟨⟨rfl, rfl⟩, rfl, rfl, by decide, by decide, by decide, by decide +kernel, ?_⟩
  unfold SMap.rises; decide
/-- A waiter that fits, a restored tile, and two groups of adjacent cores that ask each other. -/
theorem witness_LinkingTiles_grants : let g := { group0 with parked := [⟨1, 0x10000, 0, .link 2 false, 0, 0⟩] }
    let s := paired g { reserve := 13312 }
    s.regrant 0 0 = none ∧ (oldest (s.waiters (linkWaits 0 0))).map (fun w => w.id) = some 3 ∧ s.linkFits 0 0 2 = true ∧ s.frozen = false
    ∧ (let t := { linkTile0 with pending := true }
       let u := paired (linked t) { reserve := 13312 }
       u.regrant 0 0 = some (3, t) ∧ u.linkFits 0 0 2 = true)
    ∧ (let a := { linked linkTile0 with parked := [⟨1, 0x10000, 0, .pair false, 0, 0⟩] }
       let b := { linked linkTile0 with core := 1, parked := [⟨1, 0x10000, 0, .pair true, 0, 0⟩] }
       let u := { paired a { reserve := 20000, tiles := [3] } with groups := [(3, a), (4, b)] }
       (oldest ((u.pairAsks 0 0 false).filter (fun a => (u.pairAsks 1 0 true).any (fun b => b.g.grid == a.g.grid)))).map (fun w => w.id) = some 3
       ∧ (oldest ((u.pairAsks 1 0 true).filter (fun b => b.g.grid == 1))).map (fun w => w.id) = some 4 ∧ 0 % 8 ≠ 7)
    ∧ (let u := { paired group0 { ramp := 2, tiles := [] } with clock := 512 }
       u.gridQuiet 0 0 64 = true ∧ u.gridQuiet 0 0 512 = true)
    ∧ ((paired group0 { ramp := 1 }).pairCtl 0 0).ramp = 1 ∧ ((paired group0 { ramp := 2, burst := 0 }).pairCtl 0 0).running = none
    ∧ ((paired group0 { ramp := 3 }).pairCtl 0 0).ramp = 3 := by decide +kernel
/-- A linked tile's whole live set, with a record it may write, an idle block, a filling tile of the home core, and records in memory. -/
theorem witness_FormatsAndBlocks : let g := { linked linkTile0 with regs := { s := [(4, 0x18000), (6, 0x20000)], h := [(2, mkHandle 0 0 0 0)] } }
    let s := paired g { reserve := 20000, tiles := [3] }
    let f := linkTile0.fmt 0
    s.issuing cur0 g ∧ cur0.map = g.live ∧ g.tile = some linkTile0 ∧ (f.set 0 1).isSome = true ∧ f.set 0 15 = none
    ∧ 0x18000 % 128 = 0 ∧ s.spot g (g.regs.pairS 4).toNat 128 .read false = .mem 0x18000
    ∧ s.spot g (g.regs.pairS 4).toNat 128 .write false = .mem 0x18000 ∧ s.mem.quiet (0x18000 / 4)
    ∧ (formatOf (wordsNat ((List.range 32).map (s.sees g 0 (.mem 0x18000))))).isSome = true
    ∧ s.blocksWait g linkTile0 0 1 = none ∧ s.blocksWait g { linkTile0 with queue := [step0 .tmma true] } 0 1 = some .wait
    ∧ s.blocksWait g { linkTile0 with paired := true } 0 1 = some (.ask 0 1) ∧ s.blocksWait g linkTile0 0 64 = none ∧ linkTile0.damage 0 64 = none
    ∧ g.tasks = [] ∧ s.mem.l1 = []
    ∧ ({ g with width := 64 } : Group).width ∈ [8, 16, 32, 64] ∧ 0 + 1024 / 64 ≤ 64
    ∧ (∀ o ∈ s.mesh, o.group ≠ 3) ∧ (s.commitTasks 3 1).kennel.tileAt 0 0 = some (tile0 false) ∧ (tile0 false).sealed = false
    ∧ (g.regs.getS 6).toNat % 2 ^ 16 + 64 * (otypeFmt f.otype).width ≤ 256 * ({ tile0 false with units := 8 } : Tile).units
    ∧ (let w := { s with kennel := { tiles := [{ tile0 false with units := 8 }] } }
       w.currentTile g (g.regs.getH 2) = some { tile0 false with units := 8 } ∧ (w.commitTasks 3 1).kennel.tileAt 0 0 = some { tile0 false with units := 8 })
    ∧ linkTile0.damage 0 2 = none ∧ g.width ∈ [8, 16, 32, 64] ∧ 0 + (16 * (otypeFmt f.otype).width + g.width - 1) / g.width ≤ g.vcount
    ∧ g.vcount ≤ 64 ∧ s.currentTile g (g.regs.getH 2) = some (tile0 false) ∧ (tile0 false).core = s.homeCore g
    ∧ (g.regs.getS 6).toNat < 2 ^ 20 ∧ (g.regs.getS 6).toNat / 2 ^ 16 % 16 = 2 ∧ SMap.find (s.commitTasks 3 1).groups 3 = some g := by
  refine ⟨⟨rfl, rfl⟩, by decide, by decide, by decide, by decide, by decide, by decide +kernel, by decide +kernel, quiet_of rfl _, ?_⟩
  decide +kernel
theorem witness_FormatsAndBlocks_unlinked : state0.issuing cur0 group0 ∧ cur0.map = group0.live ∧ group0.tile = none
    ∧ (with_ pair0).issuing cur0 pair0 ∧ cur0.map ≠ pair0.live := ⟨⟨rfl, rfl⟩, by decide, rfl, ⟨rfl, rfl⟩, by decide⟩
theorem witness_FormatsAndBlocks_memory : let g := { linked linkTile0 with regs := { s := [(4, 0x18000), (6, 0x20000)], h := [(2, mkHandle 0 0 0 0)] } }
    let s := paired g { reserve := 20000, tiles := [3] }
    s.mem.risen ∧ s.mem.ownOnly 0 (0x18000 / 4) ∧ s.calm 3 0 0 ∧ s.mem.quiet (0x18000 / 4) := by
  refine ⟨risen_of (by decide +kernel), own_of rfl _ _, ⟨fun o h => absurd h List.not_mem_nil, ?_⟩, quiet_of rfl _⟩
  intro e he p hp
  rw [List.mem_singleton.1 he] at hp
  exact absurd hp List.not_mem_nil
/-- A record without history, one with entries 1.0 and −1.0 whose greatest is positive, and one whose greatest is −1.0. -/
def history (l : List Nat) : FormatRec := { hist := (l ++ List.replicate 16 0).take 16, hpos := l.length, hcnt := l.length }
theorem witness_FormatsAndBlocks_scale : let one := Fmt.fa40.maxCode
    let neg := one + 2 ^ 39
    (history []).valid = [] ∧ (∀ v ∈ (history [neg, one]).valid, v.finite = true)
    ∧ (∃ v ∈ (history [neg, one]).valid, (Num.fin false 0 0).lt v = true ∧ ∀ w ∈ (history [neg, one]).valid, v.lt w = false)
    ∧ (∀ v ∈ (history [neg]).valid, v.finite = true ∧ (Num.fin false 0 0).lt v = false) ∧ (∃ v ∈ (history [neg]).valid, v.isZero = false) := by
  decide +kernel
/-- Room in the queue and a full one; a follower. -/
theorem witness_GridSteps : let g := linked linkTile0
    let s := paired g { reserve := 20000, tiles := [3] }
    let f := linkTile0.fmt 0
    s.issuing cur0 g ∧ cur0.map = g.live ∧ g.tile = some linkTile0 ∧ f.refused false false = false ∧ linkTile0.queue.length < 2
    ∧ 2 ≤ ({ linkTile0 with queue := [step0 .tmma true, step0 .tmma true] }).queue.length
    ∧ 0 % 64 + (fragDwords 32 f.stepK f.typeb + 8 - 1) / 8 ≤ 64
    ∧ s.partnerEnding linkTile0 = false
    ∧ ({ s with groups := [(3, g), (4, { group0 with live := 0 })] }).partnerEnding { linkTile0 with paired := true, leader := true, partner := 4 } = true
    ∧ f.refused false true = true ∧ f.refused true false = true
    ∧ (let t := { linkTile0 with paired := true }
       (with_ (linked t)).issuing cur0 (linked t) ∧ t.paired = true ∧ t.leader = false) := by
  refine ⟨⟨rfl, rfl⟩, by decide, by decide, by decide, by decide, by decide, by decide, by decide, by decide, by decide, by decide, ⟨rfl, rfl⟩, rfl, rfl⟩
/-- The step whose turn it is, on a COLD and a WARM grid: its operands are fetched, or its record is refused; one that runs; a held fault. -/
theorem witness_GridSteps_turn : let t := fun q => { linkTile0 with queue := [q] }
    let s := fun q n => paired { linked (t q) with blk := none, bbt := [⟨1, 0x1000C, 0, .runnable, 0, 0⟩] } { reserve := 20000, tiles := [3], ramp := n }
    ((s (step0 .tmma true) 0).turnStep 0 0).map (fun e => e.1) = some 3 ∧ ((s (step0 .tmma true) 2).turnStep 0 0).map (fun e => e.1) = some 3
    ∧ ((s (step0 .tmma true) 0).pairCtl 0 0).running = none ∧ (step0 .tmma true).waits = none ∧ (step0 .tmma true).held = none
    ∧ (match (s (step0 .tmma true) 2).fetchStep (linked (t (step0 .tmma true))) (t (step0 .tmma true)) (step0 .tmma true) with
      | .ok _ => true
      | _ => false) = true
    ∧ (match (s (step0 .tmma false) 2).fetchStep (linked (t (step0 .tmma false))) (t (step0 .tmma false)) (step0 .tmma false) with
      | .error (.fault _ _) => true
      | _ => false) = true
    ∧ (s (step0 .tmma true) 0).rampMates 0 0 = [0] ∧ (s (step0 .tmma true) 2).wordFirst (t (step0 .tmma true)) (step0 .tmma true) = false ∧ (s (step0 .tmma true) 2).pairedDue 0 0 = false
    ∧ (s (step0 .tmma true) 2).partnerCore (t (step0 .tmma true)) = none ∧ (t (step0 .rbox false)).hurts (step0 .rbox false) = none
    ∧ (let q := { step0 .tmma true with held := some (0x13, 0) }
       ((SMap.find (s q 2).groups 3).bind (fun g => g.async)) = some 7
       ∧ ((SMap.find (s q 2).groups 3).bind (fun g => (s q 2).headStep g)).map (fun q => q.held) = some (some (0x13, 0))
       ∧ (SMap.find (s q 2).groups 3).map (fun g => (g.atBoundary, (g.images.find? (fun e => e.wait == .runnable)).isSome)) = some (true, true)) := by
  decide +kernel
theorem witness_GridSteps_commit : let q : QStep := { step0 .tmma true with started := true, work := [⟨List.replicate 512 0, false, false, false⟩] }
    let g := linked { linkTile0 with queue := [q] }
    let s := paired g { reserve := 20000, tiles := [3], ramp := 2, running := some 3 }
    SMap.find s.groups 3 = some g ∧ (s.pairCtl 0 0).running = some 3 ∧ q.started = true ∧ q.kind ≠ .rbox
    ∧ q.work.map (fun w => w.codes.length) = [512] ∧ (step0 .rbox false).kind = .rbox
    ∧ ({ g with width := 16 }).width ∈ [16, 32, 64] ∧ 48 + 256 / 16 ≤ 64 ∧ g.live ≠ 0
    ∧ s.stepHurt { linkTile0 with queue := [q] } q = none ∧ s.stepHurt { linkTile0 with queue := [q], bad := [0] } q = some 0
    ∧ ({ linkTile0 with bad := [slabArea] } : LinkTile).hurts (step0 .rbox false) = some slabArea := by decide +kernel
theorem witness_GridSteps_memory : (paired (linked linkTile0) { reserve := 20000, tiles := [3], ramp := 2 }).mem.risen := risen_of (by decide +kernel)
/-- A leader and its follower, both resident and live, with a step that runs in both. -/
theorem witness_GridSteps_paired : let q : QStep := { step0 .tmma true with started := true, work := [⟨List.replicate 512 0, false, false, false⟩, ⟨List.replicate 512 0, false, false, false⟩] }
    let g := linked { linkTile0 with queue := [q], paired := true, leader := true, partner := 4 }
    let h := { linked { linkTile0 with paired := true, partner := 3 } with core := 1 }
    let s := { paired g { reserve := 20000, tiles := [3], ramp := 2, running := some 3 } with groups := [(3, g), (4, h)] }
    SMap.find s.groups 4 = some h ∧ h.live ≠ 0 ∧ q.work.map (fun w => w.codes.length) = [512, 512] ∧ (s.pairCtl 0 0).running = some 3
    ∧ g.tile.map (fun t => s.stepHurt t q) = some none ∧ s.rampMates 0 0 = [0]
    ∧ ({ s with pairs := s.pairs ++ [(3, s.pairCtl 0 0)] }).rampMates 0 0 = [0, 1] := by decide +kernel
/-- A queued step whose block a word of its follower asked for first, and one that was queued before the word. -/
theorem witness_GridSteps_word : let q := fun n : Nat => { step0 .tmma true with born := n }
    let t := fun n => { linkTile0 with queue := [q n], paired := true, leader := true, partner := 4 }
    let h := { linked { linkTile0 with paired := true, partner := 3 } with core := 1, blockAsk := some (5, 0, 1) }
    let s := fun n => { paired (linked (t n)) { reserve := 20000, tiles := [3], ramp := 2 } with groups := [(3, linked (t n)), (4, h)] }
    (s 7).wordFirst (t 7) (q 7) = true ∧ ((s 7).turnStep 0 0).map (fun e => e.1) = some 3 ∧ (s 7).pairedDue 0 0 = false
    ∧ (s 7).partnerCore (t 7) = some 1 ∧ ((s 7).pairCtl 1 0).running = none ∧ (s 5).wordFirst (t 5) (q 5) = false := by decide +kernel
theorem witness_Coverage : state0.issuing cur0 group0 ∧ 62 + 1 < 64 ∧ 2 < 3 := ⟨⟨rfl, rfl⟩, by decide, by decide⟩
/-- An 8 × 8 texture of RGBA8 texels at 0x100000, marked resident; a texel within, one outside, and refused control words. -/
def texState (ctl : Word) : State := State.keep (State.keep (full { group0 with
    regs := { v := [(4, 7), (5, 7), (6, 8)], s := [(20, 0x18000), (22, ctl)] } } []) 0x18000 64
  (0x100000 + 0x1A000 * 2 ^ 64 + 0x1A100 * 2 ^ 128 + 7 * 2 ^ 256 + 7 * 2 ^ 272)) 0x1A000 1 1
def texGroup (ctl : Word) : Group := { group0 with regs := { v := [(4, 7), (5, 7), (6, 8)], s := [(20, 0x18000), (22, ctl)] } }
theorem witness_Texturing : (texState 0).issuing cur0 (texGroup 0) ∧ (texGroup 0).vcount ≤ 64 ∧ (0x18 : Nat) / 8 % 4 = 3
    ∧ (texGroup 0).regs.getS 22 = 0 ∧ 16 % 4 = 0 ∧ 16 + 4 ≤ 64 ∧ 0x18000 % 64 = 0 ∧ 0x18020 % 64 ≠ 0
    ∧ (match (texState 0).readX (texGroup 0) 0x18000 64 with
      | .ok b => (match texOf (natOf b) with
        | some d => decide (d.width 0 = 8 ∧ d.height 0 = 8 ∧ d.latent = false ∧ 0 < d.nlev)
          && (match (texState 0).tableImage (texGroup 0) d, (texState 0).pageCode (texGroup 0) d (d.texelOff 0 0 7 7 / 65536),
              (texState 0).readX (texGroup 0) (d.base + d.texelOff 0 0 7 7) d.texelBytes with
            | .ok tb, .ok 1, .ok _ => ((texState 0).loadLane (texGroup 0) d tb 0 4 0).faults.isEmpty
              && ((texState 0).loadLane (texGroup 0) d tb 0 4 0).asks.isEmpty
              && ((texState 0).askFaults (texGroup 0) d ((texState 0).loadLane (texGroup 0) d tb 0 4 0).asks).isEmpty
            | _, _, _ => false)
        | none => false)
      | _ => false) = true
    ∧ (match (full group0 []).readX group0 0x19040 64 with
      | .ok b => (texOf (natOf b)).isSome
      | _ => true) = true ∧ (texOf (2 ^ 512 - 1)).isNone = true ∧ (texState 0).mem.regq = [] := by
  refine ⟨⟨rfl, rfl⟩, ?_⟩; decide +kernel
/-- A target of 4 tiles: slots at 0x20000, modes at 0x22000; its last tile, one beyond, no tile, whose mode byte is 0x02. -/
def rtState : State := State.keep (State.keep (full (scalars [(24, 0x18000), (26, 3), (27, 1)]) []) 0x18000 32
  (0x20000 * 2 ^ 64 + 0x22000 * 2 ^ 128 + 4 * 2 ^ 192)) 0x22003 1 2
def rtWord (k : Nat) (op : TargetOp) : TargetWord := ⟨3, 0, 1, .mem (0x22000 + k), some (.mem (0x20000 + 256 * k)), 0, op, 0x22000 + k, 0x20000 + 256 * k⟩
theorem witness_RenderTargets : let g := scalars [(24, 0x18000), (26, 3), (27, 1)]
    let v := rtState.commitTasks 3 1
    rtState.issuing cur0 g ∧ (match v.targetAt cur0 g 24 with
      | .ok (v1, va, d) => decide (va = 0x18000 ∧ d.ntiles = 4 ∧ d.slots = 0x20000 ∧ d.modes = 0x22000 ∧ v1.targetHurt (rtWord 3 .clear) = none)
      | _ => false) = true
    ∧ SMap.find v.groups 3 = some g ∧ v.mem.risen ∧ 3 < 4 ∧ 4 < 4 + 1 ∧ v.spot g (0x20000 + 256 * 3) 1 .write false = .mem 0x20300 ∧ 0x20000 % 256 = 0
    ∧ v.spot g ((0x22000 + 3) / 256 * 256) 1 .write false = .mem 0x22000 ∧ (0x20300 : Nat) ≠ 0x22000 ∧ (∀ w, v.mem.quiet w)
    ∧ modeListed (v.mem.sliceByte 0x22003).toNat = true ∧ rtState.mem = v.mem := by
  refine ⟨⟨rfl, rfl⟩, by decide +kernel, by decide +kernel, risen_of (by decide +kernel), by decide, by decide, by decide +kernel, by decide,
    by decide +kernel, by decide, fun w => quiet_of (by decide +kernel) w, by decide +kernel, by decide +kernel⟩
/-- Words of one group in flight to two tiles: neither waits for the other; a word whose slot holds an error; a younger word. -/
theorem witness_RenderTargets_arrives : ∀ op ∈ [TargetOp.pixels [(0, 7)], .clear, .expand],
    let s := { rtState with targets := [rtWord 0 .clear, rtWord 3 op, rtWord 3 .clear] }
    s.targets[1]? = some (rtWord 3 op) ∧ (∀ o ∈ s.targets.take 1, o.before (rtWord 3 op) = false) ∧ s.targetHurt (rtWord 3 op) = none ∧ 0x20300 % 256 = 0
    ∧ 0x22003 / 256 ≠ 0x20300 / 256 ∧ (∃ o ∈ s.targets.take 2, o.group = 3 ∧ o.map &&& 1 ≠ 0 ∧ o.mode = .mem 0x22003)
    ∧ ({ s with mem := { s.mem with poison := [0x22003 / 8] } }).targetHurt (rtWord 3 .expand) = some 0x22003 ∧ (∀ u ∈ s.targets, u.group ≠ 4) := by decide +kernel
/-- Tables of the hierarchy with one word in each place: word 5 owned by core 1 with a newer store of core 2 in flight. -/
def owning : MemSys := {
  l1 := [(l1Key 1 5, ⟨7, true⟩), (l1Key 2 5, ⟨8, true⟩)], registry := [(5, ⟨1, false⟩)], regq := [(2, 5)]
  dirty := [(secKey 1 0, ())], misses := [(3, 0)], notify := [0] }
theorem witness_OwnershipEvents : let s : State := { State.reset with mem := owning }
    let q : State := { State.reset with mem := { owning with regq := [] } }
    s.mem.risen ∧ s.mem.regq.contains (2, 5) = true ∧ SMap.find s.mem.registry 5 = some ⟨1, false⟩ ∧ s.mem.regq.contains (1, 5) = false
    ∧ s.mem.quiet 64 ∧ q.mem.quiet (32 * 0) ∧ q.mem.misses.contains (3, 5 / 32) = true ∧ 0 < 2 ^ 41 ∧ 1 < 48 ∧ SMap.rises q.mem.dirty
    ∧ SMap.find q.mem.dirty (secKey 1 0) = some () ∧ 48 ≤ 48 ∧ q.mem.still (64 * 0) 64
    ∧ ∀ e ∈ q.teams, e.2.core = 1 → e.2.life = .resident → ∀ v ∈ e.2.lines, v.2.present = true → v.2.pa / 256 ≠ 0 := by
  refine ⟨risen_of (by decide +kernel), by decide, by decide, by decide, ?_, quiet_of rfl _, by decide, by decide, by decide, ?_, by decide, by decide,
    fun e he => absurd he List.not_mem_nil, fun e he => absurd he List.not_mem_nil⟩
  · intro e he
    rw [List.mem_singleton.1 he]; decide
  · unfold SMap.rises; decide
/-- A pair of registrations in flight, a recall of an owned copy at a core that has lost the word, with its newer store in
flight and without, and a sector of a slice, dirty, clean, and at its home slice. -/
theorem witness_OwnershipEvents_more : let pair : MemSys := { owning with regq := [(2, 4), (2, 5)] }
    let sec := fun d => ({ owning with l2 := [(2, ⟨List.replicate 32 0, d⟩)] } : MemSys)
    pair.risen ∧ (∀ e ∈ pair.regq, e.2 / 2 = 5 / 2 → e.1 = 2) ∧ pair.regq.contains (2, sibling 5) = true
    ∧ (∀ e ∈ owning.regq, e.2 / 2 = 5 / 2 → e.1 = 2) ∧ owning.regq.contains (2, sibling 5) = false
    ∧ SMap.find owning.l1 (l1Key 2 5) = some ⟨8, true⟩ ∧ owning.regq.contains (2, 5) = true ∧ ({ owning with regq := [] } : MemSys).regq.contains (2, 5) = false
    ∧ ({ State.reset with mem := owning } : State).mayFill 3 (64 / 32) = true ∧ (sec true).risen ∧ (sec false).risen
    ∧ SMap.find (sec true).l2 2 = some ⟨List.replicate 32 0, true⟩ ∧ 49 = 48 + 2 / 2 % 24 ∧ 48 ≠ 48 + 2 / 2 % 24 := by
  refine ⟨risen_of (by decide +kernel), by decide, by decide, by decide, by decide, by decide, by decide, by decide, by decide +kernel,
    risen_of (by decide +kernel), risen_of (by decide +kernel), by decide +kernel, by decide, by decide⟩
/-- A host access inside and outside a carve-out; a device waiter and a host wait on a line whose stores are all performed. -/
def waiting (v : Word) : Group := { group0 with parked := [⟨1, 0x10000, 0, .waitcmp 0x18000 v 0 3 false, 0, 0⟩] }
def notifying (g : Group) (w : List HostWait) : State := { full g [] with
  mem := { (full g []).mem with notify := [0x180] }, host := { (full g []).host with waits := w } }
theorem witness_HostAccesses : let s := notifying (waiting 0) []
    (0x18000 : Nat) < 2 ^ 48 ∧ s.pwr.state ≠ .retain ∧ s.svc.covers 0x18000 8 = false
    ∧ (({ s.svc with carves := [(0, ⟨true, 0x10000, 0x10000, 1⟩)] } : Service).covers 0x1FFFF 1) = true ∧ s.mem.risen
    ∧ 0x18000 + 8 ≤ 2 ^ 48 ∧ s.mem.still (0x18000 / 4) 4 ∧ s.mem.notify.contains 0x180 = true ∧ s.mem.regq = [] ∧ s.pwr.target ≠ .listen
    ∧ (waiting 0).parked.map (fun p => p.why.watches 0x180) = [true] ∧ (s.waiters (fun _ w => w.watches 0x180)).length = 1
    ∧ s.waitHolds 0 (.waitcmp 0x18000 0 0 3 false) = true ∧ s.waitHolds 0 (.waitcmp 0x18000 1 0 3 false) = false
    ∧ (let t := notifying group0 [⟨0x18000, 0x18000, 21, 1, 0, 0, 0x1A000, 77⟩]
       t.host.waits.map (fun w => w.pa / 256 == 0x180) = [true] ∧ t.svc.covers 0x1A000 8 = false ∧ group0.parked = []) := by
  refine ⟨by decide, by decide, by decide, by decide, risen_of (by decide +kernel), by decide, fun e he => absurd he List.not_mem_nil, by decide +kernel,
    rfl, by decide, by decide, by decide +kernel, by decide +kernel, by decide +kernel, by decide, by decide, rfl⟩
/-- A sleep that is over, a polling wait that holds, and a user interrupt and a copy error that are due. -/
def due : Group := { group0 with
  blk := none, bbt := [⟨1, 0x1000C, 0, .runnable, 0, 0⟩], trap := { group0.trap with mode := false, uien := true, uipend := true, pendCopy := [64] } }
theorem witness_WaitsThatEnd : let p : Parked := ⟨1, 0x10000, 0, .sleep 5, 0, 0⟩
    let q : Parked := ⟨1, 0x10000, 0, .waitcmp 0x18000 0 0 3 true, 0, 0⟩
    let s := { full { group0 with parked := [p, q] } [] with clock := 5 }
    SMap.find s.groups 3 = some { group0 with parked := [p, q] } ∧ p.why = .sleep 5 ∧ 5 ≤ s.clock ∧ group0.life = .resident
    ∧ waitCond 0 (s.mem.waitWord 0 (0x18000 / 4)).toNat 0 = true
    ∧ (let u := { due with trap := { due.trap with pendCopy := [] } }
       u.async = some 4 ∧ u.live ≠ 0 ∧ u.images ≠ [] ∧ u.tile = none ∧ u.trap.level ≠ .super
       ∧ (full u []).pagesOf u .write (u.trap.gcb + 0x3000) 2 = .ok [0x43000, 0x44000] ∧ (full u []).pagesOf u .write u.trap.gcb 1 = .ok [0x40000])
    ∧ due.trap.pendCopy = [64] ∧ due.async = some 3 ∧ due.images ≠ [] ∧ due.tile = none ∧ due.trap.level ≠ .super
    ∧ (full due []).pagesOf due .write (due.trap.gcb + 0x3000) 2 = .ok [0x43000, 0x44000] ∧ (full due []).pagesOf due .write due.trap.gcb 1 = .ok [0x40000] := by
  decide +kernel
theorem witness_WaitsThatEnd_grants : let g := { lane [(2, 8)] with parked := [⟨1, 0x10000, 0, .rsv 4 2 0 8, 0, 0⟩] }
    let h := { lane [(2, 0)] with parked := [⟨1, 0x10000, 0, .spawn 0 2 1, 0, 0⟩] }
    let s := full g []
    (g.wait (fun w => match w with
      | .rsv _ _ _ _ => true
      | _ => false)).map (fun p => p.why) = some (.rsv 4 2 0 8)
    ∧ 8 = ((List.range 64).map (fun t => if decide (t < g.width) && (1 : Lanes).getLsbD t then (g.regs.getV t 2).toNat else 0)).sum
    ∧ s.mireMay g (some 0) (8 * (32 / 16)) 0 = true ∧ s.mireFit 1 (some 0) 16 = some 0
    ∧ (h.wait (fun w => match w with
      | .spawn _ _ _ => true
      | _ => false)).map (fun p => p.why) = some (.spawn 0 2 1)
    ∧ (full h []).mireMay h none 1 0 = true ∧ ((full h []).taskRuns h 1 1).2 = [0] := by decide +kernel
/-- An absent window line whose page is mapped, a store on the mesh, and a sole waiter that holds an unsealed tile. -/
theorem witness_WaitsThatEnd_others : let s := windowed false
    (SMap.find s.teams 2).map (fun m => (m.life, (SMap.find m.lines 0).map (fun e => e.present), (SMap.find m.windows 0).map (fun w => w.lineAddr 0)))
      = some (.resident, some false, some 0x20000)
    ∧ (match s.translate ⟨.core 0, 1, true, .read⟩ 0x20000 with
      | .ok pa _ => decide (pa = 0x20000)
      | _ => false) = true
    ∧ (let u := { full group0 [] with mesh := [.stash 3 2 4092 [1, 2, 3, 4]] }
       u.mesh[0]? = some (.stash 3 2 4092 [1, 2, 3, 4]) ∧ u.lineAbsent 2 4092 4 = false)
    ∧ (let g := { group0 with blk := none, parked := [⟨1, 0x10000, 0, .talloc 2 1021 2 0, 0, 0⟩] }
       let q := (full g [tile0 false]).kQueue 1 1 0 0
       let u := fun n => { full g [tile0 false] with detectors := [((full g [tile0 false]).detectorKey (.kennel q), (0, n))], clock := 4096 }
       (SMap.find (u 0).grids 1).isSome = true ∧ (youngest ((u 0).waiters ((u 0).inQueue (.kennel q)))).map (fun w => w.id) = some 3
       ∧ ((u 0).waiters ((u 0).inQueue (.kennel q))).all ((u 0).waiterHolds (.kennel q)) = true ∧ (u 0).stirOf (.kennel q) = 0
       ∧ (u 0).detectorKey (.kennel q) = (full g [tile0 false]).detectorKey (.kennel q) ∧ 0 + 4096 ≤ (u 0).clock ∧ 1 ≠ (u 1).stirOf (.kennel q)
       ∧ (let v := { full g [] with detectors := (u 0).detectors, clock := 4096 }
          (v.waiters (v.inQueue (.kennel q))).any (fun w => !v.waiterHolds (.kennel q) w) = true)) := by decide +kernel
/-- A saved RSV waiter, and its grid's own queue and the queue of its partition. -/
theorem witness_WaitsThatEnd_mire : let g := { lane [(2, 8)] with life := .saved, blk := none, parked := [⟨1, 0x10000, 0, .rsv 4 2 0 8, 0, 0⟩], resvs := [⟨0, 0, 0x80000, 2⟩] }
    let s := full g []
    (s.waiters (s.inQueue (.own 1 (some 0)))).map (fun w => w.id) = [3]
    ∧ (s.waiters (s.inQueue (.own 1 (some 0)))).all (s.waiterHolds (.own 1 (some 0))) = true ∧ g.life = .saved := by decide +kernel
/-- A posted request, unresolved, resolved and failed; one that found the ring full; a word that awaits it. -/
def asked (status : Nat) (posted : Option Nat) : State := State.keep { full { group0 with blk := none, parked := [⟨1, 0x10000, 0, .page 0 1 0x200000, 0, 0⟩] } [] with
  trans := { reqs := [(0, ⟨.core 0, 1, 5, 0, false, 0x200000, true, posted⟩)], nextReq := 1 } } 0x1C01C 4 status
theorem witness_PagesAndFills : SMap.rises (asked 1 (some 0x1C000)).trans.reqs
    ∧ (SMap.find (asked 1 (some 0x1C000)).trans.reqs 0).map (fun q => q.record) = some (some 0x1C000)
    ∧ (SMap.find (asked 1 none).trans.reqs 0).map (fun q => q.record) = some none
    ∧ [0, 1, 2].map (fun k => natOf ((asked k (some 0x1C000)).mem.hostRead (0x1C000 + 28) 4)) = [0, 1, 2]
    ∧ (asked 2 (some 0x1C000)).hwaits = [] ∧ (asked 2 (some 0x1C000)).stream.fills = [] ∧ (asked 2 (some 0x1C000)).copies = [] ∧ (asked 2 (some 0x1C000)).groups.map (fun e => e.2.parked.map (fun p => p.why)) = [[.page 0 1 0x200000]]
    ∧ (let c : Ctx := (asked 1 none).ctx 1
       let tail := natOf ((asked 1 none).mem.hostRead (c.tdesc + 24) 4)
       let head := natOf ((asked 1 none).mem.hostRead (c.tdesc + 28) 4)
       ¬ 2 ^ (c.prqsz + 4) ≤ (tail + 2 ^ 32 - head) % 2 ^ 32)
    ∧ (let t := State.keep (asked 1 none) 24 4 16
       2 ^ ((t.ctx 1).prqsz + 4) ≤ (natOf (t.mem.hostRead ((t.ctx 1).tdesc + 24) 4) + 2 ^ 32 - natOf (t.mem.hostRead ((t.ctx 1).tdesc + 28) 4)) % 2 ^ 32) := by
  refine ⟨?_, by decide +kernel⟩
  unfold SMap.rises; decide
/-- A queued fill with a good index entry (block 9, 65,536 bytes stored raw) and with an empty one, and a running one. -/
def filling (running : Bool) (index : Nat) : State := State.keep { full group0 [] with
  stream := {
    fills := [(0, { ctx := 1, page := 0x30000, index := index, mapWord := 0x1A000, bit := 30, running := running, raw := true, clen := 65536 })]
    nextFill := 1, granted := true } } 0x1A100 16 (3 + 9 * 2 ^ 16 + 65536 * 2 ^ 96)
theorem witness_PagesAndFills_fills : let s := filling false 0x1A100
    (s.stream.fills.find? (fun e => !e.2.running && e.2.waits.isNone)).map Prod.fst = some 0 ∧ s.stream.granted = true
    ∧ (s.stream.fills.filter (fun e => e.2.running)).length < 256
    ∧ (match s.frontPage ⟨.streaming, 1, false, .read⟩ 0x1A100 16 with
      | .ok d => decide (natOf d = 3 + 9 * 2 ^ 16 + 65536 * 2 ^ 96)
      | _ => false) = true
    ∧ (match s.frontPage ⟨.streaming, 1, false, .read⟩ 0x1A200 16 with
      | .ok d => decide (natOf d = 0)
      | _ => false) = true
    ∧ (SMap.find (filling true 0x1A100).stream.fills 0).map (fun f => (f.running, f.waits, f.bit, (f.decoded (List.replicate 8 0)).isNone)) = some (true, none, 30, true)
    ∧ (match s.frame16 ⟨.streaming, 1, false, .write⟩ 0x30000 16 with
      | .ok l => decide (l.length = 16 ∧ l.Nodup ∧ ∀ pa ∈ l, pa % 4096 = 0 ∧ pa + 4096 ≤ 2 ^ 48)
      | _ => false) = true := by decide +kernel
/-- An open interface of 16 entries, its packet, a wait record, and a part whose restart has begun. -/
def iface0 (tail : Nat) : Iface :=
  { opened := true, ctx := 1, erra := 0x1E000, rtn := 1, rtab := 0x1E100, ring := 0x1C000, rsz := 0, head := 0, tail := tail }
def queued (tail : Nat) : State := State.keep (State.keep { full group0 [] with
  ctxs := [(1, { (full group0 []).ctx 1 with pasid := 5 })]
  host := { (full group0 []).host with ifaces := [(0, iface0 tail)] } } 0x1C000 64 (1 + 7 * 2 ^ 16 + 5 * 2 ^ 32 + 0x8000 * 2 ^ 64))
  0x1D000 32 (0x18000 + 5 * 2 ^ 64 + 0x1A000 * 2 ^ 128 + 77 * 2 ^ 192)
theorem witness_QueuesAndRegisters : let s := queued 1
    s.barOpen = true ∧ SMap.find s.host.ifaces 0 = some (iface0 1) ∧ (16 + 2 ^ 16 - 0) % 2 ^ 16 ≤ 2 ^ (0 + 4) ∧ 2 ^ (0 + 4) < (17 + 2 ^ 16 - 0) % 2 ^ 16
    ∧ s.svc.covers 0x1E000 16 = false ∧ s.nextIface = some (0, iface0 1) ∧ s.svc.carves = []
    ∧ (let x := natOf (s.mem.hostRead (0x1C000 + 64 * (0 % 2 ^ 4)) 64)
       s.host.revoked.contains (bits x 51 32) = false ∧ bits x 7 0 = 1 ∧ bits x 9 8 = 0 ∧ bits x 15 10 = 0 ∧ bits x 63 52 = 0 ∧ bits x 127 112 = 0
       ∧ bits x 511 176 = 0 ∧ bits x 51 32 = (s.ctx 1).pasid ∧ bits x 111 64 % 128 = 0 ∧ bits x 175 128 = 0)
    ∧ bits (natOf (s.mem.hostRead 0x1C040 64)) 7 0 ≠ 1
    ∧ (∃ e ∈ s.host.ifaces, e.2.opened = true) ∧ (∀ e ∈ State.reset.host.ifaces, e.2.opened = false) ∧ s.mem.risen
    ∧ (let x := natOf (s.mem.hostRead 0x1D000 32)
       bits x 47 0 = 0x18000 ∧ bits x 175 128 = 0x1A000 ∧ bits x 255 192 = 77 ∧ s.ctxOf (bits x 83 64) = some 1
       ∧ (match s.translate ⟨.frontEnd, 1, false, .read⟩ 0x18000 with
         | .ok pa _ => waitCond 0 (natOf (s.mem.hostRead pa 4)) 0 && !waitCond 1 (natOf (s.mem.hostRead pa 4)) 0 && decide (s.wakeUsed (slcSlice pa) < 2048)
         | _ => false) = true)
    ∧ s.ctxOf (bits (natOf (s.mem.hostRead 0x1D020 32)) 83 64) = none := by
  refine ⟨by decide, by decide, by decide, by decide, by decide, by decide +kernel, by decide, by decide +kernel, by decide +kernel, by decide, by decide,
    risen_of (by decide +kernel), by decide +kernel, by decide +kernel⟩
theorem witness_QueuesAndRegisters_still : (queued 1).mem.still (0x18000 / 4) 2 ∧ (queued 1).trans.reqs = [] :=
  ⟨fun _ he => absurd he List.not_mem_nil, rfl⟩
theorem witness_QueuesAndRegisters_restart : let g := { group0 with blk := none }
    let s := { full g [] with host := { (full g []).host with restart := true } }
    (full g []).host.ready = true ∧ (full g []).pwr.state ≠ .off ∧ s.host.restart = true ∧ (∀ e ∈ s.groups, e.2.atBoundary = true) ∧ SMap.rises s.ctxs
    ∧ SMap.rises s.groups ∧ (∀ e ∈ s.groups, ∀ r ∈ s.grids, r.1 = e.2.grid → r.2.ctx = e.2.ctx) ∧ (SMap.find s.ctxs 1).map (fun c => c.pctx) = some false
    ∧ (SMap.find s.grids 1).map s.survives = some false ∧ s.host.cmdState ≠ 1
    ∧ ({ s with host := { s.host with cmdState := 1 } }).host.cmdOp ≠ 5 := by
  refine ⟨by decide, by decide, by decide, by decide, ?_, ?_, by decide, by decide, by decide +kernel, by decide, by decide⟩ <;>
    unfold SMap.rises <;> decide
/-- The operands of each command: a zero image, which fits; a context beyond the table; an interface record and a closed one; a bound
context, a PASID, a grid to interrupt and none. -/
theorem witness_HostCommands : let s := { State.keep (queued 0) (0x1F000 + 64 * 2) 64 (0x1C000 + 2 ^ 64 + 2 ^ 81) with
      host := { (queued 0).host with ctxtb := 7, qitb := 0x1F000, cmda := 1, cmdb := 0x1B000 } }
    s.barOpen = true ∧ s.svc.carves = [] ∧ s.host.cmdState ≠ 1 ∧ s.host.restart = false ∧ 1 < s.ctxCount ∧ s.ctxCount ≤ 8
    ∧ (kimageOf (numbers8 (s.mem.hostRead 0x1B000 136) 17)).isSome = true ∧ (mimageOf (numbers8 (s.mem.hostRead 0x1B000 144) 18)).isSome = true
    ∧ kimageOf (List.replicate 17 (2 ^ 40)) = none ∧ mimageOf (List.replicate 18 1) = none
    ∧ s.sliceFits 1024 0 = true ∧ (∃ q, q < 16 ∧ ((s.ctx 1).kcfg.part q).en = true)
    ∧ ifaceOk (natOf (s.mem.hostRead (0x1F000 + 64 * 2) 64)) = true ∧ ifaceOk (natOf (s.mem.hostRead (0x1F000 + 64 * 3) 64)) = false
    ∧ (s.toBind 1).2.isSome = true ∧ (s.toBind 8).2 = none ∧ (SMap.find s.host.ifaces 0).map (fun i => i.opened) = some true
    ∧ SMap.find s.host.ifaces 2 = none ∧ s.ctxOf 5 = some 1 ∧ s.trans.reqs = [] ∧ (s.ctx 1).bound = true ∧ (s.ctx 2).bound = false
    ∧ (SMap.find s.ctxs 1).isSome = true ∧ SMap.find s.ctxs 2 = none ∧ s.teamClass placeTeam ≠ 0 ∧ placeTeam.life = .resident
    ∧ (∃ e ∈ s.teams, e.2.grid = 1 ∧ e.2.life ≠ .ended) ∧ bits (2 ^ 37) 37 36 = 2 ∧ bits (3 * 2 ^ 36) 37 36 = 3 ∧ 10 < 0xFF := by
  decide +kernel
/-- An unbound context whose table entry and descriptor are in order. -/
theorem witness_HostCommands_bind : let s := { State.keep (State.keep (queued 0) 0x1F080 64 (0x1F800 + 2 ^ 64 + 9 * 2 ^ 80)) 0x1F800 32
        (1 + 0x1000 + 2 * 2 ^ 48) with host := { (queued 0).host with ctxtb := 0x1F007 } }
    (s.ctx 2).bound = false ∧ (s.toBind 2).2.isSome = true := by decide +kernel
/-- A part with a request block and a carve-out of context 1 that has a key. -/
def asking (rs : List (Nat × Nat × Nat)) : State :=
  let s := rs.foldl (fun (s : State) e => State.keep s (0x1C000 + e.1) e.2.1 e.2.2) (full group0 [])
  let c : Ctx := { s.ctx 1 with conf := some ⟨0, List.replicate 16 0, some 7, 0⟩ }
  { s with ctxs := [(1, c)], host := { s.host with ctxtb := 7 }, svc := { s.svc with sreq := 0x1C000, carves := [(2, ⟨true, 0x10000, 0x10000, 1⟩)] } }
/-- The same part with nothing carved out. -/
def uncarved (rs : List (Nat × Nat × Nat)) : State := { asking rs with svc := { (asking rs).svc with carves := [] } }
/-- The part asked to carve [0, 64 KiB) out, to carve a range that meets another, and to end a carve-out, with its owner running or not. -/
theorem witness_ServiceRequests : let s := uncarved [(0, 1, 1), (8, 1, 3), (24, 8, 65536), (32, 2, 1)]
    let d := s.mem.hostRead s.svc.sreq 256
    let t : State := { asking [(0, 1, 2), (8, 1, 2)] with svc := { (asking []).svc with carves := [(2, ⟨true, 0x40000, 0x10000, 1⟩)] } }
    let b := t.mem.hostRead t.svc.sreq 256
    s.svc.covers s.svc.sreq 256 = false ∧ s.svc.sstat ≠ 1 ∧ s.svc.rstat ≠ 1 ∧ field d 0 1 = 1 ∧ field d 8 1 ≤ 7 ∧ field d 16 8 % 65536 = 0
    ∧ field d 24 8 % 65536 = 0 ∧ field d 24 8 ≠ 0 ∧ (SMap.find s.svc.carves (field d 8 1)).isSome = false
    ∧ field d 16 8 + field d 24 8 ≤ Config.memFitted * 2 ^ 20 ∧ s.ctxEnabled (field d 32 2) = true
    ∧ reservedSet d [(0, 1), (8, 1), (16, 8), (24, 8), (32, 2)] = false ∧ s.mem.risen
    ∧ t.svc.covers t.svc.sreq 256 = false ∧ field b 0 1 = 2 ∧ reservedSet b [(0, 1), (8, 1)] = false ∧ SMap.find t.svc.carves (field b 8 1) = some ⟨true, 0x40000, 0x10000, 1⟩
    ∧ (∃ e ∈ t.teams, e.2.ctx = 1 ∧ e.2.life ≠ .ended) ∧ (∀ e ∈ ({ t with teams := [] }).teams, e.2.ctx = 1 → e.2.life = Life.ended) := by
  refine ⟨by decide +kernel, by decide, by decide, by decide +kernel, by decide +kernel, by decide +kernel, by decide +kernel, by decide +kernel,
    by decide +kernel, ?_, by decide +kernel, by decide +kernel, risen_of (by decide +kernel), by decide +kernel, by decide +kernel,
    by decide +kernel, by decide +kernel, by decide +kernel, by decide +kernel⟩
  have h : field ((uncarved [(0, 1, 1), (8, 1, 3), (24, 8, 65536), (32, 2, 1)]).mem.hostRead 0x1C000 256) 16 8 +
      field ((uncarved [(0, 1, 1), (8, 1, 3), (24, 8, 65536), (32, 2, 1)]).mem.hostRead 0x1C000 256) 24 8 = 65536 := by decide +kernel
  refine Nat.le_trans (Nat.le_of_eq h) ?_
  unfold Config.memFitted
  omega
/-- A carve-out that meets another: the second clause's state differs in its enabled one only. -/
theorem witness_ServiceRequests_meets : ∃ e ∈ ({ (asking []).svc with carves := [(2, ⟨true, 0xFFFF, 1, 1⟩)] } : Service).carves,
    e.2.en = true ∧ 0 < e.2.base + e.2.size ∧ e.2.base < 0 + 65536 := by decide
/-- A key for a bound context and for none; the key itself is what the unwrapping answers. -/
theorem witness_ServiceRequests_key : let s := uncarved [(0, 1, 3), (16, 2, 1), (24, 8, 0x1D000), (32, 2, 32)]
    let d := s.mem.hostRead s.svc.sreq 256
    s.svc.covers s.svc.sreq 256 = false ∧ field d 0 1 = 3 ∧ reservedSet d [(0, 1), (16, 2), (18, 1), (24, 8), (32, 2)] = false
    ∧ ¬ (1 < field d 18 1 ∨ (s.ctx (field d 16 2)).bound = false ∨ 2 ^ 48 ≤ field d 24 8)
    ∧ s.svc.covers (field d 24 8) (field d 32 2) = false ∧ (s.ctx 2).bound = false := by decide +kernel
/-- 32 bytes into and out of the carve-out of context 1, the IV above the last and equal to it, a length that is no multiple of 16. -/
theorem witness_ServiceRequests_copies : let s : State := { asking [] with svc := { (asking []).svc with sreq := 0x40000 } }
    let a := fun (rs : List (Nat × Nat × Nat)) => (rs.foldl (fun (s : State) e => State.keep s (0x40000 + e.1) e.2.1 e.2.2) s)
    let x := a [(0, 1, 4), (16, 2, 1), (24, 8, 0x50000), (32, 8, 0x18000), (40, 4, 32), (55, 1, 8), (72, 8, 0x1A000)]
    let d := x.mem.hostRead x.svc.sreq 256
    let y := a [(0, 1, 5), (16, 2, 1), (24, 8, 0x18000), (32, 8, 0x50000), (40, 4, 32), (72, 8, 0x1A000)]
    let e := y.mem.hostRead y.svc.sreq 256
    x.svc.covers x.svc.sreq 256 = false ∧ field d 0 1 = 4 ∧ reservedSet d [(0, 1), (16, 2), (24, 56)] = false
    ∧ (x.ctx 1).conf = some ⟨0, List.replicate 16 0, some 7, 0⟩ ∧ x.ownRuns 1 .write 4097 0x18000 32 = some [(0x18000, 32)]
    ∧ x.ownRuns 1 .write 4097 0x20000 32 = none ∧ x.counterPa 1 0x1A000 = some 0x1A000 ∧ field d 40 4 = 32 ∧ field d 24 8 = 0x50000
    ∧ ivNat ((d.drop 44).take 12) = 8 ∧ x.svc.covers 0x50000 32 = false
    ∧ field e 0 1 = 5 ∧ reservedSet e [(0, 1), (16, 2), (24, 20), (72, 8)] = false ∧ y.ownRuns 1 .read 4097 0x18000 32 = some [(0x18000, 32)]
    ∧ field e 40 4 = 32 ∧ y.svc.covers 0x50000 32 = false ∧ y.svc.covers (0x40000 + 128) 28 = false := by decide +kernel
/-- A quote to 0x1D000, and one to an address that no page begins at. -/
theorem witness_ServiceRequests_attest : let s := uncarved [(0, 1, 6), (48, 8, 0x1D000)]
    let d := s.mem.hostRead s.svc.sreq 256
    s.svc.covers s.svc.sreq 256 = false ∧ field d 0 1 = 6 ∧ reservedSet d [(0, 1), (16, 32), (48, 8)] = false ∧ field d 48 8 % 4096 = 0
    ∧ field d 48 8 < 2 ^ 48 ∧ s.svc.covers 0x1D000 4096 = false ∧ 0x1D001 % 4096 ≠ 0
    ∧ (let v : State := { s with svc := { s.svc with rstat := 1 }, groups := [(3, { group0 with blk := none })] }
       v.svc.rstat = 1 ∧ ∀ e ∈ v.groups, e.2.atBoundary = true)
    ∧ (∃ e ∈ ({ s with groups := [(3, { group0 with blk := some ⟨1, 0x10000, 0, [0, 0, 0], false⟩ })] }).groups, e.2.life = Life.resident ∧ e.2.atBoundary = false) := by decide +kernel
/-- The part in a power state, on its way to another or not. -/
def powered (st : PowerState) (busy : Bool) (tgt : PowerState) : State :=
  let s := full group0 []
  { s with pwr := { s.pwr with state := st, busy := busy, target := tgt, pwake := 0x18000 }, mem := { s.mem with notify := [0x180] } }
/-- Values for Run with a good and a bad envelope, for Listen and for Retain, with a grid and without one. -/
theorem witness_PowerAndSnapshots : let s := powered .run false .run
    let v := 60 + 2 ^ 20
    v + 2 ^ 49 < 2 ^ 64 ∧ s.host.ready = true ∧ s.pwr.busy = false ∧ (powered .run true .listen).pwr.busy = true
    ∧ bits v 49 48 = 0 ∧ bits (v + 2 ^ 48) 49 48 = 1 ∧ bits (v + 2 ^ 49) 49 48 = 2 ∧ bits 44 7 0 < 45 ∧ 45 ≤ bits v 7 0 ∧ bits v 7 0 ≤ 220
    ∧ bits (v + 2 ^ 49) 63 50 = 0 ∧ bits v 19 8 = 0 ∧ s.ctxEnabled (bits v 35 20) = false
    ∧ ({ s with host := { s.host with ctxtb := 7 } }).ctxEnabled (bits v 35 20) = true ∧ s.grids ≠ []
    ∧ s.host.restart = false ∧ s.svc.rstat ≠ 1 ∧ ({ s with grids := [] }).host.launches = [] ∧ s.kennel.tiles = []
    ∧ powerOf 0 = s.pwr.state ∧ powerOf 1 ≠ s.pwr.state ∧ (powered .listen false .listen).pwr.state = .listen
    ∧ (∃ g tm, SMap.find s.groups 3 = some g ∧ g.live ≠ 0 ∧ SMap.find s.teams g.team = some tm ∧ tm.life = .resident) :=
  ⟨by decide, by decide, by decide, by decide, by decide, by decide, by decide, by decide, by decide, by decide, by decide, by decide,
    by decide +kernel, by decide +kernel, by decide, by decide, by decide, by decide, by decide, by decide, by decide, by decide,
    group0, placeTeam, rfl, by decide, rfl, rfl⟩
theorem witness_PowerAndSnapshots_done : let s := { powered .run true .listen with teams := [(2, { placeTeam with life := .saved })] }
    s.pwr.busy = true ∧ s.pwr.target = .listen ∧ (∀ e ∈ s.teams, e.2.life ≠ .resident) ∧ s.mesh = [] ∧ (∀ e ∈ s.copies, s.copyRests e.2 = true)
    ∧ (∃ e ∈ (powered .run true .listen).teams, e.2.life = .resident) ∧ (powered .run true .retain).pwr.target = .retain
    ∧ (powered .listen true .run).pwr.target = .run
    ∧ (let t := { powered .listen false .listen with pwr := { (powered .listen false .listen).pwr with wakeDue := true } }
       t.pwr.state = .listen ∧ t.pwr.busy = false ∧ t.pwr.wakeDue = true)
    ∧ (let t := State.keep (powered .listen false .listen) 0x18000 4 1
       t.pwr.target = .listen ∧ t.mem.notify.contains (t.pwr.pwake / 256) = true ∧ (∀ e ∈ t.mem.regq, e.2 / 64 ≠ t.pwr.pwake / 256)
       ∧ (∀ e ∈ t.groups, ∀ p ∈ e.2.parked, p.why.watches (t.pwr.pwake / 256) = false) ∧ t.host.waits = []
       ∧ natOf (t.mem.hostRead t.pwr.pwake 4) ≠ 0) := by decide +kernel
theorem witness_PowerAndSnapshots_clocks : let s := powered .run false .run
    let g := { group0 with blk := none, bbt := [⟨1, 0x10000, 0, .runnable, 0, 0⟩] }
    47 < 48 ∧ s.coreIdle 47 = true ∧ s.pwr.stoppedCores.contains 47 = false ∧ s.coreIdle 0 = false ∧ g.life = .resident
    ∧ (∃ e ∈ g.bbt, e.wait = .runnable) ∧ s.snap.held = false ∧ flagBit ({ s.snap with snapctl := 2 } : Snap).snapctl 1 = true := by
  decide +kernel
/-- A packet's launch of an LPB of zeros, which R252 refuses, and of one of a single team; a packet whose record lies at 0x1D000. -/
def packet0 : Packet := ⟨0, 0x1D000, 0, 5, 7, 2, 0x1E000, 0x1E100⟩
def launch0 (lpb : Nat) (p : Option Packet) : Launch :=
  { ctx := 1, lpb := lpb, super := false, packet := p, root := p, arrived := 0, waits := none, failed := false }
def launching (lpb : Nat) : State := State.keep { full group0 [] with
  host := { (full group0 []).host with launches := [launch0 lpb (some packet0)] } }
  0x1C000 128 (0x10000 + 2 ^ 128 + 2 ^ 144 + 2 ^ 160 + 8 * 2 ^ 176 + 2 * 2 ^ 184 + 64 * 2 ^ 272 + 2 ^ 288)
theorem witness_LaunchesAndRetirement : let s := launching 0x1C000
    let i : Launch := launch0 0x1C000 (some packet0)
    s.nextLaunch (fun i => i.packet.isSome || i.again) = some (0, i) ∧ s.svc.rstat ≠ 1 ∧ s.freeRecord 1 = some 1
    ∧ (match s.check i false with
      | .grid r => decide (r.lpb.teams = 1)
      | _ => false) = true
    ∧ (match (launching 0x1D000).check { i with lpb := 0x1D000 } false with
      | .refused k c => decide (k = 1 ∧ c = 0x03)
      | _ => false) = true
    ∧ (match (launching 0x200000).check { i with lpb := 0x200000 } false with
      | .page _ _ _ _ => true
      | _ => false) = true
    ∧ (match s.translate ⟨.frontEnd, 1, false, .write⟩ 0x1D000 with
      | .ok pa _ => decide (pa = 0x1D000)
      | _ => false) = true
    ∧ s.host.revoked.contains 5 = false ∧ s.svc.covers 0x1D000 16 = false ∧ s.mem.risen ∧ s.caddrFails 1 0x1D000 = none
    ∧ (match s.lpbImage i with
      | .ok x => decide ((lpbOf x).code = 0x10000) && !lpbZeros x
      | _ => false) = true
    ∧ i.failed = false ∧ i.image = none ∧ ({ i with image := some 1 } : Launch).image.isSome = true ∧ ({ i with failed := true } : Launch).failed = true := by
  refine ⟨by decide +kernel, by decide, by decide +kernel, by decide +kernel, by decide +kernel, by decide +kernel, by decide +kernel,
    by decide, by decide, risen_of (by decide +kernel), by decide +kernel, by decide +kernel, rfl, rfl, rfl, rfl⟩
/-- A grid of one team that has triggered, with a dependant at 0x1C000; its threads' triggers; a dependant's own launch. -/
def grid0 : Grid := { placeGrid with deps := [0x1C000] }
def triggering (more : List (Nat × Grid)) : State := { full { group0 with triggered := 1 } [] with grids := (1, grid0) :: more, nextId := 5 }
theorem witness_LaunchesAndRetirement_triggers : let s := triggering []
    let w : Grid := { placeGrid with lpbAddr := 0x1C000, waiting := true, placed := 0 }
    s.grids.find? (fun e => s.triggerHolds e.1 e.2) = some (1, grid0) ∧ SMap.find s.grids 1 = some grid0 ∧ grid0.deps = [0x1C000]
    ∧ (SMap.put s.grids 1 { grid0 with triggered := true }).find? (fun e => e.2.ctx == grid0.ctx && e.2.lpbAddr == 0x1C000 && e.2.waiting && !e.2.discarded) = none
    ∧ (SMap.put (triggering [(4, w)]).grids 1 { grid0 with triggered := true }).find? (fun e => e.2.ctx == grid0.ctx && e.2.lpbAddr == 0x1C000 && e.2.waiting
      && !e.2.discarded) = some (4, w)
    ∧ (triggering [(4, w)]).grids.find? (fun e => (triggering [(4, w)]).triggerHolds e.1 e.2) = some (1, grid0) := by decide +kernel
theorem witness_LaunchesAndRetirement_dependant : let i : Launch := launch0 0x1C000 none
    let base := launching 0x1C000
    let s := fun l => { base with
      host := { base.host with launches := [i] }
      ctxs := [(1, { base.ctx 1 with triggers := [(0x1C000, l)] })] }
    let t := s [⟨9, true, none, false⟩]
    t.grids.find? (fun e => t.triggerHolds e.1 e.2) = none ∧ t.svc.rstat ≠ 1 ∧ t.nextLaunch (fun i => i.packet.isNone && !i.again) = some (0, i)
    ∧ t.freeRecord 1 = some 1 ∧ SMap.getD ((s []).ctx 1).triggers 0x1C000 [] = [] ∧ SMap.getD (t.ctx 1).triggers 0x1C000 [] = [⟨9, true, none, false⟩]
    ∧ (match t.lpbImage i with
      | .ok x => decide ((lpbOf x).depwait ≤ 1)
      | _ => false) = true
    ∧ (match t.check i true with
      | .grid _ => true
      | _ => false) = true := by decide +kernel
/-- A grid that is done, with an 8-byte add to make at a page that is there, at one that is not, and none. -/
theorem witness_LaunchesAndRetirement_retire : let r := fun (d : Nat) => { placeGrid with triggered := true, lpb := { placeLpb with done := d } }
    let s := fun d => { full group0 [] with grids := [(1, r d)], teams := [], groups := [] }
    SMap.find (s 0).grids 1 = some (r 0) ∧ SMap.rises (s 0).grids ∧ (∀ d, d ∈ [0, 0x1A000, 0x200000] → (s d).gridDone 1 (r d) = true)
    ∧ (r 0).doneWait = none ∧ (r 0).discarded = false ∧ (r 0).triggered = true ∧ (s 0).svc.covers 0x1A000 8 = false
    ∧ (match (s 0x1A000).writeAll.translate ⟨.frontEnd, 1, false, .write⟩ 0x1A000 with
      | .ok pa _ => decide (pa = 0x1A000)
      | _ => false) = true
    ∧ (s 0x200000).writeAll.translate ⟨.frontEnd, 1, false, .write⟩ 0x200000 = .absent ∧ (r 0x200000).doneFailed = false ∧ (r 0).added = false
    ∧ ({ r 0 with added := true } : Grid).added = true ∧ (s 0).gridDone 1 { r 0 with added := true } = true
    ∧ ({ s 0 with ctxs := [] }.ctx 1).bound = false := by
  refine ⟨by decide, ?_, by decide +kernel, by decide, by decide, by decide, by decide, by decide +kernel, by decide +kernel, by decide, by decide, by decide, by decide +kernel, by decide⟩
  unfold SMap.rises; decide
/-- The completion record's address, its three modes and an interrupt table entry in order. -/
theorem witness_LaunchesAndRetirement_record : let w := State.keep (full group0 []) 0x1E100 16 (2 ^ 127 + 0x55 * 2 ^ 64 + 0xFEE00000)
    let r := fun (m : Nat) => { placeGrid with packet := some { packet0 with cmode := m } }
    (∀ m, m ≤ 2 → (r m).packet = some { packet0 with cmode := m })
    ∧ (match w.translate ⟨.frontEnd, 1, false, .write⟩ packet0.caddr with
      | .ok pa _ => decide (pa = 0x1D000)
      | _ => false) = true
    ∧ packet0.caddr ≠ 0 ∧ w.host.revoked.contains packet0.pasid = false ∧ w.svc.covers 0x1D000 16 = false
    ∧ w.svc.covers (packet0.rtab + 16 * packet0.ire) 16 = false
    ∧ (let e := natOf ((w.mem.hostWrite 0x1D000 (bytesOf 16 (7 * 2 ^ 16 + 5 * 2 ^ 32))).hostRead 0x1E100 16)
       flagBit e 127 = true ∧ flagBit e 126 = false ∧ bits e 124 96 = 0 ∧ bits e 1 0 = 0) :=
  ⟨fun _ _ => rfl, by decide +kernel, by decide, by decide, by decide, by decide, by decide +kernel⟩
/-- A batch short of its node's 4 records, at its timeout and before it; an aborted task whose page is there and one whose is not. -/
theorem witness_LaunchesAndRetirement_rest : let d : Node := ⟨0, 8, 0, 10, 32, 0, 4⟩
    let r : Grid := { placeGrid with nodes := [d], committed := [(0, [⟨0x80000, 0⟩])], aborted := [(⟨0, [], 0⟩, 0x18000, true)] }
    let s := { full group0 [] with grids := [(1, r)] }
    SMap.find s.grids 1 = some r ∧ r.nodes[0]? = some d ∧ SMap.getD r.committed 0 [] = [⟨0x80000, 0⟩] ∧ 0 + 1 < d.batch
    ∧ s.clock < 0 + 700 * d.timeout ∧ 0 + 700 * d.timeout ≤ ({ s with clock := 7000 }).clock
    ∧ s.translate ⟨.frontEnd, 1, true, .read⟩ 0x18000 ≠ .absent ∧ s.translate ⟨.frontEnd, 1, true, .read⟩ 0x200000 = .absent
    ∧ r.lpb.cls ≠ 0 ∧ ({ r.lpb with cls := 0 }).cls = 0
    ∧ 1400 * ({ r.lpb with budget := 1 }).budget ≤ ({ r with used := 1400 } : Grid).used ∧ r.used < 1400 * ({ r.lpb with budget := 1 }).budget
    ∧ SMap.find s.teams 2 = some placeTeam ∧ SMap.rises s.teams ∧ placeTeam.life ≠ .ended ∧ ({ placeTeam with life := .ended } : Team).life = .ended
    ∧ ∀ e ∈ s.copies, e.2.team ≠ 2 := by
  refine ⟨by decide +kernel, by decide, by decide, by decide, by decide, by decide, by decide +kernel, by decide +kernel, by decide, by decide,
    by decide, by decide, by decide, ?_, by decide, by decide, by decide⟩
  unfold SMap.rises; decide
/-- A grid of one team to place, and one of a rectangle of two; tasks of one entry; a batch. -/
def placing (l : Lpb) : State := { full group0 [] with
  grids := [(1, { placeGrid with lpb := l, placed := 0, started := false })], teams := [], groups := [] }
theorem witness_Placement : let l := placeLpb
    let r : Grid := { placeGrid with lpb := l, placed := 0, started := false }
    let s := placing l
    let r1 : Grid := { r with started := true }
    let v : State := { s with grids := SMap.put s.grids 1 r1 }
    s.headGrid 1 = some (1, r) ∧ SMap.find s.grids 1 = some r ∧ s.teamWaits 1 = false
    ∧ r.tasks = [] ∧ r.readyBatches = [] ∧ r.started = false ∧ s.svc.rstat ≠ 1
    ∧ r.waiting = false ∧ s.mireStart r = true ∧ (v.pickCores 1 r1).isSome = true
    ∧ ({ v with pwr := { v.pwr with state := .retain } }).pickCores 1 r1 = none := by decide +kernel
theorem witness_Placement_tasks : let ts := List.replicate 3 (⟨0, List.replicate 16 1, 0⟩ : QTask)
    let r : Grid := { placeGrid with taskTable := [⟨0, 16⟩], tasks := ts, nodes := [⟨0, 8, 0, 1, 32, 0, 1⟩], committed := [(0, [⟨0x80000, 0⟩])] }
    let s := { full group0 [] with grids := [(1, r)] }
    SMap.find s.grids 1 = some r ∧ s.headGrid r.lpb.cls = some (1, r) ∧ r.discarded = false ∧ s.svc.rstat ≠ 1 ∧ s.teamWaits r.lpb.cls = false ∧ (gather r.tasks).head? = some ⟨0, List.replicate 16 1, 0⟩
    ∧ r.taskTable[0]? = some ⟨0, 16⟩ ∧ (s.pickCore 1 r (r.lpb.needOne (widthFor 3) 256)).isSome = true
    ∧ r.firstBatch = some (0, 0, [0x80000], false) ∧ r.nodes[0]? = some ⟨0, 8, 0, 1, 32, 0, 1⟩
    ∧ (s.pickCore 1 r (r.lpb.needOne (widthFor 1) 0)).isSome = true := by decide +kernel
/-- A team whose one live thread waits for a word that holds 0; the same saved; the same stopped. -/
def waiting0 (pc : Nat) (why : Park) : Group := { group0 with blk := none, parked := [⟨1, pc, 0, why, 0, 0⟩] }
def still (g : Group) (t : Team) : State := { full g [] with teams := [(2, t)], clock := 50000 }
theorem witness_SavingAndRestoring : let g := waiting0 0x10000 (.waitcmp 0x18000 1 0 1 false)
    let s := still g placeTeam
    let v := (s.closeWindows 2 placeTeam).saveFence 2
    s.companions 2 = [2] ∧ s.idleTeam 2 = true ∧ (still group0 placeTeam).idleTeam 2 = false ∧ SMap.find s.teams 2 = some placeTeam
    ∧ placeTeam.life = .resident ∧ v.liveGroups 2 = [(3, g)] ∧ SMap.find v.groups 3 = some g ∧ g.tile = none
    ∧ s.liveGroups 2 = [(3, g)] ∧ ((s.settleTargets (fun w => w.group == 3)).closeWindows 2 placeTeam).saveFence 2 = v
    ∧ v.pagesOf g .write g.trap.gcb 1 = .ok [0x40000] ∧ v.pagesOf g .write g.frameR 2 = .ok [0x45000, 0x46000]
    ∧ (∃ p ∈ g.parked, ({ s with clock := 1 } : State).clock < p.at_ + 1400 * 20) ∧ (3, group0) ∈ (still group0 placeTeam).liveGroups 2 ∧ group0.blk ≠ none := by
  decide +kernel
theorem witness_SavingAndRestoring_save : let g := { waiting0 0x10000 (.waitcmp 0x18000 1 0 1 false) with trap := { group0.trap with preempt := true, stopped := true } }
    let s := still g placeTeam
    let v0 := (s.liveGroups 2).foldl (fun (s : State) e => s.abortSaved e.1) s
    let v := ((v0.settleTargets (fun w => w.group == 3)).closeWindows 2 placeTeam).saveFence 2
    s.companions 2 = [2] ∧ s.liveGroups 2 ≠ [] ∧ s.drains 2 = false ∧ v0.liveGroups 2 = [(3, g)] ∧ v.pagesOf g .write g.frameR 2 = .ok [0x45000, 0x46000] ∧
    g.trap.safept = false ∧ g.trap.forced = false ∧ (∀ e ∈ s.liveGroups 2, e.2.life = .resident ∧ e.2.trap.stopped = true ∧ s.stashStuck e.1 = false ∧
      ∀ c ∈ s.copies, c.2.group = e.1 → c.2.paused = true) ∧ s.pwr.busy = false ∧ SMap.find v0.teams 2 = some placeTeam
    ∧ v.liveGroups 2 = [(3, g)] ∧ SMap.find v.groups 3 = some g ∧ v.pagesOf g .write g.trap.gcb 1 = .ok [0x40000]
    ∧ (∃ e ∈ (still group0 placeTeam).liveGroups 2, e.2.trap.stopped = false) := by decide +kernel
theorem witness_SavingAndRestoring_relaunch : let p : Parked := ⟨1, 0x10000, 0, .pbWait 2 0x100 1 1, 0, 0⟩
    let c : Parked := ⟨1, 0x10000, 0, .trap 0x0A 1 0, 0, 0⟩
    let g := { group0 with blk := none, parked := [p, c], life := .saved }
    let t := { placeTeam with life := .saved }
    let s := still g t
    s.companions 2 = [2] ∧ SMap.find s.teams 2 = some t ∧ t.life = .saved ∧ (3, g) ∈ s.liveGroups 2 ∧ p ∈ g.parked ∧ c ∈ g.parked
    ∧ t.pb 0x100 2 = 0 ∧ placeTeam.life ≠ .saved := by decide +kernel
/-- A class D grid for which one core alone can be made free: in Listen, context 1 runs on core 0 only, whose storage one team fills. -/
def crowded : State :=
  let t : Team := { placeTeam with tlsSize := 2 ^ 23 }
  let r : Grid := { placeGrid with lpb := { placeLpb with cls := 0 }, placed := 0 }
  let s := { full group0 [] with teams := [(2, t)], nextId := 6 }
  { s with grids := s.grids ++ [(5, r)], pwr := { s.pwr with state := .listen, target := .listen, pwrctl := 0x2D + 2 ^ 20 } }
theorem witness_SavingAndRestoring_request : let r : Grid := { placeGrid with lpb := { placeLpb with cls := 0 }, placed := 0 }
    let w : Want := ⟨5, r, r.lpb.need, 1, 1, false⟩
    crowded.headGrid 0 = some (5, r) ∧ State.reset.demand.isNone = true ∧ crowded.wantSaved.isNone = true ∧ crowded.teamWaits 0 = false ∧ r.tasks = []
    ∧ r.readyBatches = [] ∧ r.waiting = false ∧ r.started = true ∧ crowded.pickCores 5 r = none ∧ crowded.demand.map (fun v => (v.id, v.cols, v.rows, v.fits)) = some (5, 1, 1, false)
    ∧ (∀ e ∈ crowded.groups, e.2.trap.preempt = false) ∧ crowded.reserved 0 = false
    ∧ (∀ x, x < 48 → crowded.reserved x = false → crowded.room w [] x = false) ∧ crowded.victims 0 ≠ []
    ∧ (crowded.makeRoom w 0).map (fun l => l.map Prod.fst) = some [2]
    ∧ (∀ x, x < 48 → x ≠ 0 → crowded.reserved x = false → crowded.makeRoom w x = none)
    ∧ (∃ g tm, SMap.find crowded.groups 3 = some g ∧ g.team = 2 ∧ g.live ≠ 0 ∧ SMap.find crowded.teams 2 = some tm ∧ tm.life = .resident) :=
  ⟨by decide +kernel, by decide, by decide, by decide +kernel, by decide, by decide +kernel, by decide, by decide, by decide +kernel, by decide +kernel,
    by decide, by decide, by decide +kernel, by decide +kernel, by decide +kernel, by decide +kernel, group0, _, rfl, by decide, by decide, rfl, rfl⟩
theorem witness_SavingAndRestoring_stop : let g := { group0 with trap := { group0.trap with preempt := true, asked := 0 } }
    let s := still g placeTeam
    let h := { group0 with trap := { group0.trap with stopped := true, forced := true, asked := 0 } }
    let u := still h placeTeam
    SMap.find s.groups 3 = some g ∧ g.life = .resident ∧ g.live ≠ 0 ∧ g.trap.preempt = true ∧ g.trap.stopped = false ∧ g.atBoundary = true
    ∧ s.runsOut g = false ∧ g.async = none ∧ g.trap.asked + 14000 ≤ s.clock ∧ g.tile = none ∧ group0.trap.preempt = false
    ∧ SMap.find u.groups 3 = some h ∧ h.trap.asked + 28000 ≤ u.clock ∧ group0.trap.stopped = false := by decide +kernel
theorem witness_SavingAndRestoring_restore : let g := { waiting0 0x10000 (.waitcmp 0x18000 0 0 1 false) with life := .saved }
    let t := { placeTeam with life := .saved, wanted := true }
    let s := still g t
    let v := s.startAcquire 0
    s.companions 2 = [2] ∧ SMap.find s.teams 2 = some t ∧ (SMap.find s.grids t.grid).isSome = true ∧ s.svc.rstat ≠ 1
    ∧ (∃ r, SMap.find s.grids 1 = some r ∧ s.pickCore 1 r (s.needOf 2 t) = some 0
      ∧ ({ s with pwr := { s.pwr with state := .retain } }).pickCore 1 r (s.needOf 2 t) = none)
    ∧ s.liveGroups 2 = [(3, g)] ∧ SMap.find s.groups 3 = some g ∧ g.tile = none ∧ (∀ p ∈ g.parked, p.why.stays = false)
    ∧ (∃ x, g.live.getLsbD x = true ∧ ∀ e ∈ g.bbt, e.map.getLsbD x = true → e.wait = .runnable)
    ∧ v.pagesOf { g with core := 0 } .read g.trap.gcb 1 = .ok [0x40000]
    ∧ (g.loaded s.clock (v.readPages 0 [0x40000]) 0).tile = none ∧ (g.loaded s.clock (v.readPages 0 [0x40000]) 0).leash = g.leash
    ∧ levelOf (bits (wordsNat ((v.readPages 0 [0x40000]).take 4)) 30 29) = some .none ∧ v.causeAt { g with core := 0 } .none = some 0
    ∧ gcbZeros (v.readPages 0 [0x40000]) = true :=
  ⟨by decide +kernel, by decide +kernel, by decide +kernel, by decide, ⟨_, rfl, by decide +kernel, by decide +kernel⟩, by decide +kernel,
    by decide +kernel, by decide, by decide, ⟨0, by decide, fun _ h => absurd h List.not_mem_nil⟩, by decide +kernel,
    by decide +kernel, by decide +kernel, by decide +kernel, by decide +kernel, by decide +kernel⟩
theorem witness_DecodeEncode : (Instr.fma 63 (.lit 63) (.v 63) true).isWord = true ∧ (Instr.fma 63 (.lit 63) (.v 63) true).fieldsOk = true
    ∧ 0xB715618C < 2 ^ 32 ∧ decode 0xB715618C = some (.fsel 5 2 (.lit 3) 6 false) := by decide
/-- The placed program, whose next turn is an event. -/
def turning : State := { full group0 [tile0 false] with agenda := [.event .thermalThrottle] }
theorem witness_MemoryStaysCanonical : turning.memTidy ∧ ∃ t, step turning = .next t := by
  refine ⟨⟨by decide +kernel, risen_of (by decide +kernel), ?_⟩, _, rfl⟩
  unfold SMap.rises; decide
theorem witness_TablesStayTidy : turning.tablesTidy ∧ ∃ t, step turning = .next t := by
  refine ⟨⟨?_, ?_, ?_, ?_, ?_, ?_, ?_, ?_, ?_, by decide, by decide, by decide, by decide, ?_, by decide⟩, _, rfl⟩
  case refine_10 =>
    intro e he p hp
    obtain rfl : e = (3, group0) := List.mem_singleton.mp he
    exact (List.not_mem_nil (show p ∈ ([] : List Parked) from hp)).elim
  all_goals (unfold SMap.rises; decide)
/-- A group that runs a block of NOPs, and one whose entry is to be fetched, with a good packet and with a bad one. -/
theorem witness_StepRunsDecoded : let s := { state0 with agenda := [.issue 3] }
    s.dead = false ∧ s.agenda = .issue 3 :: [] ∧ SMap.find s.groups 3 = some group0 ∧ group0.async = none
    ∧ (∃ b, group0.blk = some b ∧ b.words ≠ [] ∧ decode (b.words.getD b.slot 0) = some .nop ∧ group0.passHolds .nop = false)
    ∧ s.candidate group0 = true ∧ (Instr.thermalThrottle).isWord = false ∧ s.targets = [] ∧ s.chooseSecond = none
    ∧ s.chooseIn group0.slotKey = some (3, group0) ∧ state0.agenda = [] ∧ state0.choose = some (3, group0) ∧ state0.clock % 8 ≠ 7
    ∧ (3, group0) ∈ state0.standing group0.slotKey := by
  refine ⟨by decide, rfl, rfl, by decide, ⟨_, rfl, by decide, by decide, by decide⟩, by decide, by decide, rfl, by decide +kernel,
    by decide +kernel, rfl, by decide +kernel, by decide, by decide +kernel⟩
/-- The second slot of a clock whose first word, of group 9 of the partition, went to the L pipe. -/
theorem witness_StepRunsDecoded_second : let s := { state0 with second := some (group0.slotKey, 9, 3), agenda := [.issue 3] }
    s.dead = false ∧ s.targets = [] ∧ group0.async = none ∧ s.chooseSecond = some (3, group0) := by decide +kernel
theorem witness_StepRunsDecoded_parts : State.reset.mem.slc.length ≤ slcLines ∧ (∀ e ∈ state0.grids, e.2.lpb.cls ≠ 0) ∧ (state0.l1Held 0).length ≤ l1Lines := by
  refine ⟨Nat.zero_le _, by decide, ?_⟩
  have h : (state0.l1Held 0).length = 0 := by decide +kernel
  rw [h]; exact Nat.zero_le _
theorem witness_StepRunsDecoded_fetch : let p := fun w => { State.reset.place w with agenda := [.issue 3] }
    let g := placeGroup 0
    let h : Group := { g with bbt := [], blk := some ⟨BitVec.allOnes 64, 0x10000, 0, [], true⟩ }
    let v := fun w => (({ (p w).tock with agenda := [] }).taking (p w) 3 g true).fitL1 g.core
    (p 0).dead = false ∧ (p 0).targets = [] ∧ (p 0).chooseSecond = none ∧ (p 0).chooseIn g.slotKey = some (3, g) ∧ SMap.find (p 0).groups 3 = some g ∧ (p 0).candidate g = true ∧ g.async = none ∧ g.blk = none
    ∧ g.selected = some ⟨BitVec.allOnes 64, 0x10000, 0, .runnable, 0, 0⟩
    ∧ (∀ w, w ∈ [0, 0x2D000000] → ∀ j, j < 3 → (match (v w).translate ⟨.core 0, 1, true, .fetch⟩ (0x10000 + 4 * j) with
      | .ok pa _ => decide (pa = 0x10000 + 4 * j) && !poisoned (v w).mem.poison pa 4
      | _ => false) = true)
    ∧ checkPacket h 64 [0, 0, 0] 0 = none ∧ (checkPacket h 64 [0x2D000000, 0, 0] 0).isSome = true
    ∧ (((p 0x2D000000).mem.coreWord 0 (0x10000 / 4)).toNat = 0x2D000000) := by decide +kernel
theorem witness_StepsGoOn : ({ State.reset with svc := { State.reset.svc with stopped := true } }).dead = true
    ∧ State.reset.agenda.head? ≠ some (.event .coldReset) ∧ State.reset.dead = false := by decide
/-! ## Further clauses of the statements -/

/-- A bank of the constant window at a mapped page: two of its words. -/
theorem witness_OperandForms_bank : let s := { full group0 [] with grids := [(1, { placeGrid with banks := [0x18000] })] }
    (SMap.find s.grids group0.grid).bind (fun r => r.banks[group0.regs.cwBank]?) = some 0x18000
    ∧ s.spot group0 (0x18000 + (256 * group0.regs.cwIdx + 4 * 62)) 4 .read false = .mem 0x180F8
    ∧ s.spot group0 (0x18000 + (256 * group0.regs.cwIdx + 4 * 63)) 4 .read false = .mem 0x180FC := by decide +kernel
/-- Two threads that branch together, a third in the table. -/
def cur3 : Cur := { cur0 with map := 3 }
def three : Group := { group0 with live := 7, bbt := [⟨4, 0x20000, 0, .runnable, 0, 0⟩], blk := some ⟨3, 0x10000, 0, [0, 0, 0], true⟩ }
theorem witness_Branches_together : ({ with_ three with cur := some cur3 }).issuing cur3 three ∧ cur3.runs three 0 = true ∧ cur3.runs three 1 = true
    ∧ three.tableOrder := by
  refine ⟨⟨rfl, rfl⟩, by decide, by decide, ?_⟩
  unfold Group.tableOrder; decide
/-- A sibling group of the team that has arrived at BAR.T; a thread at CONVERGE that another's CONVERGE meets elsewhere, and one that BAR.G meets. -/
theorem witness_Convergence_team : let h := { group0 with blk := none, bbt := [⟨1, 0x20000, 0, .barT, 0, 0⟩] }
    let s := { full group0 [] with groups := [(3, group0), (4, h)] }
    s.issuing cur0 group0 ∧ s.targets = [] ∧ SMap.rises s.groups ∧ cur0.map = group0.live ∧ group0.bbt = [] ∧ group0.parked = []
    ∧ ∀ e ∈ s.groups, e.2.team = group0.team → e.1 ≠ 3 → e.2.live ≠ 0 →
      e.2.life = .resident ∧ e.2.waiting .barT = e.2.live ∧ ∀ f ∈ e.2.bbt, f.wait = .barT := by
  refine ⟨⟨rfl, rfl⟩, rfl, ?_, by decide, by decide, by decide, by decide⟩
  unfold SMap.rises; decide
theorem witness_Convergence_deadlock : let g := { group0 with live := 3, bbt := [⟨2, 0x20000, 0, .converge, 0, 0⟩] }
    let s := full g []
    s.issuing cur0 g ∧ s.targets = [] ∧ (∀ f ∈ g.bbt, f.wait ≠ .runnable) ∧ ∀ w ∈ [BbtWait.converge, .barG, .barT],
      let p := { g with bbt := bbtEnter g.bbt ⟨1, 0x10000, 0, w, 0, 0⟩, blk := none }
      (p.waiting .converge = g.live ↔ w = .converge) ∧ (∀ f ∈ p.bbt, f.wait = .converge → f.map ≠ g.live) ∧ p.waiting .barG ≠ g.live
      ∧ p.waiting .barT ≠ g.live ∧ s.mayTrap p 0x03 [0x43000, 0x44000] [0x40000] ∧ s.mayTrap p 0x0C [0x43000, 0x44000] [0x40000]
      ∧ ∃ f ∈ p.bbt.head?, f.slot < 3 := by
  refine ⟨⟨rfl, rfl⟩, rfl, by decide, ?_⟩
  unfold State.mayTrap; decide +kernel
/-- A group at level S, one at level U that takes cause 0x14, a handler base out of line, and a frame page that is absent or denied. -/
theorem witness_TakingATrap_twice : let g := { group0 with trap := { group0.trap with level := .super } }
    let u := { group0 with trap := { group0.trap with level := .user } }
    let far := { group0 with trap := { group0.trap with gcb := 0x1FD000 } }
    let s := full group0 []
    (with_ g).issuing cur0 g ∧ SMap.rises (with_ g).groups ∧ g.live ≠ 0 ∧ g.frameWait = none ∧ g.trap.level = .super ∧ u.trap.level ≠ .none
    ∧ group0.toSuper 0x14 = true ∧ (({ s with ctxs := [(1, { s.ctx 1 with shvec := 4 })] } : State).ctx 1).shvec % 256 ≠ 0
    ∧ (full far []).pagesOf far .write (far.trap.gcb + 0x3000) 2 = .error (0x200000, .absent)
    ∧ ({ s with svc := { s.svc with carves := [(2, ⟨true, 0x40000, 0x10000, 5⟩)] } } : State).pagesOf group0 .write (group0.trap.gcb + 0x3000) 2
      = .error (0x43000, .denied) := by
  refine ⟨⟨rfl, rfl⟩, ?_, by decide, by decide, by decide, by decide, by decide, by decide +kernel, by decide +kernel, by decide +kernel⟩
  unfold SMap.rises; decide
/-- The image of lane 0 holds exactly the threads that live and are not parked: lane 0, while lane 1 is parked. -/
theorem witness_ReturningFromATrap_parked : let g := { handler0 with live := 3, trap := { handler0.trap with liveS := 3 }, parked := [⟨2, 0x10000, 0, .sleep 0, 0, 0⟩] }
    let s := { trapped0 with groups := [(3, g)] }
    let ws := s.readPages g.core [0x43000, 0x44000]
    let f := headerOf (wordsNat (ws.take 16))
    s.issuing cur0 g ∧ s.pagesOf g .read g.frame 2 = .ok [0x43000, 0x44000] ∧ f.nent = 1 ∧ f.nstep = 0 ∧ frameZeros ws = true
    ∧ (match imagesOf g.code (3 &&& ~~~g.live) (ws.drop 192) f.nent with
      | some l => decide (∀ t, t < 64 → ((g.live.getLsbD t = true ∧ g.parkedMap.getLsbD t = false) ↔ ∃ e ∈ l, e.map.getLsbD t = true))
          && decide (∀ e ∈ l, e.wait = .runnable ∧ e.map &&& ~~~3 = 0)
      | none => false) = true := by
  refine ⟨⟨rfl, rfl⟩, by decide +kernel, by decide +kernel, by decide +kernel, by decide +kernel, by decide +kernel⟩
theorem witness_SystemWords_numbers : 0x106 ∉ [0, 1, 2, 3, 4, 5, 0x100, 0x101, 0x102, 0x103, 0x104, 0x105, 0x110, 0x111] := by decide
/-- A present window line within another context's carve-out, one that is not, and a page whose table entry holds an error. -/
theorem witness_AddressFaults_pages : let s := full group0 []
    let v : Service := { s.svc with carves := [(2, ⟨true, 0x10000, 0x10000, 5⟩)] }
    v.barred 1 0x18000 = true ∧ (windowed true).svc.barred 1 0x18000 = false
    ∧ ((SMap.find (windowed true).teams 2).bind (fun t => SMap.find t.lines 0)).map (fun e => (e.present, e.pa)) = some (true, 0x18000)
    ∧ ({ s with mem := { s.mem with poison := [0x3000 / 8] } } : State).translate (group0.req (.core 0) .read) 0x18000 = .soft := by decide +kernel
theorem witness_noTargets (g : Group) (tl : List Tile) : (full g tl).noTargets 3 ∧ state0.noTargets 3 :=
  ⟨fun _ h => absurd h List.not_mem_nil, fun _ h => absurd h List.not_mem_nil⟩
/-- A SPAWN that issues again with a granted entry; one that asks for room. -/
theorem witness_SpawnAndCommit_granted : let g := { lane [(2, 0x80000), (4, 2)] with grants := [⟨0, 0x10000, 0, 0, [1, 2]⟩, ⟨0, 0x20000, 0, 0, []⟩] }
    g.grants.filter (fun x => x.pc == cur0.pc && x.slot == cur0.slot) = [⟨0, 0x10000, 0, 0, [1, 2]⟩]
    ∧ (full g []).issuing cur0 g ∧ SMap.find (full g []).teams 2 = some placeTeam ∧ SMap.find (((full g []).commitTasks 3 1).releaseBy 3 3).groups 3 = some g
    ∧ (full g []).mireMay g none 1 (g.firstAge 1 0x10000 0 0) = true ∧ ((full g []).taskRuns g 1 1).2 = [0]
    ∧ ({ full g [] with mire := [⟨1, 1, none, 0, 0, 1024⟩] }).mireMay g none 1 (g.firstAge 1 0x10000 0 0) = false := by
  refine ⟨by decide, ⟨rfl, rfl⟩, by decide, by decide +kernel, by decide +kernel, by decide +kernel, by decide +kernel⟩
/-- A store of the stash to memory, a box into it, and a run counted at a barrier whose phase is due or not. -/
theorem witness_Copies_out : let q := newCopy cur0 group0 false true (.run 0x18000 256) (.tls 2 0) (.ctr 0x1A000) [] 0
    let s := { full group0 [] with copies := [(0, q)] }
    SMap.find s.copies 0 = some q ∧ q.out = true ∧ q.covered = [] ∧ 0 ∈ q.left ∧ q.paused = false ∧ q.waits = none ∧ s.frozen = false
    ∧ (∀ b, (0x18000 + 256 * 0) / 256 ≤ b → b ≤ (0x18000 + 256 * 0 + 256 - 1) / 256 → s.engineSpot group0 (q.cache group0) (256 * b) .write = .mem (256 * b))
    ∧ s.lineAbsent 2 (0 + 256 * 0) 256 = false
    ∧ (∀ i, i < 256 → poisoned placeTeam.poison (0 + 256 * 0 + i) 1 = false) ∧ s.counterSpot group0 0x1A000 = .mem 0x1A000
    ∧ (∀ i, i < 256 → (256 * ((0x18000 + i) / 256) + (0x18000 + i) % 256) / 8 ≠ 0x1A000 / 8) := by
  refine ⟨rfl, by decide, by decide, by decide, by decide, by decide, by decide, ?_, by decide +kernel,
    by decide +kernel, by decide +kernel, fun i hi => by omega⟩
  intro b h1 h2
  have : b = 0x180 := by omega
  subst this
  decide +kernel
theorem witness_Copies_tensor : let q := newCopy cur0 boxed false false (.box rec0 [0] [16]) (.tls 2 0) (.ctr 0x1A000) [] 0
    let s := { boxState with copies := [(0, q)] }
    SMap.find s.copies 0 = some q ∧ SMap.find s.groups 3 = some boxed ∧ SMap.find s.teams 2 = some placeTeam ∧ q.covered = [] ∧ 0 ∈ q.left
    ∧ q.paused = false ∧ q.waits = none ∧ s.frozen = false ∧ q.places 0 ≠ [] ∧ (∀ e ∈ q.places 0,
      s.engineSpot boxed (q.cache boxed) (256 * (e.2.1 / 256)) .read = .mem (256 * (e.2.1 / 256)) ∧ poisoned s.mem.poison (256 * (e.2.1 / 256)) 256 = false)
    ∧ s.barriers 2 = [] ∧ s.counterSpot boxed 0x1A000 = .mem 0x1A000 := by decide +kernel
theorem witness_Copies_barrier : let q := newCopy cur0 group0 false false (.run 0x18000 256) (.tls 2 512) (.pb 2 0x100) [] 0
    let s := fun ws => { armed ws with copies := [(0, q)] }
    (∀ ws ∈ [[7, 2, 2, 256], [7, 1, 2, 256]], SMap.find (s ws).copies 0 = some q ∧ q.compl = .pb 2 0x100 ∧ q.covered = []
      ∧ 0 ∈ q.left ∧ SMap.rises (s ws).groups ∧ (∃ b ∈ SMap.find (s ws).teams 2, b.life ≠ .ended ∧ Memory.wf b.tls = true
        ∧ (b.pb 0x100 2 ≠ 0 ∧ b.pb 0x100 1 = b.pb 0x100 2 ∧ b.pb 0x100 3 - BitVec.ofNat 32 256 = 0 ↔ ws = [7, 2, 2, 256]))
      ∧ (∀ o ∈ (s ws).barriers 2, 512 + 256 * 0 + 256 ≤ o ∨ o + 16 ≤ 512 + 256 * 0) ∧ 0x100 ∈ (s ws).barriers 2
      ∧ (s ws).engineSpot group0 (q.cache group0) 0x18000 .read = .mem 0x18000) := by
  unfold SMap.rises; decide +kernel
/-- A barrier whose last expected byte is due, and a group that waits on one with its token. -/
theorem witness_PhaseBarriers_due : (SMap.find (armed [1, 2, 2, 0xFFFFFFFF]).teams 2).map (fun t => (List.range 4).map (t.pb 0x100)) = some [1, 2, 2, 0xFFFFFFFF]
    ∧ (0xFFFFFFFF : Word) + (scalars [(10, 0x100), (11, 1)]).regs.getS 11 = 0
    ∧ (let p : Parked := ⟨1, 0x20000, 0, .pbWait 2 0x100 1 1, 0, 0⟩
       let h := { group0 with blk := none, parked := [p] }
       let s := { armed [1, 1, 2, 0] with groups := [(3, scalars [(10, 0x100), (11, 1)]), (4, h)] }
       SMap.rises s.groups ∧ SMap.find s.groups 4 = some h ∧ h.parked = [p] ∧ p.map ≠ 0 ∧ (1 : Word) ≠ 2 ∧ s.pbPending 2 0x100 = false) := by
  unfold SMap.rises; decide +kernel
/-- A release with a render-target word of the core in flight, which its fence makes arrive. -/
theorem witness_Fences_targets : let s := { rtState with targets := [rtWord 3 .clear] }
    let v := s.settleTargets (fun t => t.core == 0)
    v.targets = [] ∧ SMap.find v.groups 3 = some (scalars [(24, 0x18000), (26, 3), (27, 1)]) ∧ (∀ t ∈ rtState.targets, t.core ≠ 0)
    ∧ s.issuing cur0 (scalars [(24, 0x18000), (26, 3), (27, 1)]) := by
  refine ⟨by decide +kernel, by decide +kernel, by decide, ⟨rfl, rfl⟩⟩
/-- A waiting TALLOC that fits behind one of its own group's that does not; a claim on another context's tile. -/
theorem witness_TilesAllocated_wait : let p : Parked := ⟨1, 0x10000, 0, .talloc 2 4 2 0, 0, 0⟩
    let g := { holder 0 with parked := [⟨2, 0x10000, 0, .talloc 3 1022 2 1, 0, 0⟩, p] }
    let s := full g [tile0 false]
    g.waitOf (fun q => (s.tallocMay g q).isSome) = some p ∧ s.kennelMay g 4 0 0 = some 4 := by decide +kernel
theorem witness_TilesRead_context : let t := { tile0 true with ctx := 2 }
    let s := full reader [t]
    hValid (reader.regs.getH 2) = true ∧ (reader.regs.claim 2).1 &&& cur0.map ≠ 0 ∧ s.kennel.tileAt 0 0 = some t ∧ t.ctx ≠ reader.ctx
    ∧ (tile0 true).ctx = reader.ctx ∧ (full reader [tile0 true]).kennel.gen 0 0 = hGen (reader.regs.claim 2).2 := by decide +kernel
/-- A waiter that the leash has been passed to, and its holder otherwise; grids of one pair number. -/
theorem witness_LinkingTiles_due : let g := { linked linkTile0 with leash := ⟨1, 0, 0, 0, true⟩ }
    let s := paired g { reserve := 20000, tiles := [3], leashOwner := some 3 }
    s.issuing cur0 g ∧ g.leash.state = 1 ∧ g.leash.due = true ∧ ({ g with leash := ⟨1, 0, 0, 0, false⟩ } : Group).leash.due = false
    ∧ (∀ n ∈ [1, 2, 3], (let u := { paired group0 { ramp := n } with clock := 512 }
       u.rampMates 0 0 = [0] ∧ (u.pairCtl 0 0).ramp = n ∧ u.gridQuiet 0 0 64 = true ∧ u.gridQuiet 0 0 512 = true ∧ (u.pairCtl 0 0).burst = 0))
    ∧ (paired group0 { ramp := 3, burst := 4 }).rampMates 0 0 = [0] := by
  refine ⟨⟨rfl, rfl⟩, by decide, by decide, by decide, by decide +kernel, by decide +kernel⟩
/-- Rows and columns of finite values, integers and not. -/
theorem witness_GridSteps_sum : let a := List.replicate 16 [Num.fin false 3 (-1), Num.fin true 1 0]
    let b := List.replicate 32 [Num.ofInt (-5), Num.ofInt 7]
    511 < 512 ∧ (∀ v ∈ a.getD (511 / 32) [] ++ b.getD (511 % 32) [], v.finite = true) ∧ (Fmt.fa40.decode 0).finite = true
    ∧ ∀ v ∈ b.getD 15 [] ++ b.getD 31 [], v.finite = true ∧ ∃ z, v = Num.ofInt z := by
  refine ⟨by decide, by decide +kernel, by decide +kernel, ?_⟩
  intro v hv
  fin_cases hv <;> exact ⟨by decide +kernel, _, rfl⟩
/-- The texture sampled at u = v = 3/8, where the products with its size are exact: nearest texel 3, gathered texels 2 and 3. -/
def sampGroup : Group := { texGroup 0 with regs := { (texGroup 0).regs with v := [(4, 0x3EC00000), (5, 0x3EC00000)] } }
def sampState : State := { State.keep (State.keep (texState 0) 0x100012 2 0x4020) 0x10001A 2 0x8060 with groups := [(3, sampGroup)] }
theorem witness_Texturing_samples : sampState.issuing cur0 sampGroup
    ∧ f32 (sampGroup.regs.getV 0 4) = .fin false (3 * 2 ^ 22) (-((3 + 22 : Nat) : Int)) ∧ 2 * 3 * 8 < 2 ^ 24 ∧ 2 ^ 3 ≤ 2 * 3 * 8
    ∧ (match sampState.readX sampGroup 0x18000 64 with
      | .ok b => (match texOf (natOf b) with
        | some d => decide (d.width 0 = 8 ∧ d.height 0 = 8 ∧ d.latent = false ∧ 0 < d.nlev ∧ d.bilinear = false)
          && [(3, 3), (2, 2), (3, 2), (2, 3)].all (fun e => match sampState.pageCode sampGroup d (d.texelOff 0 0 e.1 e.2 / 65536),
              sampState.readX sampGroup (d.base + d.texelOff 0 0 e.1 e.2) d.texelBytes with
            | .ok 1, .ok _ => true
            | _, _ => false)
        | none => false)
      | _ => false) = true := by
  refine ⟨⟨rfl, rfl⟩, by decide +kernel, by decide, by decide, by decide +kernel⟩
/-- A slice and an SLC with room for one more sector. -/
theorem witness_OwnershipEvents_room : let q : MemSys := { owning with regq := [] }
    (q.l2.filter (fun e => l2Slice (e.1 / 2) == l2Slice 0)).length < 2 * l2Lines ∧ (q.slcPool 0).length < q.slcCap
    ∧ ((q.l2Fill 0).l2.filter (fun e => l2Slice (e.1 / 2) == l2Slice 0)).length < 2 * l2Lines ∧ ((q.l2Fill 0).slcPool 0).length < (q.l2Fill 0).slcCap := by
  decide +kernel
/-- BAR0 before READY, open, and in Retain; an interface that is open and one that never was; records held and not. -/
theorem witness_HostAccesses_registers : State.reset.host.ready = false ∧ (queued 3).host.ready = true ∧ (queued 3).barOpen = true
    ∧ (powered .retain false .retain).host.ready = true ∧ (powered .retain false .retain).barOpen = false
    ∧ SMap.find (queued 3).host.ifaces 0 = some (iface0 3) ∧ SMap.find (queued 3).host.ifaces 1 = none
    ∧ (let s := { queued 3 with snap := { (queued 3).snap with held := true, latched := [(2, [7, 8])] } }
       s.barOpen = true ∧ s.snap.held = true ∧ SMap.find s.snap.latched 2 = some [7, 8] ∧ SMap.find s.snap.latched 50 = none)
    ∧ 0x10028 % 8 = 0 ∧ 0x8000 + 512 * 63 + 8 * 63 < 2 ^ 21 ∧ 0x100000 + 0x1000 * 63 < 2 ^ 21 ∧ 0x063 % 4 ≠ 0 := by decide +kernel
/-- A waiting SPAWN with room for its one entry. -/
theorem witness_WaitsThatEnd_spawn : let h := { lane [(2, 0)] with parked := [⟨1, 0x10000, 0, .spawn 0 2 1, 0, 0⟩] }
    let s := full h []
    (∃ r e, SMap.find s.grids 1 = some r ∧ r.taskTable[0]? = some e ∧ e.arg = 16 ∧ s.mireMay h none (1 * taskGranules r) 0 = true
      ∧ (s.taskRuns h (taskGranules r) 1).2 = [0]) ∧ SMap.find s.teams 2 = some placeTeam ∧ h.width ≤ 64 := by
  refine ⟨⟨_, ⟨0, 16⟩, rfl, rfl, rfl, by decide +kernel, by decide +kernel⟩, rfl, by decide⟩
/-- A group whose frame's page has been asked for, at a request resolved, failed and open. -/
theorem witness_PagesAndFills_frame : let g := { group0 with frameWait := some ⟨some 0, 0x0F, 1, 0, 0x10000, 0, false⟩ }
    let s := fun n => { asked n (some 0x1C000) with groups := [(3, g)] }
    (∀ n ∈ [0, 1, 2], natOf ((s n).hRead (0x1C000 + 28) 4).2 = n ∧ SMap.find (s n).groups 3 = some g) ∧ g.frameWait.bind (fun w => w.req) = some 0
    ∧ (asked 2 (some 0x1C000)).groups.map (fun e => e.2.frameWait) = [none]
    ∧ (asked 1 none).svc.covers ((asked 1 none).ctx 1).prqb 32 = false ∧ (asked 1 none).svc.covers (((asked 1 none).ctx 1).tdesc + 24) 8 = false := by
  decide +kernel
/-- Fills whose entry's page is absent or denied, and a residency word that may be written. -/
theorem witness_PagesAndFills_entry : let q : TransReq := ⟨.streaming, 1, false, .read⟩
    let s := filling false 0x1A100
    s.pwr.brupFail ≠ 6 ∧ s.mem.risen ∧ s.frontPage q 0x200000 16 = .error (some (false, 0x200000))
    ∧ ({ s with mem := { s.mem with poison := [0x1A100 / 8] } } : State).frontPage q 0x1A100 16 = .error none
    ∧ (match s.translate ⟨.streaming, 1, false, .write⟩ 0x1A000 with
      | .ok pa _ => decide (pa = 0x1A000)
      | _ => false) = true ∧ s.svc.covers 0x1A000 4 = false ∧ s.mem.still (0x1A000 / 4) 1 := by
  refine ⟨by decide, risen_of (by decide +kernel), by decide +kernel, by decide +kernel, by decide +kernel, by decide, fun _ h => absurd h List.not_mem_nil⟩
/-- A control block that can be written, one whose page is not there, and one that waits for it. -/
def blockAt (a : Nat) : State := let s := queued 1
  { s with ctxs := [(1, { s.ctx 1 with save := a })] }
theorem witness_QueuesAndRegisters_gate : (blockAt 0x1B000).nextIface = some (0, iface0 1) ∧ (blockAt 0x1B000).ccbGate 1 = none
    ∧ (blockAt 0x200000).nextIface = some (0, iface0 1) ∧ ((blockAt 0x200000).ccbGate 1).isSome = true
    ∧ (let s := { blockAt 0x1B000 with hwaits := [⟨1, 0x1B000, .control, 0⟩], host := { (blockAt 0x1B000).host with cmdState := 1, cmdOp := 1, cmdArg := 1 } }
       s.ccbPending 1 = true ∧ s.commandCtx = some 1 ∧ s.host.cmdState = 1 ∧ (blockAt 0x1B000).ccbPending 1 = false) := by decide +kernel
/-- A restart's end with a live group of an ended grid that has stopped, a grid that had been revoked; a resident group asked to stop. -/
theorem witness_QueuesAndRegisters_ends : let g := { group0 with trap := { group0.trap with stopped := true } }
    let r : Grid := { placeGrid with discarded := true }
    let s := { full g [] with grids := [(1, r)], host := { (full g []).host with restart := true } }
    s.host.restart = true ∧ (∀ e ∈ s.groups, (∃ r ∈ SMap.find s.grids e.2.grid, r.discarded = false) ∨ e.2.life ≠ .resident ∨ e.2.live = 0 ∨ e.2.trap.stopped = true)
    ∧ (∃ e ∈ s.groups, e.2.life = .resident ∧ e.2.live ≠ 0) ∧ s.wasRevoked r = false
    ∧ (let u : State := { s with ctxs := [(1, { s.ctx 1 with pasid := 5 })], host := { s.host with revoked := [5] } }
       u.wasRevoked r = true)
    ∧ (let u := full group0 []
       u.host.ready = true ∧ SMap.rises u.teams ∧ SMap.rises u.grids ∧ SMap.find u.groups 3 = some group0 ∧ group0.live ≠ 0 ∧ group0.trap.preempt = false
       ∧ (∃ tm ∈ SMap.find u.teams group0.team, tm.life = .resident ∧ ∃ r ∈ SMap.find u.grids tm.grid, u.survives r = false ∧ r.retired = false)) := by
  unfold SMap.rises; decide +kernel
/-- A grid that runs, one that has not been placed, one that has retired. -/
theorem witness_HostCommands_grids : (full group0 []).gridRuns 1 placeGrid = true ∧ (full group0 []).gridRuns 1 { placeGrid with placed := 0 } = false
    ∧ (full group0 []).gridRuns 1 { placeGrid with retired := true } = false := by decide +kernel
theorem witness_HostCommands_found : ∃ r, (full group0 []).grids.find? (fun e => gridNumber e.1 == gridNumber 1 && e.2.ctx == 1) = some (1, r) :=
  ⟨_, List.find?_cons_of_pos (by simp [placeGrid])⟩
/-- Copies that run: one in whose tag is good or bad, one out whose source has changed since; one that waits; a recovery. -/
def job0 (out good : Bool) : CopyJob :=
  { ctx := 1, out := out, runs := [(0x18000, 32)], counter := 0x1A000, alg := 0, key := List.replicate 16 0, iv := bytesOf 12 0, len := 32, va := 0x18000,
    host := 0x50000, data := List.replicate 32 7, good := good }
def jobbing (j : Option CopyJob) (pend : Bool) : State := { asking [] with svc := { (asking []).svc with sstat := 1, job := j, pend := pend, sreq := 0x40000 } }
theorem witness_ServiceRequests_jobs : (∀ o ∈ [true, false], ∀ g ∈ [true, false], let s := jobbing (some (job0 o g)) false
      s.svc.sstat = 1 ∧ s.svc.rstat ≠ 1 ∧ s.svc.pend = false ∧ s.svc.job = some (job0 o g) ∧ (s.mem.readRuns (job0 o g).runs).2.length = (job0 o g).data.length
      ∧ s.svc.covers 0x50000 32 = false ∧ s.svc.covers (0x40000 + 128) 28 = false ∧ (SMap.find s.ctxs 1).bind (fun c => c.conf) = some ⟨0, List.replicate 16 0, some 7, 0⟩)
    ∧ (jobbing none true).svc.pend = true ∧ (jobbing none false).svc.job = none ∧ ((jobbing none false).svc.sstat = 1 ∧ ({ (jobbing none false).svc with rstat := 1 } : Service).rstat = 1)
    ∧ (let s := asking [(0, 1, 2), (8, 1, 2)]
       (∃ e ∈ s.grids, e.2.ctx = 1 ∧ s.gridRuns e.1 e.2 = true) ∧ ∀ e ∈ ({ s with grids := [] } : State).grids, ¬ e.2.ctx = 1) := by decide +kernel
/-- A fatal fault's and a recovery's groups: live and resident, stopped or not. -/
theorem witness_ServiceRequests_stop : let s := full group0 []
    let h := { group0 with trap := { group0.trap with stopped := true } }
    SMap.rises s.groups ∧ SMap.rises s.teams ∧ SMap.find s.groups 3 = some group0 ∧ group0.live ≠ 0 ∧ (∃ tm ∈ SMap.find s.teams 2, tm.life = .resident ∧ (SMap.find s.grids tm.grid).isSome = true)
    ∧ (let u := { full h [] with svc := { s.svc with rstat := 1 } }
       u.svc.rstat = 1 ∧ (∀ e ∈ u.groups, e.2.life ≠ .resident ∨ e.2.live = 0 ∨ e.2.trap.stopped = true) ∧ ∃ e ∈ u.groups, e.2.life = .resident ∧ e.2.live ≠ 0)
    ∧ ∃ e ∈ s.groups, e.2.life = .resident ∧ e.2.live ≠ 0 ∧ e.2.trap.stopped = false := by
  unfold SMap.rises; decide +kernel
/-- A bring-up at its first, sixth and last steps, and none; a value for Listen from Retain, where the enabled contexts are kept; a grid in the way. -/
theorem witness_PowerAndSnapshots_rising : (∀ n ∈ [1, 5, 6, 7], let s : State := { State.reset with pwr := { State.reset.pwr with brup := n, rising := true } }
      s.pwr.rising = true ∧ s.pwr.brup + 1 ≤ 8) ∧ (State.reset.place 0).pwr.rising = false
    ∧ (let s := powered .retain false .retain
       ({ s with pwr := { s.pwr with enabled := [0] } } : State).pwr.enabled.contains 0 = true ∧ s.pwr.enabled.contains 9 = false)
    ∧ (let s := powered .run false .run
       (∃ e ∈ s.grids, e.2.retired = false ∧ ¬ (e.2.discarded = true ∧ s.gridDone e.1 e.2 = true)) ∧ ∀ e ∈ ({ s with grids := [(1, { placeGrid with retired := true })] } : State).grids,
         e.2.retired = true)
    ∧ ((powered .retain true .run).pwr.state = .retain ∧ (powered .run true .listen).copies = [] ∧ (powered .run true .listen).teams.map (fun e => (e.2.ctx, e.2.core)) = [(1, 0)]
      ∧ (bits (powered .run true .listen).pwr.pwrctl 35 20, bits (powered .run true .listen).pwr.pwrctl 47 42) = (0, 0))
    ∧ (let s := { queued 0 with snap := { (queued 0).snap with held := true } }
       s.barOpen = true ∧ s.snap.held = true ∧ State.reset.barOpen = false ∧ s.pwr.powered 47 = true) := by decide +kernel
/-- Two waiting dependants, the elder of the higher number; a retired grid whose block is pending or written; records behind a full batch. -/
theorem witness_LaunchesAndRetirement_more : let w := fun n : Nat => { placeGrid with lpbAddr := 0x1C000, waiting := true, placed := 0, arrived := n, lpb := { placeLpb with depwait := 1 } }
    let s := triggering [(4, w 9), (6, w 2)]
    s.grids.find? (fun e => s.triggerHolds e.1 e.2) = some (1, grid0) ∧ SMap.rises s.grids
    ∧ (w 2).arrived < (w 9).arrived ∧ (6, w 2) ∈ (SMap.put s.grids 1 { grid0 with triggered := true })
    ∧ (let r : Grid := { placeGrid with triggered := true, retired := true }
       let u := { full group0 [] with grids := [(1, r)], teams := [], groups := [] }
       SMap.find u.grids 1 = some r ∧ u.gridDone 1 r = true ∧ r.doneWait = none ∧ r.discarded = false ∧ r.retired = true ∧ u.ccbPending 1 = false
       ∧ ({ u with hwaits := [⟨1, 0x1B000, .control, 0⟩] } : State).ccbPending 1 = true ∧ (u.ctx 1).bound = true)
    ∧ (let d : Node := ⟨0, 8, 0, 10, 32, 0, 2⟩
       let l : List Committed := [⟨0x80000, 0⟩, ⟨0x80020, 0⟩, ⟨0x80040, 100⟩]
       l.length / d.batch * d.batch = 2 ∧ l.drop 2 = [⟨0x80040, 100⟩] ∧ ([⟨0x80000, 0⟩, ⟨0x80020, 0⟩] : List Committed).drop 2 = []) := by
  unfold SMap.rises; decide +kernel
/-- A context block at 0x40000 with a zero field set, and one with LEVEL 11. -/
theorem witness_SavingAndRestoring_refused : ∀ x ∈ [2 ^ 8, 3 * 2 ^ 29], let g := { waiting0 0x10000 (.waitcmp 0x18000 0 0 1 false) with life := .saved }
    let s := State.keep (still g { placeTeam with life := .saved, wanted := true }) 0x40000 8 x
    let g1 : Group := { g with core := 0, part := s.freePart 0 (List.range 6), gcn := s.freeGcn 0, life := Life.resident, ready := false }
    let v : State := { s with groups := SMap.put s.groups 3 g1 }
    SMap.find s.groups 3 = some g ∧ g.tile = none ∧ g.live ≠ 0 ∧ v.pagesOf g1 .read g.trap.gcb 1 = .ok [0x40000]
    ∧ (let y := wordsNat ((v.readPages 0 [0x40000]).take 4)
       (bits y 30 29 = 3 ∨ bits y 8 8 ≠ 0) ∧ bits y 24 24 = 0) := by decide +kernel
end Sys2Proof.Tests
end

section
/-! PROOFS. Numbers (02, R51 to R67): a finite code is delivered into its own format as itself, and the NaN,
infinity and signed-zero rules of FP32 arithmetic (R115, R116). -/

namespace Sys2Proof.Machine

/-! ## The fields of a code -/

/-- Exponent field, fraction field and sign of a code (R51). -/
def Fmt.expField (f : Fmt) (c : Nat) : Nat := c / 2 ^ f.fbits % 2 ^ f.ebits
def Fmt.fracField (f : Fmt) (c : Nat) : Nat := c % 2 ^ f.fbits
def Fmt.negField (f : Fmt) (c : Nat) : Bool := c / 2 ^ (f.ebits + f.fbits) % 2 == 1

theorem Fmt.expField_lt (f : Fmt) (c : Nat) : f.expField c < 2 ^ f.ebits := Nat.mod_lt _ (by positivity)
theorem Fmt.fracField_lt (f : Fmt) (c : Nat) : f.fracField c < 2 ^ f.fbits := Nat.mod_lt _ (by positivity)

/-- The value of a code by its fields (R52). -/
theorem Fmt.decode_eq (f : Fmt) (c : Nat) : f.decode c =
    if f.isNan (f.expField c) (f.fracField c) then .nan
    else if f.isInf (f.expField c) (f.fracField c) then .inf (f.negField c)
    else if f.expField c = 0 then .fin (f.negField c) (f.fracField c) f.minExp
    else .fin (f.negField c) (2 ^ f.fbits + f.fracField c) ((f.expField c : Int) - f.bias - f.fbits) := rfl

/-- The sign, the exponent field and the fraction field make the code again. -/
theorem Fmt.code_eq_fields (f : Fmt) {c : Nat} (hc : c < 2 ^ f.width) :
    c = f.signBit (f.negField c) + (f.expField c * 2 ^ f.fbits + f.fracField c) := by
  have hlow : c % 2 ^ (f.ebits + f.fbits) = f.expField c * 2 ^ f.fbits + f.fracField c := by
    rw [Fmt.expField, Fmt.fracField, Nat.add_comm, pow_add, Nat.mod_mul, Nat.add_comm, Nat.mul_comm]
  have htop : c / 2 ^ (f.ebits + f.fbits) ≤ 1 := by
    rw [← Nat.lt_succ_iff, Nat.div_lt_iff_lt_mul (by positivity), ← pow_succ']
    rwa [Fmt.width, Nat.add_assoc, Nat.add_comm] at hc
  have hsplit := Nat.div_add_mod c (2 ^ (f.ebits + f.fbits))
  rw [← hlow, Fmt.signBit, Fmt.negField]
  obtain h | h := Nat.le_one_iff_eq_zero_or_eq_one.1 htop
  all_goals rw [h] at hsplit ⊢; simpa using hsplit.symm

/-- What a finite code says of its fields: they are neither a NaN nor an infinity, and the value is subnormal
for exponent field 0 and normal for any other (R52). -/
theorem Fmt.fields_of_decode_fin {f : Fmt} {c m : Nat} {e : Int} {neg : Bool} (h : f.decode c = .fin neg m e) :
    neg = f.negField c ∧ f.isNan (f.expField c) (f.fracField c) = false ∧
    f.isInf (f.expField c) (f.fracField c) = false ∧
    ((f.expField c = 0 ∧ m = f.fracField c ∧ e = f.minExp) ∨
      (f.expField c ≠ 0 ∧ m = 2 ^ f.fbits + f.fracField c ∧ e = (f.expField c : Int) - f.bias - f.fbits)) := by
  rw [f.decode_eq] at h
  split_ifs at h with hnan hinf hsub
  all_goals
    obtain ⟨hneg, hm, he⟩ := Num.fin.inj h
    refine ⟨hneg.symm, by simpa using hnan, by simpa using hinf, ?_⟩
  · exact .inl ⟨hsub, hm.symm, he.symm⟩
  · exact .inr ⟨hsub, hm.symm, he.symm⟩

/-- In a format with infinities the last exponent field holds only them and the NaNs. -/
theorem Fmt.ne_last_of_finite {f : Fmt} {x m : Nat} (h4 : f ≠ .e4m3) (h2 : f ≠ .e2m1)
    (hnan : f.isNan x m = false) (hinf : f.isInf x m = false) : x ≠ 2 ^ f.ebits - 1 := by
  rintro rfl
  cases f <;> simp_all [Fmt.isNan, Fmt.isInf]

/-- Fields that hold neither a NaN nor an infinity make at most the largest finite code (R51). -/
theorem Fmt.fields_le_maxCode {f : Fmt} {x m : Nat} (hx : x < 2 ^ f.ebits) (hm : m < 2 ^ f.fbits)
    (hnan : f.isNan x m = false) (hinf : f.isInf x m = false) : x * 2 ^ f.fbits + m ≤ f.maxCode := by
  cases f
  case e4m3 | e2m1 =>
    simp [Fmt.ebits, Fmt.fbits, Fmt.isNan, Fmt.maxCode] at hx hm hnan ⊢; omega
  all_goals
    have hlast := Fmt.ne_last_of_finite (by decide) (by decide) hnan hinf
    simp [Fmt.ebits, Fmt.fbits, Fmt.maxCode] at hx hm hlast ⊢; omega

/-- The largest finite code decodes as the normal value of its own fields. -/
theorem Fmt.decode_maxCode (f : Fmt) : f.decode f.maxCode =
    .fin false (2 ^ f.fbits + f.maxCode % 2 ^ f.fbits) ((f.maxCode / 2 ^ f.fbits : Nat) - f.bias - f.fbits) := by
  cases f <;> decide

theorem Fmt.maxCode_normal (f : Fmt) : 1 ≤ f.maxCode / 2 ^ f.fbits := by cases f <;> decide

/-! ## The values a format represents -/

/-- A finite value in a format's own form: a fraction of fbits bits at the lowest exponent, or one with the hidden
bit at that exponent or above, and no greater than the largest finite value. -/
structure Fmt.Represents (f : Fmt) (m : Nat) (e : Int) : Prop where
  mant_lt : m < 2 ^ (f.fbits + 1)
  minExp_le : f.minExp ≤ e
  normal : e = f.minExp ∨ 2 ^ f.fbits ≤ m
  exceeds : f.exceeds m e = false

/-- A mantissa of at most fbits + 1 bits at exponent field x exceeds the largest finite value only where the fields do. -/
theorem Fmt.exceeds_eq_false {f : Fmt} {x r m : Nat} (hr : r < 2 ^ f.fbits) (hm : m ≤ 2 ^ f.fbits + r)
    (hmax : x * 2 ^ f.fbits + r ≤ f.maxCode) : f.exceeds m ((x : Int) - f.bias - f.fbits) = false := by
  have hx : x ≤ f.maxCode / 2 ^ f.fbits := by
    rw [Nat.le_div_iff_mul_le (by positivity)]; omega
  have hsplit := Nat.div_add_mod' f.maxCode (2 ^ f.fbits)
  rw [Fmt.exceeds, f.decode_maxCode]
  dsimp only
  obtain heq | hlt := Nat.eq_or_lt_of_le hx
  · rw [← heq] at hsplit ⊢
    rw [if_pos le_rfl, sub_self, Int.toNat_zero, pow_zero, decide_eq_false_iff_not]
    omega
  · obtain ⟨k, hk⟩ := Nat.exists_eq_add_of_lt hlt
    have hshift : ((f.maxCode / 2 ^ f.fbits : Nat) - f.bias - f.fbits - ((x : Int) - f.bias - f.fbits)).toNat = k + 1 := by
      omega
    have hdouble : 2 ^ f.fbits * 2 ≤ (2 ^ f.fbits + f.maxCode % 2 ^ f.fbits) * 2 ^ (k + 1) :=
      Nat.mul_le_mul (Nat.le_add_right _ _) (Nat.le_self_pow (Nat.succ_ne_zero k) 2)
    rw [if_neg (by omega), hshift, decide_eq_false_iff_not]
    omega

/-- The value of a finite code is one that its format represents. -/
theorem Fmt.represents_of_decode {f : Fmt} {c m : Nat} {e : Int} {neg : Bool} (h : f.decode c = .fin neg m e) :
    f.Represents m e := by
  obtain ⟨-, hnan, hinf, hval⟩ := Fmt.fields_of_decode_fin h
  have hr := f.fracField_lt c
  have hmax := Fmt.fields_le_maxCode (f.expField_lt c) hr hnan hinf
  have hpow : 2 ^ (f.fbits + 1) = 2 ^ f.fbits * 2 := pow_succ 2 f.fbits
  obtain ⟨-, rfl, rfl⟩ | ⟨hx, rfl, rfl⟩ := hval
  · have hone : 1 * 2 ^ f.fbits ≤ f.maxCode := (Nat.le_div_iff_mul_le (by positivity)).1 f.maxCode_normal
    have hexc := Fmt.exceeds_eq_false (f := f) (x := 1) (r := 0) (m := f.fracField c) (by positivity) (by omega) (by simpa using hone)
    exact ⟨by omega, le_rfl, .inl rfl, by simpa [Fmt.minExp] using hexc⟩
  · exact ⟨by omega, by rw [Fmt.minExp]; omega, .inr (by omega), Fmt.exceeds_eq_false hr le_rfl hmax⟩

/-! ## Rounding a represented value -/

theorem splitAt_same (m : Nat) (e : Int) : splitAt m e false e = (m, 0) := by simp [splitAt]

/-- An exact result is not rounded away from zero in any mode. -/
theorem roundsUp_zero (mode : Nat) (neg : Bool) (u : Nat) : roundsUp mode neg u 0 = false := by
  unfold roundsUp; split <;> rfl

/-- The unit in the last place of a represented value is its own exponent's. -/
theorem Fmt.Represents.unit_eq {f : Fmt} {m : Nat} {e : Int} (h : f.Represents m e) :
    (if m = 0 then f.minExp else max (e + (Nat.log2 m : Int) - f.fbits) f.minExp) = e := by
  obtain ⟨hlt, hmin, hnormal, -⟩ := h
  split_ifs with hm
  · subst hm
    exact (hnormal.resolve_right (Nat.not_le.2 (by positivity))).symm
  · have hle : Nat.log2 m ≤ f.fbits := Nat.lt_succ_iff.1 ((Nat.log2_lt hm).2 hlt)
    obtain rfl | hbig := hnormal
    · omega
    · have hge : f.fbits ≤ Nat.log2 m := (Nat.le_log2 hm).2 hbig
      omega

/-- A represented value is rounded to itself, exactly, in every mode. -/
theorem Fmt.Represents.roundMag_eq {f : Fmt} {m : Nat} {e : Int} (h : f.Represents m e) (mode : Nat) (neg : Bool) :
    f.roundMag mode neg m e false = (m, e, false) := by
  simp [Fmt.roundMag, h.unit_eq, splitAt_same, roundsUp_zero]

/-- A represented value is delivered as its sign and its own magnitude code, with no status. -/
theorem Fmt.Represents.roundFin_eq {f : Fmt} {m : Nat} {e : Int} (h : f.Represents m e) (mode : Nat) (sat neg : Bool) :
    f.roundFin mode sat neg m e false = (f.signBit neg + f.encodeMag m e, 0) := by
  simp [Fmt.roundFin, h.roundMag_eq, h.exceeds, Stat.when]

/-- The magnitude code of a finite code's value is the exponent and fraction fields of the code. -/
theorem Fmt.encodeMag_of_decode {f : Fmt} {c m : Nat} {e : Int} {neg : Bool} (h : f.decode c = .fin neg m e) :
    f.encodeMag m e = f.expField c * 2 ^ f.fbits + f.fracField c := by
  obtain ⟨-, -, -, hval⟩ := Fmt.fields_of_decode_fin h
  have hr := f.fracField_lt c
  rw [Fmt.encodeMag, if_neg (Fmt.represents_of_decode h).mant_lt.ne]
  dsimp only
  obtain ⟨hx, rfl, -⟩ | ⟨-, rfl, rfl⟩ := hval
  · rw [if_pos hr, hx]; omega
  · rw [if_neg (by omega), Nat.add_sub_cancel_left]
    congr 2; omega

/-- A finite code's value, delivered into its own format in any mode, is that code with no status (R63, R64). -/
theorem Fmt.deliver_decode {f : Fmt} {c m : Nat} {e : Int} {neg : Bool} (hc : c < 2 ^ f.width)
    (h : f.decode c = .fin neg m e) (mode : Nat) (sat : Bool) : f.deliver mode sat (f.decode c) = (c, 0) := by
  obtain ⟨hneg, -⟩ := Fmt.fields_of_decode_fin h
  have hcode := f.code_eq_fields hc
  rw [← hneg, ← Fmt.encodeMag_of_decode h] at hcode
  rw [h, Fmt.deliver, (Fmt.represents_of_decode h).roundFin_eq, ← hcode]

/-! ## NaN, infinities and signed zeros in arithmetic -/

@[simp] theorem Num.nan_add (x : Num) : Num.nan.add x = (.nan, 0) := rfl
@[simp] theorem Num.add_nan (x : Num) : x.add .nan = (.nan, 0) := by cases x <;> rfl
@[simp] theorem Num.nan_mul (x : Num) : Num.nan.mul x = (.nan, 0) := rfl
@[simp] theorem Num.mul_nan (x : Num) : x.mul .nan = (.nan, 0) := by cases x <;> rfl
@[simp] theorem Num.inf_add_inf_not (s : Bool) : (Num.inf s).add (.inf !s) = (.nan, Stat.nv) := by cases s <;> rfl
@[simp] theorem Num.inf_mul_zero (s t : Bool) (e : Int) : (Num.inf s).mul (.fin t 0 e) = (.nan, Stat.nv) := rfl
@[simp] theorem Num.zero_mul_inf (s t : Bool) (e : Int) : (Num.fin s 0 e).mul (.inf t) = (.nan, Stat.nv) := rfl

section Special
variable {f : Fmt} {x y : Num} {s : Stat}

/-- A sum that is NaN delivers the canonical NaN, with .sat too, and only the status of the sum (R54, R115). -/
theorem Fmt.sum_of_nan (hf : f ≠ .e2m1) (h : x.add y = (.nan, s)) (sat : Bool) : f.sum sat x y = (f.nanCode, s) := by
  simp [Fmt.sum, h, Fmt.deliver, hf]

/-- A product that is NaN delivers the canonical NaN and only the status of the product. -/
theorem Fmt.product_of_nan (hf : f ≠ .e2m1) (h : x.mul y = (.nan, s)) (sat : Bool) :
    f.product sat x y = (f.nanCode, s) := by
  simp [Fmt.product, h, Fmt.deliver, hf]

/-- A product that is NaN decides a fused word whatever is added (R115). -/
theorem Fmt.fused_of_nan (hf : f ≠ .e2m1) (h : x.mul y = (.nan, s)) (sat : Bool) (z : Num) :
    f.fused sat x y z = (f.nanCode, s) := by
  simp [Fmt.fused, h, Fmt.deliver, hf]

/-- A NaN added in a fused word gives the canonical NaN, whatever the product. -/
theorem Fmt.fused_nan (f : Fmt) (sat : Bool) (x y : Num) : (f.fused sat x y .nan).1 = f.nanCode := by
  simp [Fmt.fused, Fmt.deliver]

end Special

theorem Fmt.pick_nan_nan {f : Fmt} {a b : Nat} (ha : f.decode a = .nan) (hb : f.decode b = .nan) (greater : Bool) :
    f.pick greater a b = f.nanCode := by
  simp [Fmt.pick, ha, hb]

/-- One NaN operand yields the other operand's code (R116). -/
theorem Fmt.pick_nan_left {f : Fmt} {a b : Nat} (ha : f.decode a = .nan) (hb : f.decode b ≠ .nan) (greater : Bool) :
    f.pick greater a b = b := by
  cases h : f.decode b with
  | nan => exact absurd h hb
  | inf | fin => simp [Fmt.pick, ha, h]

theorem Fmt.pick_nan_right {f : Fmt} {a b : Nat} (ha : f.decode a ≠ .nan) (hb : f.decode b = .nan) (greater : Bool) :
    f.pick greater a b = a := by
  cases h : f.decode a with
  | nan => exact absurd h ha
  | inf | fin => simp [Fmt.pick, hb, h]

/-- −0 is below +0 in FMIN and FMAX, in either order of the operands. -/
theorem Fmt.pick_zeros : Fmt.fp32.pick false 0 0x80000000 = 0x80000000 ∧ Fmt.fp32.pick false 0x80000000 0 = 0x80000000 ∧
    Fmt.fp32.pick true 0 0x80000000 = 0 ∧ Fmt.fp32.pick true 0x80000000 0 = 0 := by decide

/-- Settles O9: a finite code's value is one its format represents, which rounding leaves as it is; the special
operands make the exact sum or product NaN, or are decided by the order of the codes. -/
theorem roundingAndSpecialValues : Obligations.RoundingAndSpecialValues := by
  refine ⟨fun f mode sat neg c m e hc h => Fmt.deliver_decode hc h mode sat, fun sat neg x y z a b => ?_⟩
  have hfp : Fmt.fp32 ≠ .e2m1 := by decide
  refine ⟨fun hnan => ?_, Fmt.fused_nan _ sat x y, Fmt.sum_of_nan hfp (Num.inf_add_inf_not neg) sat, fun s e => ?_,
    fun ha hb => Fmt.pick_nan_nan ha hb sat,
    fun ha hb => ⟨Fmt.pick_nan_left ha hb sat, Fmt.pick_nan_right hb ha sat⟩, Fmt.pick_zeros⟩
  · have hadd : x.add y = (.nan, 0) := by obtain rfl | rfl := hnan <;> simp
    have hmul : x.mul y = (.nan, 0) := by obtain rfl | rfl := hnan <;> simp
    exact ⟨congrArg Prod.fst (Fmt.sum_of_nan hfp hadd sat), congrArg Prod.fst (Fmt.product_of_nan hfp hmul sat),
      congrArg Prod.fst (Fmt.fused_of_nan hfp hmul sat z)⟩
  · have hleft := Num.inf_mul_zero neg s e
    have hright := Num.zero_mul_inf s neg e
    exact ⟨Fmt.product_of_nan hfp hleft sat, Fmt.product_of_nan hfp hright sat,
      Fmt.fused_of_nan hfp hleft sat z, Fmt.fused_of_nan hfp hright sat z⟩

end Sys2Proof.Machine
end

section
/-! PROOFS. Integer words (R106 to R111): each result as its rule states it, and the registers a word leaves. -/

namespace Sys2Proof.Machine

variable {s : State} {c : Cur} {g : Group} {d : Nat}

/-- What a word leaves may be stated with any value equal to its own in every thread. -/
theorem leaves_congr {α : Type} {o : Out} {P : (Nat → α) → Regs → Prop} {f f' : Nat → α}
    (h : ∃ t r, o = .next t ∧ s.passed c g r t ∧ P f r) (hf : ∀ t, f t = f' t) :
    ∃ t r, o = .next t ∧ s.passed c g r t ∧ P f' r :=
  (funext hf : f = f') ▸ h

/-- A word leaves what its meaning in the dispatch leaves. -/
theorem leaves_of_exec {i : Instr} {o : Out} {p : Regs → Prop} (hi : exec i s = o)
    (h : ∃ t r, o = .next t ∧ s.passed c g r t ∧ p r) : leaves i s c g p := by
  subst hi
  exact h

/-! ## Sums and products (R106, R107) -/

theorem ofInt_toInt_add (x y : Word) : BitVec.ofInt 32 (x.toInt + y.toInt) = x + y := by
  rw [BitVec.ofInt_add, BitVec.ofInt_toInt, BitVec.ofInt_toInt]

theorem ofInt_toInt_sub (x y : Word) : BitVec.ofInt 32 (x.toInt - y.toInt) = x - y := by
  rw [Int.sub_eq_add_neg, BitVec.ofInt_add, BitVec.ofInt_neg, BitVec.ofInt_toInt, BitVec.ofInt_toInt, BitVec.sub_eq_add_neg]

theorem ofNat_toNat_add (x y : Word) : BitVec.ofNat 32 (x.toNat + y.toNat) = x + y := by
  rw [BitVec.ofNat_add, BitVec.ofNat_toNat, BitVec.ofNat_toNat, BitVec.setWidth_eq, BitVec.setWidth_eq]

theorem ofNat_toNat_mul (x y : Word) : BitVec.ofNat 32 (x.toNat * y.toNat) = x * y := by
  rw [BitVec.ofNat_mul, BitVec.ofNat_toNat, BitVec.ofNat_toNat, BitVec.setWidth_eq, BitVec.setWidth_eq]

theorem ofNat_toNat_mul_add (x y z : Word) : BitVec.ofNat 32 (x.toNat * y.toNat + z.toNat) = x * y + z := by
  rw [BitVec.ofNat_add, ofNat_toNat_mul, BitVec.ofNat_toNat, BitVec.setWidth_eq]

/-- The clamp changes a value that lies outside the range, and no other. -/
theorem satWord_eq (e : Int) : satWord e =
    (BitVec.ofInt 32 (max (-2 ^ 31) (min (2 ^ 31 - 1) e)), if e < -2 ^ 31 ∨ 2 ^ 31 ≤ e then Stat.sf else 0) := by
  obtain hlo | hmid | hhi : e < -2 ^ 31 ∨ (-2 ^ 31 ≤ e ∧ e < 2 ^ 31) ∨ 2 ^ 31 ≤ e := by omega
  · have hv : max (-2 ^ 31) (min (2 ^ 31 - 1) e) = -2 ^ 31 := by omega
    rw [hv, if_pos (.inl hlo), satWord, clampInt, if_pos hlo]
    rfl
  · have hv : max (-2 ^ 31) (min (2 ^ 31 - 1) e) = e := by omega
    rw [hv, if_neg (by omega), satWord, clampInt, if_neg (by omega), if_neg (by omega)]
    rfl
  · have hv : max (-2 ^ 31) (min (2 ^ 31 - 1) e) = 2 ^ 31 - 1 := by omega
    rw [hv, if_pos (.inr hhi), satWord, clampInt, if_neg (by omega), if_pos (by omega)]
    rfl

/-- Bits [63:32] of a number modulo 2^64 are bits [31:0] of its quotient by 2^32. -/
theorem highWord_ofInt (p : Int) : highWord (BitVec.ofInt 64 p) = BitVec.ofInt 32 (p / 2 ^ 32) := by
  apply BitVec.eq_of_toNat_eq
  simp only [highWord, BitVec.toNat_setWidth, BitVec.toNat_ushiftRight, BitVec.toNat_ofInt, Nat.shiftRight_eq_div_pow]
  omega

theorem mulHigh_signed (x y : Word) : mulHigh false x y = highWord (x.signExtend 64 * y.signExtend 64) := by
  rw [BitVec.signExtend, BitVec.signExtend, ← BitVec.ofInt_mul, highWord_ofInt]
  rfl

theorem mulHigh_unsigned (x y : Word) : mulHigh true x y = highWord (x.setWidth 64 * y.setWidth 64) := by
  have hprod : x.setWidth 64 * y.setWidth 64 = BitVec.ofInt 64 ((x.toNat * y.toNat : Nat) : Int) := by
    rw [BitVec.ofInt_natCast, BitVec.ofNat_mul, BitVec.ofNat_toNat, BitVec.ofNat_toNat]
  rw [hprod, highWord_ofInt, mulHigh, if_pos rfl, ← BitVec.ofInt_natCast]
  rfl

/-! ## Extremes and absolute value (R106) -/

/-- The code "less" compares as the signed or unsigned integers do (R30). -/
@[simp] theorem intCond_lt_signed (x y : Word) : intCond 2 false x y = decide (x.toInt < y.toInt) := rfl
@[simp] theorem intCond_lt_unsigned (x y : Word) : intCond 2 true x y = decide (x.toNat < y.toNat) := rfl

theorem lesser_signed (x y : Word) : (if intCond 2 false y x then y else x) = BitVec.ofInt 32 (min x.toInt y.toInt) := by
  by_cases h : y.toInt < x.toInt
  · simp [h, min_eq_right h.le]
  · simp [h, min_eq_left (not_lt.1 h)]

theorem lesser_unsigned (x y : Word) : (if intCond 2 true y x then y else x) = BitVec.ofNat 32 (min x.toNat y.toNat) := by
  by_cases h : y.toNat < x.toNat
  · simp [h, min_eq_right h.le]
  · simp [h, min_eq_left (not_lt.1 h)]

theorem greater_signed (x y : Word) : (if intCond 2 false x y then y else x) = BitVec.ofInt 32 (max x.toInt y.toInt) := by
  by_cases h : x.toInt < y.toInt
  · simp [h, max_eq_right h.le]
  · simp [h, max_eq_left (not_lt.1 h)]

theorem greater_unsigned (x y : Word) : (if intCond 2 true x y then y else x) = BitVec.ofNat 32 (max x.toNat y.toNat) := by
  by_cases h : x.toNat < y.toNat
  · simp [h, max_eq_right h.le]
  · simp [h, max_eq_left (not_lt.1 h)]

theorem absWord_eq (x : Word) : (if x.msb then -x else x) = BitVec.ofInt 32 |x.toInt| := by
  rw [BitVec.msb_eq_toInt]
  by_cases h : x.toInt < 0
  · simp [h, abs_of_neg h, BitVec.ofInt_neg]
  · simp [h, abs_of_nonneg (not_lt.1 h)]

/-! ## Counts of bits and the reversal (R106) -/

theorem popWord_eq (x : Word) : popWord x = BitVec.ofNat 32 ((List.range 32).countP (fun i => x.getLsbD i)) := by
  rw [popWord, List.countP_eq_length_filter]

/-- The binary length of a number other than 0 is one more than its logarithm. -/
theorem size_eq_log2_succ {n : Nat} (hn : n ≠ 0) : Nat.size n = Nat.log2 n + 1 :=
  le_antisymm (Nat.size_le.2 Nat.lt_log2_self) (Nat.lt_size.2 (Nat.log2_self_le hn))

theorem clzWord_eq (x : Word) : clzWord x = BitVec.ofNat 32 (32 - Nat.size x.toNat) := by
  by_cases h : x = 0
  · subst h
    rfl
  · have hn : x.toNat ≠ 0 := fun h0 => h (BitVec.eq_of_toNat_eq h0)
    rw [clzWord, if_neg h, size_eq_log2_succ hn, Nat.sub_succ', Nat.sub_right_comm]

/-- A number cut to multiples of 2^k is that number cut to multiples of 2^(k + 1), and its bit k. -/
theorem div_mul_two_pow_succ (m k : Nat) :
    m / 2 ^ k * 2 ^ k = m / 2 ^ (k + 1) * 2 ^ (k + 1) + if m.testBit k then 2 ^ k else 0 := by
  have hbit : (if m.testBit k then 2 ^ k else 0) = m / 2 ^ k % 2 * 2 ^ k := by
    rw [Nat.testBit_eq_decide_div_mod_eq]
    obtain h | h := Nat.mod_two_eq_zero_or_one (m / 2 ^ k) <;> simp [h]
  rw [hbit, pow_succ, ← Nat.div_div_eq_div_mul, Nat.mul_comm (2 ^ k) 2, ← Nat.mul_assoc, ← Nat.add_mul, Nat.div_add_mod']

/-- After n bits of x the sum of BREV holds the top n bits of the reversed word. -/
theorem revWord_fold (x : Word) (n : Nat) (hn : n ≤ 32) :
    (List.range n).foldl (fun a i => if x.getLsbD i then a + 2 ^ (31 - i) else a) 0 =
      x.reverse.toNat / 2 ^ (32 - n) * 2 ^ (32 - n) := by
  induction n with
  | zero =>
    rw [List.range_zero, List.foldl_nil, Nat.div_eq_of_lt x.reverse.isLt, Nat.zero_mul]
  | succ n ih =>
    have hbit : x.reverse.toNat.testBit (31 - n) = x.getLsbD n := by
      rw [BitVec.testBit_toNat, BitVec.getLsbD_reverse, BitVec.getMsbD_eq_getLsbD]
      simp [show 31 - n < 32 by omega, show 31 - (31 - n) = n by omega]
    have hstep := div_mul_two_pow_succ x.reverse.toNat (31 - n)
    rw [show 31 - n + 1 = 32 - n by omega, hbit, ← ih (by omega)] at hstep
    rw [List.range_succ, List.foldl_append, show 32 - (n + 1) = 31 - n by omega, hstep]
    simp only [List.foldl_cons, List.foldl_nil]
    split <;> rfl

theorem revWord_eq (x : Word) : revWord x = x.reverse := by
  rw [revWord, revWord_fold x 32 (le_refl 32)]
  simp

/-- Settles O2: each word is a vector word over its operands (R101, R102), and its result is the row's of R106. -/
theorem integerWords : Obligations.IntegerWords := by
  intro s c g d a b x y h hd ha hb
  exact ⟨leaves_congr (stat2_leaves h hd ha hb fun p q => (p + q, 0)) fun t => by rw [ofInt_toInt_add],
    leaves_congr (stat2_leaves h hd ha hb fun p q => (p - q, 0)) fun t => by rw [ofInt_toInt_sub],
    leaves_congr (stat2_leaves h hd ha hb fun p q => satWord (p.toInt + q.toInt)) fun t => satWord_eq _,
    leaves_congr (stat2_leaves h hd ha hb fun p q => satWord (p.toInt - q.toInt)) fun t => satWord_eq _,
    leaves_congr (vec2_leaves h hd ha hb fun p q => p * q) fun t => (ofNat_toNat_mul _ _).symm,
    leaves_congr (vec2_leaves h hd ha hb (mulHigh false)) fun t => mulHigh_signed _ _,
    leaves_congr (vec2_leaves h hd ha hb (mulHigh true)) fun t => mulHigh_unsigned _ _,
    leaves_congr (vec3_leaves h hd ha hb fun p q r => p * q + r) fun t => (ofNat_toNat_mul_add _ _ _).symm,
    leaves_congr (vec2_leaves h hd ha hb fun p q => if intCond 2 false q p then q else p) fun t => lesser_signed _ _,
    leaves_congr (vec2_leaves h hd ha hb fun p q => if intCond 2 true q p then q else p) fun t => lesser_unsigned _ _,
    leaves_congr (vec2_leaves h hd ha hb fun p q => if intCond 2 false p q then q else p) fun t => greater_signed _ _,
    leaves_congr (vec2_leaves h hd ha hb fun p q => if intCond 2 true p q then q else p) fun t => greater_unsigned _ _,
    leaves_congr (vec1_leaves h hd ha fun p => if p.msb then -p else p) fun t => absWord_eq _,
    vec2_leaves h hd ha hb _, vec2_leaves h hd ha hb _, vec2_leaves h hd ha hb _, vec1_leaves h hd ha _,
    leaves_congr (vec1_leaves h hd ha popWord) fun t => popWord_eq _,
    leaves_congr (vec1_leaves h hd ha clzWord) fun t => clzWord_eq _,
    leaves_congr (vec1_leaves h hd ha revWord) fun t => revWord_eq _⟩

end Sys2Proof.Machine
end

section
/-! PROOFS. Shifts, rotates, bit fields and IDOT4 (R108, R109, R111): each bit or product as its rule states it. -/

namespace Sys2Proof.Machine

/-! ## Shifts and rotates (R108) -/

/-- A count of 32 or more shifts every bit out. -/
theorem shlWord_eq (x n : Word) : shlWord x n = x <<< n.toNat := by
  by_cases h : n.toNat < 32
  · rw [shlWord, if_pos h]
  · rw [shlWord, if_neg h, BitVec.shiftLeft_eq_zero (not_lt.1 h)]
    rfl

theorem shrWord_eq (x n : Word) : shrWord x n = x >>> n.toNat := by
  by_cases h : n.toNat < 32
  · rw [shrWord, if_pos h]
  · rw [shrWord, if_neg h, BitVec.ushiftRight_eq_zero (not_lt.1 h)]
    rfl

/-- A count of 32 or more leaves copies of bit 31. -/
theorem sarWord_eq (x n : Word) : sarWord x n =
    if n.toNat < 32 then x.sshiftRight n.toNat else if x.msb then 0xFFFFFFFF else 0 := by
  by_cases h : n.toNat < 32
  · rw [sarWord, if_pos h, min_eq_left (by omega)]
  · rw [sarWord, if_neg h, min_eq_right (by omega)]
    have hcopies : x.sshiftRight 31 = if x.msb then BitVec.allOnes 32 else 0#32 := by
      refine BitVec.eq_of_getLsbD_eq fun i hi => ?_
      rw [BitVec.getLsbD_sshiftRight]
      have hbit : (if 31 + i < 32 then x.getLsbD (31 + i) else x.msb) = x.msb := by
        split
        · rw [show 31 + i = 31 by omega, BitVec.msb_eq_getLsbD_last]
        · rfl
      rw [hbit]
      cases x.msb
      · simp
      · rw [if_pos rfl, BitVec.getLsbD_allOnes]
        simp [hi]
    rw [hcopies]
    rfl

theorem rotateLeft_eq_shifts (x : Word) (n : Nat) :
    x.rotateLeft (n % 32) = x <<< (n % 32) ||| x >>> (32 - n % 32) := by
  rw [BitVec.rotateLeft_eq_rotateLeftAux_of_lt (Nat.mod_lt _ (by decide)), BitVec.rotateLeftAux]

theorem rotateRight_eq_shifts (x : Word) (n : Nat) :
    x.rotateRight (n % 32) = x >>> (n % 32) ||| x <<< (32 - n % 32) := by
  rw [BitVec.rotateRight_eq_rotateRightAux_of_lt (Nat.mod_lt _ (by decide)), BitVec.rotateRightAux]

/-! ## Bit fields (R109) -/

theorem fieldOff_eq (y : Word) : fieldOff y = y.toNat % 32 := by simp [fieldOff, bits]

theorem fieldLen_eq (y : Word) : fieldLen y = min (y.toNat / 256 % 64) (32 - y.toNat % 32) := by
  simp [fieldLen, fieldOff_eq, bits]

/-- A field lies within its word. -/
theorem fieldOff_add_fieldLen_le (y : Word) : fieldOff y + fieldLen y ≤ 32 := by
  rw [fieldLen_eq, fieldOff_eq]
  omega

/-- A two's-complement code of w bits is the integer of the bit vector that it makes. -/
theorem signedOf_eq_toInt (w n : Nat) : signedOf w n = (BitVec.ofNat w n).toInt := by
  rw [BitVec.toInt_eq_toNat_cond, BitVec.toNat_ofNat, signedOf]
  cases w with
  | zero => simp [Nat.mod_one]
  | succ w =>
    rw [Nat.add_sub_cancel, pow_succ]
    push_cast
    congr 1
    simp only [eq_iff_iff]
    omega

theorem ofInt_signedOf (w n : Nat) : BitVec.ofInt 32 (signedOf w n) = (BitVec.ofNat w n).signExtend 32 := by
  rw [signedOf_eq_toInt, BitVec.signExtend]

/-- The field of width w at o is what a shift up to bit 31 and a shift down leave; zeros follow a logical shift,
copies of the field's top bit an arithmetic one. -/
theorem field_setWidth (x : Word) {o w : Nat} (hw : o + w ≤ 32) :
    (x.extractLsb' o w).setWidth 32 = (x <<< (32 - o - w)) >>> (32 - w) := by
  refine BitVec.eq_of_getLsbD_eq fun i hi => ?_
  simp only [BitVec.getLsbD_setWidth, BitVec.getLsbD_extractLsb', BitVec.getLsbD_ushiftRight, BitVec.getLsbD_shiftLeft]
  by_cases h : i < w
  · rw [show 32 - w + i - (32 - o - w) = o + i by omega]
    simp [h, hi, show 32 - w + i < 32 by omega, show ¬ 32 - w + i < 32 - o - w by omega]
  · simp [h, show ¬ 32 - w + i < 32 by omega]

theorem field_signExtend (x : Word) {o w : Nat} (hw : o + w ≤ 32) (h0 : w ≠ 0) :
    (x.extractLsb' o w).signExtend 32 = (x <<< (32 - o - w)).sshiftRight (32 - w) := by
  refine BitVec.eq_of_getLsbD_eq fun i hi => ?_
  have htop : (x <<< (32 - o - w)).getLsbD 31 = (x.extractLsb' o w).getLsbD (w - 1) := by
    rw [BitVec.getLsbD_shiftLeft, BitVec.getLsbD_extractLsb', show 31 - (32 - o - w) = o + (w - 1) by omega]
    simp [show ¬ 31 < 32 - o - w by omega, show w - 1 < w by omega]
  rw [BitVec.getLsbD_signExtend, BitVec.getLsbD_sshiftRight, BitVec.msb_eq_getLsbD_last, BitVec.msb_eq_getLsbD_last, htop]
  by_cases h : i < w
  · rw [if_pos h, if_pos (by omega), BitVec.getLsbD_shiftLeft, BitVec.getLsbD_extractLsb',
      show 32 - w + i - (32 - o - w) = o + i by omega]
    simp [h, hi, show 32 - w + i < 32 by omega, show ¬ 32 - w + i < 32 - o - w by omega]
  · rw [if_neg h, if_neg (by omega)]
    simp [hi]

theorem bfeWord_unsigned (x y : Word) : bfeWord false x y =
    (x <<< (32 - fieldOff y - fieldLen y)) >>> (32 - fieldLen y) := by
  rw [← field_setWidth x (fieldOff_add_fieldLen_le y)]
  refine BitVec.eq_of_toNat_eq ?_
  by_cases h : fieldLen y = 0
  · rw [bfeWord]
    simp [h, Nat.mod_one]
  · rw [bfeWord]
    simp [h, Nat.shiftRight_eq_div_pow]

theorem bfeWord_signed (x y : Word) : bfeWord true x y =
    if fieldLen y = 0 then 0 else (x <<< (32 - fieldOff y - fieldLen y)).sshiftRight (32 - fieldLen y) := by
  by_cases h : fieldLen y = 0
  · rw [bfeWord, if_pos h, if_pos h]
  · rw [bfeWord, if_neg h, if_neg h, if_pos rfl, ofInt_signedOf, ← field_signExtend x (fieldOff_add_fieldLen_le y) h]
    congr 1
    refine BitVec.eq_of_toNat_eq ?_
    simp [Nat.shiftRight_eq_div_pow]

/-- A mask of the field's bits. -/
theorem fieldMask_getLsbD (o w i : Nat) (hi : i < 32) :
    (BitVec.ofNat 32 ((2 ^ w - 1) * 2 ^ o)).getLsbD i = decide (o ≤ i ∧ i < o + w) := by
  rw [BitVec.getLsbD_ofNat, Nat.testBit_mul_two_pow, Nat.testBit_two_pow_sub_one]
  simp only [hi, decide_true, Bool.true_and, ← Bool.decide_and]
  congr 1
  simp only [eq_iff_iff]
  omega

/-- BFI takes the field's bits from the low bits of x, and keeps the others of d. -/
theorem bfiWord_getLsbD (x y z : Word) (i : Nat) : (bfiWord x y z).getLsbD i =
    if fieldOff y ≤ i ∧ i < fieldOff y + fieldLen y then x.getLsbD (i - fieldOff y) else z.getLsbD i := by
  have hle := fieldOff_add_fieldLen_le y
  by_cases hi : i < 32
  · simp only [bfiWord, BitVec.getLsbD_or, BitVec.getLsbD_and, BitVec.getLsbD_not, BitVec.getLsbD_shiftLeft,
      fieldMask_getLsbD _ _ i hi]
    by_cases h : fieldOff y ≤ i ∧ i < fieldOff y + fieldLen y
    · simp [h, hi]
    · simp [h, hi]
  · rw [if_neg (by omega), BitVec.getLsbD_of_ge _ _ (not_lt.1 hi), BitVec.getLsbD_of_ge _ _ (not_lt.1 hi)]

/-! ## IDOT4 (R111) -/

theorem byteOf_eq_extract (x : Word) (i : Nat) : byteOf x i = x.extractLsb' (8 * i) 8 := by
  rw [byteOf, BitVec.setWidth_ushiftRight_eq_extractLsb]

/-- A sum over a list, in the order of a left fold. -/
theorem foldl_add_eq_sum {β : Type} [AddCommMonoid β] (f : Nat → β) (l : List Nat) :
    l.foldl (fun a i => a + f i) 0 = (l.map f).sum := by
  rw [List.sum_eq_foldl, List.foldl_map]

theorem dot4_signed (x y z : Word) : dot4 false x y z = BitVec.ofInt 32 (z.toInt +
    ((List.range 4).map (fun i => (x.extractLsb' (8 * i) 8).toInt * (y.extractLsb' (8 * i) 8).toInt)).sum) := by
  simp only [dot4, foldl_add_eq_sum, byteOf_eq_extract]
  rfl

theorem dot4_unsigned (x y z : Word) : dot4 true x y z = BitVec.ofNat 32 (z.toNat +
    ((List.range 4).map (fun i => (x.extractLsb' (8 * i) 8).toNat * (y.extractLsb' (8 * i) 8).toNat)).sum) := by
  rw [BitVec.ofNat_add, BitVec.ofNat_toNat, BitVec.setWidth_eq, ← BitVec.ofInt_natCast, Nat.cast_list_sum, List.map_map]
  simp only [dot4, foldl_add_eq_sum, byteOf_eq_extract, if_true, BitVec.ofInt_add, BitVec.ofInt_toInt, Function.comp_def,
    Nat.cast_mul]

/-- Settles O3: each word is a vector word over its operands, and its result is that of its rule. -/
theorem shiftAndFieldWords : Obligations.ShiftAndFieldWords := by
  intro s c g d a b x y h hd ha hb z put o w
  have ho : ∀ t, fieldOff (y t) = o t := fun t => fieldOff_eq _
  have hw : ∀ t, fieldLen (y t) = w t := fun t => fieldLen_eq _
  refine ⟨leaves_congr (vec2_leaves h hd ha hb shlWord) fun t => shlWord_eq _ _,
    leaves_congr (vec2_leaves h hd ha hb shrWord) fun t => shrWord_eq _ _,
    leaves_congr (vec2_leaves h hd ha hb sarWord) fun t => sarWord_eq _ _,
    leaves_congr (vec2_leaves h hd ha hb fun p q => p.rotateLeft (q.toNat % 32)) fun t => rotateLeft_eq_shifts _ _,
    leaves_congr (vec2_leaves h hd ha hb fun p q => p.rotateRight (q.toNat % 32)) fun t => rotateRight_eq_shifts _ _,
    leaves_congr (vec2_leaves h hd ha hb (bfeWord false)) fun t => ?_,
    leaves_congr (vec2_leaves h hd ha hb (bfeWord true)) fun t => ?_,
    ⟨_, vec3_leaves h hd ha hb bfiWord, fun t i => ?_⟩,
    leaves_congr (vec3_leaves h hd ha hb (dot4 false)) fun t => dot4_signed _ _ _,
    leaves_congr (vec3_leaves h hd ha hb (dot4 true)) fun t => dot4_unsigned _ _ _⟩
  · rw [bfeWord_unsigned, ho, hw]
  · rw [bfeWord_signed, ho, hw]
  · rw [bfiWord_getLsbD, ho, hw]

end Sys2Proof.Machine
end

section
/-! PROOFS. Words of 64-bit pairs and of runs of registers (R110, R131). -/

namespace Sys2Proof.Machine

variable {s : State} {c : Cur} {g : Group} {d : Nat}

/-! ## Reading after the write of a pair or a run -/

theorem Regs.getV_setPairV (r : Regs) {l m : Nat} (w : DWord) (t : Nat) {n : Nat} (hn : n < 64) (hm : m + 1 < 64) :
    (r.setPairV l m w).getV t n =
      if n = m ∧ t = l then lowWord w else if n = m + 1 ∧ t = l then highWord w else r.getV t n := by
  rw [Regs.setPairV, Regs.getV_setV _ _ _ _ _ _ hn hm, Regs.getV_setV _ _ _ _ _ _ hn (by omega)]
  by_cases h : n = m
  · rw [if_neg (by omega)]
    simp [h]
  · simp [h]

theorem Regs.getV_writePairs (r : Regs) (d : Nat) (f : Nat → DWord) (l : List Nat) (t : Nat) {n : Nat} (hn : n < 64)
    (hd : d + 1 < 64) : (r.writePairs d f l).getV t n =
      if n = d ∧ t ∈ l then lowWord (f t) else if n = d + 1 ∧ t ∈ l then highWord (f t) else r.getV t n := by
  induction l generalizing r with
  | nil => simp [Regs.writePairs]
  | cons x xs ih =>
    rw [Regs.writePairs, ih, Regs.getV_setPairV _ _ _ hn hd]
    by_cases hx : t = x
    · subst hx
      by_cases hlo : n = d
      · simp [hlo]
      · by_cases hhi : n = d + 1 <;> simp [hlo, hhi]
    · simp [hx]

theorem Regs.writePairs_eta (r : Regs) (d : Nat) (f : Nat → DWord) (l : List Nat) :
    r.writePairs d f l = { r with v := (r.writePairs d f l).v } := by
  induction l generalizing r with
  | nil => rfl
  | cons x xs ih => exact ih _

/-- A write of pairs is a write of vD:vD+1 in the issue set and of nothing else (R4, R102). -/
theorem Regs.writePairs_onlyPair (c : Cur) (g : Group) (f : Nat → DWord) (hd : d + 1 < 64) :
    g.regs.onlyPair d (c.runs g) f (g.regs.writePairs d f (c.lanes g)) := by
  refine ⟨fun t n hn => ?_, Regs.writePairs_eta _ _ _ _⟩
  rw [Regs.getV_writePairs _ _ _ _ _ hn hd]
  simp only [Cur.mem_lanes]

theorem Regs.getV_writeRun (r : Regs) (l d : Nat) (ws : List Word) (t : Nat) {n : Nat} (hn : n < 64)
    (hd : d + ws.length ≤ 64) : (r.writeRun l d ws).getV t n =
      if t = l ∧ d ≤ n ∧ n < d + ws.length then ws.getD (n - d) 0 else r.getV t n := by
  induction ws generalizing r d with
  | nil => simp [Regs.writeRun]
  | cons w ws ih =>
    rw [List.length_cons] at hd ⊢
    rw [Regs.writeRun, ih _ _ (by omega), Regs.getV_setV _ _ _ _ _ _ hn (by omega)]
    by_cases ht : t = l
    · obtain hlt | rfl | hgt := lt_trichotomy n d
      · simp [hlt.ne, show ¬ d + 1 ≤ n by omega, show ¬ d ≤ n by omega]
      · simp [ht]
      · obtain ⟨k, rfl⟩ : ∃ k, n = d + 1 + k := ⟨n - (d + 1), by omega⟩
        rw [show d + 1 + k - (d + 1) = k by omega, show d + 1 + k - d = k + 1 by omega]
        simp [ht, Nat.add_assoc, Nat.add_comm 1]
    · simp [ht]

theorem Regs.writeRun_eta (r : Regs) (l d : Nat) (ws : List Word) :
    r.writeRun l d ws = { r with v := (r.writeRun l d ws).v } := by
  induction ws generalizing r d with
  | nil => rfl
  | cons w ws ih => exact ih _ _

/-- Runs of k registers written in each lane of a list. -/
theorem Regs.getV_foldl_writeRun (r : Regs) (d k : Nat) (f : Nat → List Word) (l : List Nat) (t : Nat) {n : Nat}
    (hf : ∀ x, (f x).length = k) (hn : n < 64) (hd : d + k ≤ 64) :
    (l.foldl (fun r x => r.writeRun x d (f x)) r).getV t n =
      if d ≤ n ∧ n < d + k ∧ t ∈ l then (f t).getD (n - d) 0 else r.getV t n := by
  induction l generalizing r with
  | nil => simp
  | cons x xs ih =>
    rw [List.foldl_cons, ih, Regs.getV_writeRun _ _ _ _ _ hn (by rw [hf]; exact hd), hf]
    by_cases hx : t = x
    · subst hx
      by_cases hr : d ≤ n ∧ n < d + k
      · simp [hr]
      · have hout : ∀ p, ¬ (d ≤ n ∧ n < d + k ∧ p) := fun p hp => hr ⟨hp.1, hp.2.1⟩
        simp only [hout, hr, and_false, if_false]
    · simp [hx]

theorem Regs.foldl_writeRun_eta (r : Regs) (d : Nat) (f : Nat → List Word) (l : List Nat) :
    l.foldl (fun r x => r.writeRun x d (f x)) r =
      { r with v := (l.foldl (fun r x => r.writeRun x d (f x)) r).v } := by
  induction l generalizing r with
  | nil => rfl
  | cons x xs ih =>
    rw [List.foldl_cons, ih, Regs.writeRun_eta]

/-- A write of runs is a write of k registers from vD on in the issue set and of nothing else (R102). -/
theorem Regs.writeRuns_onlyRun (c : Cur) (g : Group) {k : Nat} (f : Nat → Nat → Word) (hd : d + k ≤ 64) :
    g.regs.onlyRun d k (c.runs g) f
      ((c.lanes g).foldl (fun r x => r.writeRun x d ((List.range k).map (f x))) g.regs) := by
  refine ⟨fun t n hn => ?_, Regs.foldl_writeRun_eta _ _ _ _⟩
  rw [Regs.getV_foldl_writeRun _ _ _ _ _ _ (fun x => by simp) hn hd]
  simp only [Cur.mem_lanes]
  by_cases h : d ≤ n ∧ n < d + k ∧ c.runs g t = true
  · rw [if_pos h, if_pos h, List.getD_eq_getElem _ _ (by simp; omega)]
    simp
  · rw [if_neg h, if_neg h]

/-! ## The elements of QUNPK (R131) -/

theorem unpackElem_float (f : Fmt) (n i : Nat) (w : Word) : unpackElem (.flt f) n i w =
    BitVec.ofNat 32 (Fmt.fp32.roundNE (f.decode (w.toNat / 2 ^ (32 / n * i) % 2 ^ (32 / n)))) := rfl

theorem unpackElem_signed (b n i : Nat) (w : Word) : unpackElem (.int b true) n i w =
    (BitVec.ofNat b (w.toNat / 2 ^ (32 / n * i) % 2 ^ (32 / n))).signExtend 32 := ofInt_signedOf _ _

theorem unpackElem_unsigned (b n i : Nat) (w : Word) : unpackElem (.int b false) n i w =
    BitVec.ofNat 32 (w.toNat / 2 ^ (32 / n * i) % 2 ^ (32 / n)) := rfl

/-- Settles O4: the pairs and the run are written from operands read before any write. -/
theorem wideWords : Obligations.WideWords := by
  intro s c g d v a b x y u h hd hv ha hb hu
  refine ⟨leaves_of_exec (o := execIadd64 d a b s) rfl
      (regs_leaves h (by simp only [ha, hb]) (Regs.writePairs_onlyPair c g _ hd)),
    leaves_of_exec (o := execLea d a b s) rfl
      (regs_leaves h (by simp only [ha, hu]) (Regs.writePairs_onlyPair c g _ hd)),
    fun ty hty => leaves_of_exec (o := execQunpk d v ty s) rfl
      (leaves_congr (regs_leaves h rfl (Regs.writeRuns_onlyRun c g _ hty)) fun t => funext fun i => ?_)⟩
  match ty with
  | 0 | 1 | 2 | 3 | 4 => exact unpackElem_float _ _ _ _
  | 5 | 6 => exact unpackElem_signed _ _ _ _
  | _ + 7 => exact unpackElem_unsigned 8 _ _ _

end Sys2Proof.Machine
end

section
/-! PROOFS. Compares, selects and predicate words (R112 to R114, R123), and scalar words (R121, R122, R124). -/

namespace Sys2Proof.Machine

variable {s : State} {c : Cur} {g : Group} {k : LitKind} {d : Nat} {a : Src} {x : Nat → Word}

/-! ## Conditions (R30) -/

/-- The relation between integers that a condition code names (R30). -/
def intRelations : List (Nat × (Int → Int → Bool)) :=
  [(0, fun m n => decide (m = n)), (1, fun m n => decide (m ≠ n)), (2, fun m n => decide (m < n)),
    (3, fun m n => decide (m ≤ n)), (4, fun m n => decide (m > n)), (5, fun m n => decide (m ≥ n))]

theorem intCond_signed {e : Nat × (Int → Int → Bool)} (he : e ∈ intRelations) (p q : Word) :
    intCond e.1 false p q = e.2 p.toInt q.toInt := by
  simp only [intRelations, List.mem_cons, List.not_mem_nil, or_false] at he
  rw [Bool.eq_iff_iff]
  obtain rfl | rfl | rfl | rfl | rfl | rfl := he
  all_goals simp [intCond, BitVec.toInt_inj]

theorem intCond_unsigned {e : Nat × (Int → Int → Bool)} (he : e ∈ intRelations) (p q : Word) :
    intCond e.1 true p q = e.2 p.toNat q.toNat := by
  simp only [intRelations, List.mem_cons, List.not_mem_nil, or_false] at he
  rw [Bool.eq_iff_iff]
  obtain rfl | rfl | rfl | rfl | rfl | rfl := he
  all_goals simp [intCond, BitVec.toNat_inj]

theorem fltCond_unordered (p q : Word) : fltCond 6 p q =
    decide (Fmt.fp32.decode p.toNat = .nan ∨ Fmt.fp32.decode q.toNat = .nan) := by
  simp [fltCond, f32, beq_eq_decide]

theorem fltCond_ordered (p q : Word) : fltCond 7 p q =
    decide (Fmt.fp32.decode p.toNat ≠ .nan ∧ Fmt.fp32.decode q.toNat ≠ .nan) := by
  simp [fltCond, f32, beq_eq_decide]

/-! ## What selects, scalar compares and predicate words leave -/

theorem select_leaves (h : s.issuing c g) (hd : d < 64) (ha : s.src c g k a = .ok x) (p v : Nat) (neg : Bool) :
    ∃ t r, selWord s k d p a v neg = .next t ∧ s.passed c g r t ∧
      g.regs.onlyV d (c.runs g) (fun t => if ((g.regs.getP p).getLsbD t ^^ neg) then x t else g.regs.getV t v) r :=
  regs_leaves h (src1_ok ha _) (Regs.writeLanes_onlyV c g d _ hd)

theorem scmp_leaves {b : Src} {y : Nat → Word} (h : s.issuing c g) (ha : s.src c g .int a = .ok x)
    (hb : s.src c g .int b = .ok y) (cc : Nat) (m : Bool) :
    ∃ t r, execScmp d cc a b m s = .next t ∧ s.passed c g r t ∧
      g.regs.onlyP d (c.runs g) g.width (fun _ => intCond cc m (x 0) (y 0)) r := by
  refine regs_leaves h (src2_ok ha hb _) (Regs.setP_onlyP c g d _ _ fun t ht _ => ?_)
  cases intCond cc m (x 0) (y 0)
  · simp
  · rw [if_pos rfl, BitVec.getLsbD_allOnes, decide_eq_true ht]

/-- A word that sets pD from the lanes of a bitmap. -/
theorem setP_leaves {f : Cur → Group → State → Except Stop Regs} {m : Lanes} {v : Nat → Bool} (h : s.issuing c g)
    (hf : f c g s = .ok (g.regs.setP d c.map m)) (hv : ∀ t, t < 64 → m.getLsbD t = v t) :
    ∃ t r, issueRegs s f = .next t ∧ s.passed c g r t ∧ g.regs.onlyP d (c.runs g) g.width v r :=
  regs_leaves h hf (Regs.setP_onlyP c g d m v fun t ht _ => hv t ht)

theorem predIn_getLsbD (r : Regs) (p : Nat) (inv : Bool) {t : Nat} (ht : t < 64) :
    (predIn r p inv).getLsbD t = ((r.getP p).getLsbD t ^^ inv) := by
  cases inv <;> simp [predIn, ht]

/-- Bit 0 of the field inverts the first source of PAND and POR, bit 1 the second (R114). -/
theorem predInverts : ∀ e ∈ [(0, false, false), (1, true, false), (2, false, true), (3, true, true)],
    flagBit e.1 0 = e.2.1 ∧ flagBit e.1 1 = e.2.2 := by decide

/-- Settles O5: the compares by the relation that the code names, the selects and the predicate words lane by lane. -/
theorem comparesAndPredicates : Obligations.ComparesAndPredicates := by
  intro s c g d p v a b x y xf yf h hd ha hb haf hbf
  refine ⟨fun e he => ⟨?_, ?_, ?_, ?_⟩, cmp2_leaves h haf hbf (fltCond 0), cmp2_leaves h haf hbf (fltCond 1),
    cmp2_leaves h haf hbf (fltCond 2), cmp2_leaves h haf hbf (fltCond 3), cmp2_leaves h haf hbf (fltCond 4),
    cmp2_leaves h haf hbf (fltCond 5), leaves_congr (cmp2_leaves h haf hbf (fltCond 6)) fun t => fltCond_unordered _ _,
    leaves_congr (cmp2_leaves h haf hbf (fltCond 7)) fun t => fltCond_ordered _ _,
    fun neg => ⟨select_leaves h hd ha p v neg, select_leaves h hd haf p v neg⟩, fun e he => ?_, ?_⟩
  · exact leaves_congr (cmp2_leaves h ha hb (intCond e.1 false)) fun t => intCond_signed he _ _
  · exact leaves_congr (cmp2_leaves h ha hb (intCond e.1 true)) fun t => intCond_unsigned he _ _
  · exact leaves_congr (scmp_leaves h ha hb e.1 false) fun _ => intCond_signed he _ _
  · exact leaves_congr (scmp_leaves h ha hb e.1 true) fun _ => intCond_unsigned he _ _
  · obtain ⟨h0, h1⟩ := predInverts e he
    refine ⟨leaves_of_exec (o := execPand d p v e.1 s) rfl (setP_leaves h rfl fun t ht => ?_),
      leaves_of_exec (o := execPor d p v e.1 s) rfl (setP_leaves h rfl fun t ht => ?_)⟩
    · rw [BitVec.getLsbD_and, predIn_getLsbD _ _ _ ht, predIn_getLsbD _ _ _ ht, h0, h1]
    · rw [BitVec.getLsbD_or, predIn_getLsbD _ _ _ ht, predIn_getLsbD _ _ _ ht, h0, h1]
  · exact leaves_of_exec (o := execPnot d p s) rfl (setP_leaves h rfl fun t ht => by simp [ht])

/-! ## Scalar words -/

/-- A word that writes sD alone. -/
theorem setS_leaves {f : Cur → Group → State → Except Stop Regs} {w w' : Word} (h : s.issuing c g)
    (hf : f c g s = .ok (g.regs.setS d w)) (hw : w = w') :
    ∃ t r, issueRegs s f = .next t ∧ s.passed c g r t ∧ g.regs.onlyS d w' r :=
  hw ▸ regs_leaves h hf ⟨fun _ => Regs.getS_setS _ _ _ _, rfl⟩

/-- Settles O6: a scalar word reads its operands once and writes sD. -/
theorem scalarWords : Obligations.ScalarWords := by
  intro s c g d imm a b x y h himm ha hb put
  have hsca := fun (i : Instr) (f : Word → Word → Word) (w : Word) (hi : exec i s = sca2 s d a b f)
    (hw : f (x 0) (y 0) = w) => (leaves_of_exec hi (hw ▸ sca2_leaves h ha hb f) : put i w)
  exact ⟨hsca _ (fun p q => p + q) _ rfl (ofNat_toNat_add _ _).symm, hsca _ (fun p q => p - q) _ rfl (ofInt_toInt_sub _ _).symm,
    hsca _ (fun p q => p * q) _ rfl (ofNat_toNat_mul _ _).symm, hsca _ (fun p q => p &&& q) _ rfl rfl,
    hsca _ (fun p q => p ||| q) _ rfl rfl, hsca _ (fun p q => p ^^^ q) _ rfl rfl,
    hsca _ shlWord _ rfl (shlWord_eq _ _), hsca _ shrWord _ rfl (shrWord_eq _ _), hsca _ sarWord _ rfl (sarWord_eq _ _),
    leaves_of_exec (o := execSmov d a s) rfl (setS_leaves h (src1_ok ha _) rfl),
    leaves_of_exec (o := execSli d imm s) rfl (setS_leaves h rfl (ofInt_signedOf 17 imm))⟩

end Sys2Proof.Machine
end

section
/-! PROOFS. Moves between register kinds and the constant window (R92, R126, R127), and where a block goes on after a
word (R17, R77). -/

namespace Sys2Proof.Machine

variable {s : State} {c : Cur} {g : Group} {d : Nat}

/-! ## Moves -/

/-- A word that writes vD of the issue set alone. -/
theorem writeLanes_leaves {f : Cur → Group → State → Except Stop Regs} {v : Nat → Word} (h : s.issuing c g) (hd : d < 64)
    (hf : f c g s = .ok (g.regs.writeLanes d v (c.lanes g))) :
    ∃ t r, issueRegs s f = .next t ∧ s.passed c g r t ∧ g.regs.onlyV d (c.runs g) v r :=
  regs_leaves h hf (Regs.writeLanes_onlyV c g d v hd)

theorem v2s_leaves (h : s.issuing c g) (v : Nat) {n : Nat} (hn : n < g.width) :
    leaves (.v2s d v n) s c g (g.regs.onlyS d (if g.live.getLsbD n then g.regs.getV n v else 0)) :=
  leaves_of_exec (o := execV2s d v n s) rfl (setS_leaves h (if_neg (by omega)) rfl)

theorem v2s_raises (h : s.issuing c g) (v : Nat) {n : Nat} (hn : g.width ≤ n) :
    exec (.v2s d v n) s = .next (s.stopAt c (.trap ⟨0x01, c.map, 0⟩)) :=
  (issueRegs_error h (if_pos hn) : execV2s d v n s = _)

theorem movs_leaves (h : s.issuing c g) (hd : d < 64) {n : Nat} (hn : n ≤ 0x018) :
    leaves (.movs d n) s c g (g.regs.onlyV d (c.runs g) (s.special c g n)) :=
  leaves_of_exec (o := execMovs d n s) rfl (writeLanes_leaves h hd (if_neg (by omega)))

theorem movs_raises (h : s.issuing c g) {n : Nat} (hn : 0x018 < n) :
    exec (.movs d n) s = .next (s.stopAt c (.trap ⟨0x01, c.map, 0⟩)) :=
  (issueRegs_error h (if_pos hn) : execMovs d n s = _)

/-- The special registers of R14 that every thread of the group reads alike. -/
def sharedSpecials (s : State) (c : Cur) (g : Group) : List (Nat × Nat) :=
  [(0x001, g.grp), (0x008, g.core), (0x009, g.part), (0x00B, g.width), (0x00E, s.clock), (0x00F, s.clock / 2 ^ 32),
    (0x013, g.live.toNat), (0x014, g.live.toNat / 2 ^ 32), (0x015, c.map.toNat), (0x016, c.map.toNat / 2 ^ 32),
    (0x017, g.lpb), (0x018, g.lpb / 2 ^ 32 % 2 ^ 16)]

theorem special_shared {e : Nat × Nat} (he : e ∈ sharedSpecials s c g) :
    e.1 ≤ 0x018 ∧ ∀ t, s.special c g e.1 t = BitVec.ofNat 32 e.2 := by
  simp only [sharedSpecials, List.mem_cons, List.not_mem_nil, or_false] at he
  obtain rfl | rfl | rfl | rfl | rfl | rfl | rfl | rfl | rfl | rfl | rfl | rfl := he
  all_goals exact ⟨by simp, fun t => rfl⟩

/-- CWIN writes the bank and the index of the constant window alone (R92). -/
theorem cwin_leaves (h : s.issuing c g) (b hi lo : Nat) :
    leaves (.cwin b hi lo) s c g (fun r => r = { g.regs with cwBank := b, cwIdx := 4 * hi + lo }) :=
  leaves_of_exec (o := execCwin b hi lo s) rfl (regs_leaves h rfl (by rw [Nat.mul_comm]))

theorem cwinReg_leaves (h : s.issuing c g) (b v : Nat) :
    leaves (.cwinReg b v) s c g (fun r => r = { g.regs with cwBank := b, cwIdx := (g.regs.getS v).toNat % 256 }) :=
  leaves_of_exec (o := execCwinReg b v s) rfl (regs_leaves h rfl rfl)

/-! ## Threads that enter the table (R237) -/

/-- Thread t stands in an entry at a place and in a wait. -/
def BbtEntry.holds (e : BbtEntry) (t pc slot : Nat) (w : BbtWait) : Prop :=
  e.map.getLsbD t = true ∧ e.pc = pc ∧ e.slot = slot ∧ e.wait = w

theorem Group.stands_iff (g : Group) (t pc slot : Nat) (w : BbtWait) :
    g.stands t pc slot w ↔ ∃ e ∈ g.bbt, e.holds t pc slot w := Iff.rfl

/-- The threads of an entry stand in the table it enters, and every other thread stands where it stood. -/
theorem bbtEnter_holds (l : List BbtEntry) (e : BbtEntry) (t pc slot : Nat) (w : BbtWait) :
    (∃ f ∈ bbtEnter l e, f.holds t pc slot w) ↔ (∃ f ∈ l, f.holds t pc slot w) ∨ e.holds t pc slot w := by
  induction l with
  | nil => simp [bbtEnter]
  | cons f r ih =>
    rw [bbtEnter]
    split_ifs with hsame hbefore
    · obtain ⟨hpc, hslot, hwait⟩ := hsame
      have hmerged : BbtEntry.holds { f with map := f.map ||| e.map, age := max f.age e.age, held := min f.held e.held }
          t pc slot w ↔ f.holds t pc slot w ∨ e.holds t pc slot w := by
        simp only [BbtEntry.holds, BitVec.getLsbD_or, Bool.or_eq_true, hpc, hslot, hwait, or_and_right]
      rw [List.exists_mem_cons_iff, List.exists_mem_cons_iff, hmerged, or_right_comm]
    · rw [List.exists_mem_cons_iff, or_comm]
    · rw [List.exists_mem_cons_iff, List.exists_mem_cons_iff, ih, or_assoc]

theorem Group.stands_enter (g : Group) (m : Lanes) (pc slot t pc' slot' : Nat) (w : BbtWait) :
    (g.enter m pc slot).stands t pc' slot' w ↔
      g.stands t pc' slot' w ∨ (m.getLsbD t = true ∧ pc' = pc ∧ slot' = slot ∧ w = .runnable) := by
  by_cases hm : m = 0
  · simp [Group.enter, hm]
  · rw [Group.enter, if_neg hm, Group.stands_iff, bbtEnter_holds, Group.stands_iff]
    simp only [BbtEntry.holds, eq_comm]

/-! ## Where the block goes on (R17) -/

theorem Group.goOn_slot {go : Lanes} {b : Block} (hb : g.blk = some b) (hgo : go &&& g.live ≠ 0) (hs : c.slot < 2) :
    g.goOn c go = { g with blk := some ⟨go &&& g.live, c.pc, c.slot + 1, b.words, !c.chain⟩ } := by
  simp only [Group.goOn, if_neg hgo, if_pos hs, hb]

theorem Group.goOn_packet {go : Lanes} (hgo : go &&& g.live ≠ 0) (hs : c.slot = 2) (hp : g.trap.preempt = false)
    (hfree : ∀ e ∈ g.bbt, e.pc ≠ c.pc + 12) :
    g.goOn c go = { g with blk := some ⟨go &&& g.live, c.pc + 12, 0, [], true⟩ } := by
  have hno : (g.trap.preempt || g.bbt.any (fun e => e.pc == c.pc + 12)) = false := by simpa [hp] using hfree
  have hlast : ¬ c.slot < 2 := by omega
  simp only [Group.goOn, if_neg hgo, if_neg hlast, hno, if_false, Bool.false_eq_true]

theorem Group.goOn_enter {go : Lanes} (hgo : go &&& g.live ≠ 0) (hs : c.slot = 2)
    (hend : g.trap.preempt = true ∨ ∃ e ∈ g.bbt, e.pc = c.pc + 12) :
    g.goOn c go = ({ g with blk := none } : Group).enter (go &&& g.live) (c.pc + 12) 0 := by
  have hyes : (g.trap.preempt || g.bbt.any (fun e => e.pc == c.pc + 12)) = true := by simpa using hend
  have hlast : ¬ c.slot < 2 := by omega
  simp only [Group.goOn, if_neg hgo, if_neg hlast, hyes, if_true]

/-- A group whose word has issued, before its block goes on: the counts of the word are kept (R266). -/
def State.counted (s : State) (c : Cur) (g : Group) : Group :=
  { g with trap := g.trap.count (s.budgetOf g), ready := false, blockAsk := none, firsts := g.issuedFirst c.map c.pc c.slot }

theorem State.advance_find (h : SMap.find s.groups c.gid = some g) (go : Lanes) :
    SMap.find (s.advance c go).groups c.gid = some ((s.counted c g).goOn c go) := by
  simp only [State.advance, h, State.setGroup_groups, SMap.find_put]
  rfl

/-- A word without an effect of its own moves its block on and changes nothing else. -/
theorem nop_moves (h : s.issuing c g) {p : Group → Prop} (hp : p ((s.counted c g).goOn c c.map)) :
    moves .nop s c g (fun k => k.regs = g.regs ∧ p k) := by
  have hregs : ((s.counted c g).goOn c c.map).regs = g.regs := by rw [Group.goOn_eta]; rfl
  refine ⟨_, _, (issueWord_ok h rfl : execNop s = _), ?_, State.advance_find h.2 _, hregs, hp⟩
  rw [hregs]
  exact State.advance_passed h.2

/-- The literal word moves its block on and changes nothing else; no word boundary follows it (R27). -/
theorem lit_next (h : s.issuing c g) (payload : Nat) : exec (.lit payload) s =
    .next { (s.setGroup c.gid (g.goOn { c with chain := true } c.map)) with cur := none } := by
  show execLit payload s = _
  simp only [execLit, h.1, State.modGroup, h.2]

/-- Settles O7: the moves read and write as R126 and R127 say; NOP and the literal word only move their block. -/
theorem movesAndNop : Obligations.MovesAndNop := by
  constructor
  · intro s c g d v n a x h hd ha
    refine ⟨vec1_leaves h hd ha fun w => w, leaves_of_exec (o := execS2v d v s) rfl (writeLanes_leaves h hd rfl),
      v2s_leaves h v, v2s_raises h v, movs_leaves h hd (n := 0x000) (by decide), fun e he => ?_,
      movs_leaves h hd (n := 0x012) (by decide), fun r => movs_raises h, fun r hr => ⟨_, movs_leaves h hd hr⟩,
      fun b hi lo => ⟨cwin_leaves h b hi lo, cwinReg_leaves h b v⟩⟩
    obtain ⟨hle, hval⟩ := special_shared (s := s) (c := c) he
    exact leaves_congr (movs_leaves h hd hle) hval
  · intro s c g b payload h hb hlive
    refine ⟨fun hs => ?_, fun hs hp hfree => ?_, fun hs hend => ?_, fun hs => ?_⟩
    · refine nop_moves h ?_
      rw [Group.goOn_slot (g := s.counted c g) hb hlive hs]
      exact ⟨rfl, rfl⟩
    · refine nop_moves h ?_
      rw [Group.goOn_packet (g := s.counted c g) hlive hs hp hfree]
      exact ⟨rfl, rfl⟩
    · refine nop_moves h ?_
      rw [Group.goOn_enter (g := s.counted c g) hlive hs hend]
      exact ⟨by rw [Group.enter_eta], Group.stands_enter _ _ _ _⟩
    · have hgo := Group.goOn_slot (c := { c with chain := true }) hb hlive hs
      exact ⟨_, _, lit_next h payload, by rw [hgo]; exact SMap.find_put _ _ _, rfl, by rw [hgo]; rfl⟩

end Sys2Proof.Machine
end

section
/-! PROOFS. Float words (R115, R116, R120), and the unary functions on special operands (R117 to R119). -/

namespace Sys2Proof.Machine

/-- Settles O8: each word is a vector word whose value and status are the rounded exact result of its lane or halves. -/
theorem floatWords : Obligations.FloatWords := by
  intro s c g d a b m x y xh yh h hd ha hb hah hbh
  exact ⟨stat2_leaves h hd ha hb (fadd32 m), stat2_leaves h hd ha hb (fsub32 m), stat2_leaves h hd ha hb (fmul32 m),
    stat3_leaves h hd ha hb (fma32 m), vec2_leaves h hd ha hb (fpick32 false), vec2_leaves h hd ha hb (fpick32 true),
    stat2_leaves h hd hah hbh (packed2 fun p q => (halfFmt m).sum false ((halfFmt m).decode p) ((halfFmt m).decode q)),
    stat2_leaves h hd hah hbh (packed2 fun p q => (halfFmt m).product false ((halfFmt m).decode p) ((halfFmt m).decode q)),
    stat3_leaves h hd hah hbh (packed3 fun p q r =>
      (halfFmt m).fused false ((halfFmt m).decode p) ((halfFmt m).decode q) ((halfFmt m).decode r)),
    stat2_leaves h hd hah hbh (packed2 fun p q => ((halfFmt m).pick false p q, 0)),
    stat2_leaves h hd hah hbh (packed2 fun p q => ((halfFmt m).pick true p q, 0))⟩

/-! ## The unary functions -/

/-- The functions of R117 to R119, FRND in a mode. -/
def unaryFunctions (mode : Nat) : List (Nat → Nat × Stat) :=
  [frcp, frsq, fsqrt, fexp2, flog2, fsin, fcos, ffrc, frnd mode]

/-- Zeros and infinities of FP32. -/
theorem decode_zero : Fmt.fp32.decode 0 = .fin false 0 Fmt.fp32.minExp := by decide
theorem decode_negZero : Fmt.fp32.decode 0x80000000 = .fin true 0 Fmt.fp32.minExp := by decide
theorem decode_inf : Fmt.fp32.decode 0x7F800000 = .inf false := by decide
theorem decode_negInf : Fmt.fp32.decode 0xFF800000 = .inf true := by decide

/-- A NaN gives the canonical NaN without status. -/
theorem unary_nan {mode n : Nat} {f : Nat → Nat × Stat} (hf : f ∈ unaryFunctions mode) (hn : Fmt.fp32.decode n = .nan) :
    f n = (0x7FC00000, 0) := by
  simp only [unaryFunctions, List.mem_cons, List.not_mem_nil, or_false] at hf
  obtain rfl | rfl | rfl | rfl | rfl | rfl | rfl | rfl | rfl := hf
  all_goals
    simp only [frcp, frsq, fsqrt, fexp2, flog2, fsin, fcos, ffrc, frnd, hn]
    rfl

/-- The roots and the logarithm of a finite number below 0 are invalid (R117). -/
theorem unary_negative {n m : Nat} {e : Int} {f : Nat → Nat × Stat} (hf : f ∈ [frsq, fsqrt, flog2]) (hm : m ≠ 0)
    (hn : Fmt.fp32.decode n = .fin true m e) : f n = (0x7FC00000, Stat.nv) := by
  simp only [List.mem_cons, List.not_mem_nil, or_false] at hf
  obtain rfl | rfl | rfl := hf
  · simp only [frsq, hn, if_neg hm]; rfl
  · simp only [fsqrt, hn, if_neg hm]; rfl
  · simp only [flog2, hn, if_neg hm]; rfl

theorem frnd_status (mode n : Nat) : (frnd mode n).2 = 0 := by
  rw [frnd]
  split
  · rfl
  · rfl
  · split <;> rfl

/-- A zero is the integer 0 in every mode (R63). -/
theorem roundInt_zero (mode : Nat) (neg : Bool) : (roundInt mode neg 0 Fmt.fp32.minExp).1 = 0 := by
  have hrest : splitAt 0 Fmt.fp32.minExp false 0 = (0, 0) := by decide
  have hup : roundsUp mode neg 0 0 = false := by
    match mode with
    | 0 | 1 | 2 | _ + 3 => rfl
  simp [roundInt, hrest, hup]

theorem frnd_zero {mode n : Nat} {neg : Bool} (hn : Fmt.fp32.decode n = .fin neg 0 Fmt.fp32.minExp) :
    frnd mode n = (Fmt.fp32.signBit neg, 0) := by
  have hround : Fmt.fp32.roundNE (.fin false 0 0) = 0 := by decide
  have hexp : ¬ 0 ≤ Fmt.fp32.minExp := by decide
  simp only [frnd, hn, roundInt_zero, if_neg hexp, Int.natAbs_zero, hround]
  rfl

theorem frnd_inf {mode n : Nat} {neg : Bool} (hn : Fmt.fp32.decode n = .inf neg) : frnd mode n = (n, 0) := by
  rw [frnd, hn]

/-- R117's table: each function at +0, −0, +∞ and −∞, with FFRC's row (R118). -/
def specialOperands : List ((Nat → Nat × Stat) × (Nat × Stat) × (Nat × Stat) × (Nat × Stat) × (Nat × Stat)) :=
  [(frcp, (0x7F800000, Stat.dz), (0xFF800000, Stat.dz), (0, 0), (0x80000000, 0)),
    (frsq, (0x7F800000, Stat.dz), (0xFF800000, Stat.dz), (0, 0), (0x7FC00000, Stat.nv)),
    (fsqrt, (0, 0), (0x80000000, 0), (0x7F800000, 0), (0x7FC00000, Stat.nv)),
    (fexp2, (0x3F800000, 0), (0x3F800000, 0), (0x7F800000, 0), (0, 0)),
    (flog2, (0xFF800000, Stat.dz), (0xFF800000, Stat.dz), (0x7F800000, 0), (0x7FC00000, Stat.nv)),
    (fsin, (0, 0), (0x80000000, 0), (0x7FC00000, Stat.nv), (0x7FC00000, Stat.nv)),
    (fcos, (0x3F800000, 0), (0x3F800000, 0), (0x7FC00000, Stat.nv), (0x7FC00000, Stat.nv)),
    (ffrc, (0, 0), (0, 0), (0x7FC00000, Stat.nv), (0x7FC00000, Stat.nv))]

theorem specialOperands_hold : ∀ e ∈ specialOperands,
    e.1 0 = e.2.1 ∧ e.1 0x80000000 = e.2.2.1 ∧ e.1 0x7F800000 = e.2.2.2.1 ∧ e.1 0xFF800000 = e.2.2.2.2 := by
  decide

/-- FRND keeps ±0 and ±∞ (R119). -/
theorem frnd_special (mode : Nat) {n : Nat} (hn : n ∈ [0, 0x80000000, 0x7F800000, 0xFF800000]) : frnd mode n = (n, 0) := by
  simp only [List.mem_cons, List.not_mem_nil, or_false] at hn
  obtain rfl | rfl | rfl | rfl := hn
  · exact frnd_zero decode_zero
  · exact frnd_zero decode_negZero
  · exact frnd_inf decode_inf
  · exact frnd_inf decode_negInf

/-- Settles O10: each word is a vector word over its function; the special operands take the branches of the function
for NaN, infinities, zeros and numbers below 0. -/
theorem floatFunctions : Obligations.FloatFunctions := by
  refine ⟨fun s c g d mode a x h hd ha => ?_, specialOperands_hold, fun n mode f hf hn => unary_nan hf hn,
    fun n m e f hf hm hn => unary_negative hf hm hn, frnd_status, fun mode n hn => frnd_special mode hn⟩
  have hword := fun f : Nat → Nat × Stat => stat1_leaves h hd ha (unary32 f)
  exact ⟨hword frcp, hword frsq, hword fsqrt, hword fexp2, hword flog2, hword fsin, hword fcos, hword ffrc,
    hword (frnd mode)⟩

end Sys2Proof.Machine
end

section
/-! PROOFS. Conversions and packing (R129 to R131): the delivery of an exact value to an integer range, and the packing of
elements into a word. -/

namespace Sys2Proof.Machine

/-! ## Delivery to an integer range (R64, R65) -/

theorem deliverInt_fin (mode : Nat) (fromFloat : Bool) (lo hi : Int) (neg : Bool) (m : Nat) (e : Int) :
    deliverInt mode fromFloat lo hi (.fin neg m e) =
      (let r := roundInt mode neg m e
       if r.1 < lo then (lo, if fromFloat then Stat.nv ||| Stat.sf else Stat.sf)
       else if hi < r.1 then (hi, if fromFloat then Stat.nv ||| Stat.sf else Stat.sf)
       else (r.1, if r.2 then Stat.nx else 0)) := by
  rw [deliverInt]
  generalize roundInt mode neg m e = r
  by_cases hlo : r.1 < lo
  · simp [clampInt, hlo]
  · by_cases hhi : hi < r.1
    · simp [clampInt, hlo, hhi]
    · simp [clampInt, hlo, hhi, Stat.when]

/-- The ends of the range of an integer code of w bits. -/
def intLow (w : Nat) (signed : Bool) : Int := if signed then -2 ^ (w - 1) else 0
def intHigh (w : Nat) (signed : Bool) : Int := if signed then 2 ^ (w - 1) - 1 else 2 ^ w - 1

theorem intCode_eq (mode : Nat) (fromFloat : Bool) (w : Nat) (signed : Bool) (x : Num) :
    intCode mode fromFloat w signed x =
      (codeOf w (deliverInt mode fromFloat (intLow w signed) (intHigh w signed) x).1,
        (deliverInt mode fromFloat (intLow w signed) (intHigh w signed) x).2) := by
  cases signed <;> rfl

theorem ofNat_codeOf (i : Int) : BitVec.ofNat 32 (codeOf 32 i) = BitVec.ofInt 32 i := by
  apply BitVec.eq_of_toNat_eq
  simp only [codeOf, BitVec.toNat_ofNat, BitVec.toNat_ofInt]
  omega

/-! ## The types of CVT (R129) -/

/-- The float format of a type code of CVT. -/
def cvtFormat (n : Nat) : Fmt := [Fmt.fp32, Fmt.fp16, Fmt.bf16, Fmt.e4m3, Fmt.e5m2, Fmt.e2m1].getD n .fp32

theorem cvtType_float {n : Nat} (h : n < 6) : cvtType n = .flt (cvtFormat n) := by
  match n with
  | 0 | 1 | 2 | 3 | 4 | 5 => rfl

theorem cvtType_int {n : Nat} (h : ¬ n < 6) : cvtType n = .int (decide (n = 6)) := by
  match n with
  | 6 => rfl
  | _ + 7 => rfl

theorem cvtType_isFlt (n : Nat) : (cvtType n).isFlt = decide (n < 6) := by
  by_cases h : n < 6
  · rw [cvtType_float h, decide_eq_true h]; rfl
  · rw [cvtType_int h, decide_eq_false h]; rfl

theorem cvtType_value (n : Nat) (w : Word) : (cvtType n).value w =
    if n < 6 then (cvtFormat n).decode (w.toNat % 2 ^ (cvtFormat n).width)
    else Num.ofInt (if n = 6 then w.toInt else w.toNat) := by
  by_cases h : n < 6
  · rw [cvtType_float h, if_pos h]; rfl
  · rw [cvtType_int h, if_neg h]
    by_cases h6 : n = 6
    · rw [if_pos h6, decide_eq_true h6]; rfl
    · rw [if_neg h6, decide_eq_false h6]; rfl

/-- CVT into an integer type delivers the exact value to the range of its 32-bit codes. -/
theorem cvtWord_int (mode : Nat) (sat signed : Bool) (src : CvtType) (w : Word) :
    cvtWord mode sat (.int signed) src w =
      (BitVec.ofInt 32 (deliverInt mode src.isFlt (intLow 32 signed) (intHigh 32 signed) (src.value w)).1,
        (deliverInt mode src.isFlt (intLow 32 signed) (intHigh 32 signed) (src.value w)).2) := by
  rw [cvtWord, ofCode, intCode_eq, ofNat_codeOf]

/-! ## Packing (R131) -/

/-- A fold that adds words and unites status bits is the word of the sum and the union. -/
theorem foldl_pack (f : Nat → Nat × Stat) (l : List Nat) (w : Word) (st : Stat) :
    l.foldl (fun p i => (p.1 + BitVec.ofNat 32 (f i).1, p.2 ||| (f i).2)) (w, st) =
      (w + BitVec.ofNat 32 (l.map (fun i => (f i).1)).sum, l.foldl (fun a i => a ||| (f i).2) st) := by
  induction l generalizing w st with
  | nil => simp
  | cons i l ih =>
    rw [List.foldl_cons, ih, List.map_cons, List.sum_cons, List.foldl_cons, BitVec.ofNat_add, BitVec.add_assoc]

theorem packAll_eq (mode : Nat) (sat : Bool) (t : PackType) (n : Nat) (x : Nat → Word) : packAll mode sat t n x =
    (BitVec.ofNat 32 ((List.range n).map (fun i => (packElem mode sat t (x i)).1 * 2 ^ (32 / n * i))).sum,
      (List.range n).foldl (fun a i => a ||| (packElem mode sat t (x i)).2) 0) := by
  have hfold := foldl_pack (fun i => ((packElem mode sat t (x i)).1 * 2 ^ (32 / n * i), (packElem mode sat t (x i)).2))
    (List.range n) 0 0
  rw [zero_add] at hfold
  exact hfold

theorem packType_float {ty : Nat} (h : ty < 5) :
    packType ty = .flt ([Fmt.fp16, Fmt.bf16, Fmt.e4m3, Fmt.e5m2, Fmt.e2m1].getD ty .fp16) := by
  match ty with
  | 0 | 1 | 2 | 3 | 4 => rfl

theorem packElem_int (mode : Nat) (sat : Bool) (b : Nat) (signed : Bool) (w : Word) :
    packElem mode sat (.int b signed) w =
      (codeOf b (deliverInt mode false (intLow b signed) (intHigh b signed) (Num.ofInt w.toInt)).1,
        (deliverInt mode false (intLow b signed) (intHigh b signed) (Num.ofInt w.toInt)).2) :=
  intCode_eq _ _ _ _ _

/-- Settles O11: both words are written with the elements' codes and the union of their status. -/
theorem conversions : Obligations.Conversions := by
  intro s c g d v mode sat dst src ty h hd hty flt val toInt one n elem
  have htoInt : ∀ fromFloat lo hi x, deliverInt mode fromFloat lo hi x = toInt fromFloat lo hi x := by
    intro fromFloat lo hi x
    cases x with
    | nan => rfl
    | inf neg => rfl
    | fin neg m e => exact deliverInt_fin _ _ _ _ _ _ _
  have hone : ∀ w, cvtWord mode sat (cvtType dst) (cvtType src) w = one w := by
    intro w
    have hval : (cvtType src).value w = val w := cvtType_value src w
    by_cases hf : dst < 6
    · simp only [one, if_pos hf, ← hval, cvtType_float hf]
      rfl
    · simp only [one, if_neg hf, ← hval, ← htoInt, cvtType_int hf, cvtWord_int, cvtType_isFlt, intLow, intHigh,
        decide_eq_true_eq]
  have helem : ∀ w, packElem mode sat (packType ty) w = elem w := by
    intro w
    by_cases hf : ty < 5
    · simp only [elem, if_pos hf, packType_float hf]
      rfl
    · simp only [elem, if_neg hf, ← htoInt]
      obtain rfl | rfl | rfl : ty = 5 ∨ ty = 6 ∨ ty = 7 := by omega
      all_goals exact packElem_int _ _ _ _ _
  refine ⟨leaves_of_exec (o := execCvt d v mode sat dst src s) rfl
      (leaves_congr (regs_leaves h rfl (Regs.writeStat_onlyStat c g d _ hd)) fun t => hone _),
    leaves_of_exec (o := execQpack d v mode sat ty s) rfl
      (leaves_congr (regs_leaves h rfl (Regs.writeStat_onlyStat c g d _ hd)) fun t => ?_)⟩
  simp only [packAll_eq, helem]
  rfl

end Sys2Proof.Machine
end
